-- ==== Sys2Proof/Word.lean ====
section
/-!
DEFINITION. The word types the rest of the model uses: bytes, byte strings, 32-bit registers, and sparse tables keyed
by a number. A quantity the manual only counts with (a cycle number, an index, a length) is a `Nat`; a signed quantity
is an `Int`; what the manual treats as bits (bytes of a frame, keys, registers) is a `BitVec`.
-/
namespace Sys2Proof

/-- One byte. -/
abbrev Byte := BitVec 8
/-- A byte string, first byte first. -/
abbrev Bytes := List Byte
/-- A 32-bit register. -/
abbrev Word := BitVec 32
/-- A sparse table: pairs of key and value, keys strictly rising. -/
abbrev Tbl (α : Type) := List (Nat × α)

end Sys2Proof
end

