-- ==== Sys2Proof/Syntax.lean ====
section
/-!
DEFINITION. The commands: one constructor of `Instr` for each row of spec/opcode_table.json, with its operands. A mailbox
command's first operand is its context; what the device reads from outside (line bits, descriptors, a page, a sensor) is an
operand of the command that reads it. `Instr` is the one inductive; the operand records stand before it.
-/
namespace Sys2Proof

/-! Chapter 18: host interface. -/

/-- A mailbox page as the device reads it once (R438, R439). -/
structure PageRead where
  opcode : Nat
  format : Nat
  reqLen : Nat
  hostTag : Nat
  payload : Bytes
deriving DecidableEq, Repr

/-- A write to DOORBELL_LO of a context (R436); no page where the read ends in a completion error (R439). -/
structure Doorbell where
  ctx : Nat
  value : Nat
  page : Option PageRead
deriving DecidableEq, Repr

/-- A transmit descriptor as the device reads it, with the buffer's bytes (R449, R450). -/
structure TxDesc where
  addr : Nat
  len : Nat
  own : Bool
  first : Bool
  last : Bool
  data : Bytes
deriving DecidableEq, Repr

/-- A fetch on host transmit ring `ring` (0 to 3): the descriptors from HEAD on. `lane` is the packet lane (R256), `now` the clock within the tick. -/
structure TxFetch where
  ring : Nat
  descs : List TxDesc
  lane : Nat
  now : Nat
  ready : List Nat := []
deriving DecidableEq, Repr

structure EventRouteReq where
  first : Nat
  count : Nat
  ring : Nat
deriving DecidableEq, Repr

/-! Chapter 20: counters. -/

/-- COUNTER_DUMP_SET (R488): the selection is a list of group, first instance and count. -/
structure DumpReq where
  enable : Bool
  slots : Nat
  period : Nat
  base : Nat
  slotSize : Nat
  select : List (Nat × Nat × Nat)
deriving DecidableEq, Repr

/-- COUNTER_SELECT PROGRAM (R489). -/
structure ProgramReq where
  mode : Nat
  counter : Nat
  kind : Nat
  group : Nat
  stat : Nat
  first : Nat
  last : Nat
deriving DecidableEq, Repr

structure ClearGroupReq where
  group : Nat
  first : Nat
  count : Nat
deriving DecidableEq, Repr

structure QueueBlockReq where
  block : Nat
  first : Nat
deriving DecidableEq, Repr

structure WindowReq where
  window : Nat
  group : Nat
  first : Nat
deriving DecidableEq, Repr

/-! Chapter 21: power, Sluice, reset and debug. -/

/-- What the device reads at the release of POR_N (R36, R498): strapped address and the references judged good. -/
structure PorPins where
  devAddr : Nat
  refA : Bool
  refB : Bool
deriving DecidableEq, Repr

structure BoardProfileReq where
  section_ : Nat
  persist : Bool
  length : Nat
  hostAddr : Nat
  data : Option Bytes
deriving DecidableEq, Repr

structure BudgetReq where
  budget : Nat
  waitLimit : Nat
  prio : List Nat
deriving DecidableEq, Repr

structure TreeConfigReq where
  tree : Nat
  fast : Bool
  txDisableIdle : Bool
  rateSelect : Nat
deriving DecidableEq, Repr

/-- A system memory access of the debug module (R501): space 0 management memory, 1 BAR0, 2 basin, reservoir, queue state,
decision-tree memory, forwarding table, CAM or counter storage, 3 key store, VBAT domain or fuse controller. `page` is the mailbox page that a write to
DOORBELL_LO makes the device read. -/
structure MemAccess where
  space : Nat
  addr : Nat
  write : Bool
  value : Nat
  page : Option PageRead
deriving DecidableEq, Repr

/-- A breakpoint or watchpoint as the debugger has set it (R501), and the access of the core that meets it: unit 0 to 7 breakpoint, 8 to 11 watchpoint;
`access` 0 instruction, 1 read, 2 write. -/
structure BreakHit where
  core : Nat
  unit_ : Nat
  first : Nat
  last : Nat
  onRead : Bool
  onWrite : Bool
  access : Nat
  addr : Nat
deriving DecidableEq, Repr

/-- A DBG_AUTH TAP instruction (R500): it reads the challenge, or carries a signed opening. -/
structure TapAuth where
  opening : Option (Nat × Bytes × Bytes)
deriving DecidableEq, Repr

/-! Chapter 02: tree lanes. -/

/-- A module poll (R61, R62): the tree, what was read, and how many recoveries of the bus failed in a row. -/
structure ModulePoll where
  tree : Nat
  data : Option (Bytes × Bytes × Bytes × Nat × Nat × Nat)
  failedRecoveries : Nat
  held : Bool := false
deriving DecidableEq, Repr

/-! Chapters 04 and 05: upstream reception, discovery, life cycle. -/

/-- Line bits received around a granted place (R107): the tree, the terminal and start bit of the place, and the bits from position `first` of the tick on. The lane
is silent where no bit is given. -/
structure BargeRx where
  tree : Nat
  tid : Nat
  start : Nat
  first : Nat
  bits : List Bool
deriving DecidableEq, Repr

/-- Line bits received in a quiet window (R113), from position `first` on, counted from boundary Q. The lane is silent around them. -/
structure HailRx where
  tree : Nat
  first : Nat
  bits : List Bool
deriving DecidableEq, Repr

structure QwSetReq where
  tree : Nat
  reach : Nat
  mode : Nat
  period : Nat
  phase : Nat
deriving DecidableEq, Repr

structure AdmitReq where
  tree : Nat
  fec : Bool
  dynamic : Bool
  id : Nat
  lostTime : Nat
  serial : Nat
deriving DecidableEq, Repr

/-- How a terminal is named (R142). -/
structure TermName where
  tree : Nat
  id : Nat
  bySerial : Bool
  serial : Nat
deriving DecidableEq, Repr

structure RemoveReq where
  name : TermName
  holdoff : Nat
deriving DecidableEq, Repr

structure DozeReq where
  name : TermName
  enable : Bool
  period : Nat
  idle : Nat
deriving DecidableEq, Repr

/-! Chapter 06: grants. -/

structure WeirReq where
  tree : Nat
  id : Nat
  start : Option Nat
  ncw : Nat
deriving DecidableEq, Repr

structure CadenceReq where
  tree : Nat
  id : Nat
  slot : Nat
  hint : Option Nat
  start : Option Nat
  ncw : Nat
  n : Nat
  phase : Nat
deriving DecidableEq, Repr

structure QueueGrantReq where
  tree : Nat
  cls : Nat
  flow : Nat
  weight : Nat
  ar : Nat
  pr : Nat
deriving DecidableEq, Repr

/-! Chapters 07 and 08: pool, queues, scheduling. -/

structure FlowReq where
  flow : Nat
  dir : Nat
  tree : Nat
  id : Nat
  egress : Nat
  profile : List Nat
deriving DecidableEq, Repr

structure FlowDelReq where
  flow : Nat
  drain : Bool
  drainTicks : Nat
deriving DecidableEq, Repr

structure ProfileReq where
  profile : Nat
  sample : Bool
  maxBytes : Nat
deriving DecidableEq, Repr

structure BindReq where
  profile : Nat
  first : Nat
  count : Nat
deriving DecidableEq, Repr

structure FeederReq where
  profile : Nat
  enable : Bool
  mode : Nat
  spillHi : Nat
  refillLo : Nat
deriving DecidableEq, Repr

structure PoolReq where
  quotas : Bool
  weirReserve : Nat
  refillReserve : Nat
  quota : List Nat
deriving DecidableEq, Repr

structure ShaperReq where
  bucket : Nat
  mode : Nat
  classes : Nat
  full : Bool
  demote : Bool
  demoteClass : Nat
  rate : Nat
  burst : Nat
deriving DecidableEq, Repr

structure QuantumReq where
  first : Nat
  count : Nat
  quantum : Nat
deriving DecidableEq, Repr

structure PointReq where
  point : Nat
  fragBytes : Nat
  overhead : Int
  starve : Nat
deriving DecidableEq, Repr

structure HistReq where
  enable : Bool
  unit_ : Nat
  first : Nat
  count : Nat
  nlog2 : Nat
deriving DecidableEq, Repr

/-- An egress point selects (R207): the point, the clock within the tick, the receive descriptors read where the point is a host
ring (address, OWN, read without error), and the Towpath link routing selects where it is a Towpath destination. -/
structure Egress where
  point : Nat
  now : Nat
  descs : List (Nat × Bool × Bool)
deriving DecidableEq, Repr

/-! Chapter 13: performance monitoring. -/

structure PmReadReq where
  scope : Nat
  tree : Nat
  id : Nat
  first : Nat
  count : Nat
deriving DecidableEq, Repr

structure PmConfigReq where
  scope : Nat
  tree : Nat
  id : Nat
  dayBins : Bool
  thresholds : Option (Nat × Nat × Nat × Nat × Nat)
deriving DecidableEq, Repr

/-! Chapter 15: security. -/

/-- SA_INSTALL (R383): `head` is request bytes 0 to 47, `iv`, `cipher` and `tag` the wrapped key. -/
structure SaInstallReq where
  kind : Nat
  unit_ : Nat
  index : Nat
  tx : Bool
  test : Bool
  sub : Nat
  sci : Nat
  ssci : Nat
  an : Nat
  confOffset : Nat
  replay : Nat
  salt : Nat
  nextPn : Nat
  iv : Nat
  cipher : Bytes
  tag : BitVec 128
deriving DecidableEq, Repr

/-- An authorisation block (R382). -/
structure AuthBlock where
  pubkey : Bytes
  sig : Bytes
deriving DecidableEq, Repr

structure TamperSetReq where
  source : Nat
  action : Nat
  failLimit : Nat
  auth : Option AuthBlock
deriving DecidableEq, Repr

/-- LIFECYCLE_ADVANCE (R387): the request bytes before the block are rebuilt from these fields. -/
structure LifecycleReq where
  clear : Bool
  authHash : BitVec 384
  ownerKey : Bytes
  auth : AuthBlock
deriving DecidableEq, Repr

structure DebugOpenReq where
  window : Nat
  auth : AuthBlock
deriving DecidableEq, Repr


/-! Chapter 12: protection and twinning. -/

/-- PROT_GROUP_CREATE (R313). -/
structure GroupReq where
  pgid : Nat
  primary : Bool
  tree : Nat
  peerDev : Nat
  peerTree : Nat
  pulse : Option Nat
  cal : Int
  armed : Bool
deriving DecidableEq, Repr

/-- LEASE_DRILL (R315). `offsets` are the offsets o_st (R302) that a standby on another device has reported, by id. -/
structure DrillReq where
  pgid : Nat
  dwell : Nat
  offsets : List (Nat × Int)
deriving DecidableEq, Repr

/-- DRILL_DWELL_EXPIRY (R305): the port's tree, and where the other port lies on another device what that device reports: the ids it heard, the
largest offset, and its offsets o_st. -/
structure DwellEnd where
  tree : Nat
  heard : List Nat
  maxOffset : Nat
  offsets : List (Nat × Int)
deriving DecidableEq, Repr

/-- TWIN_FLOW_SET (R316). -/
structure TwinReq where
  pairUp : Bool
  seq : Bool
  backup : Bool
  devA : Nat
  devB : Nat
  flowA : Nat
  flowB : Nat
  seqDev : Nat
  backupDev : Nat
deriving DecidableEq, Repr

/-- A pulse on LEASE_IN (R291): its rising edge against the receiver's own boundary with C mod 8 = 0, and its width, in clocks of
0.8 ns. -/
structure PulseRx where
  pair : Nat
  edge : Int
  width : Nat
deriving DecidableEq, Repr

/-- One mirrored terminal (R288, R375); the standing set as WEIR (NCW, start) and CADENCE (slot, N, PHASE, NCW, start, hint), the keys as TK,
the two downstream and two upstream slots (key, SALT, KOFF), the downstream phase, the first keying and the X of a rekey in
progress. -/
structure MirrorTerm where
  serial : Nat
  id : Option Nat
  state : Nat
  range : Nat
  fec : Bool
  weir : Option (Nat × Nat)
  cads : List (Nat × Nat × Nat × Nat × Nat × Option Nat)
  tk : Option (BitVec 256)
  slots : List (Option (BitVec 256 × BitVec 32 × Nat))
  phase : Bool
  firstX : Option Nat
  rekeyX : Option Nat
  version : Option Nat := none
deriving DecidableEq, Repr

/-- A mirror record for a standby port (R288): the terminals, a manifest as (target, grants of (TID, start, NCW, KIND)), the
quiet-window schedule, the header KP, a planned move as (MOVE_AT, new epoch, CAL), and its DWELL where it belongs to a drill. -/
structure MirrorRec where
  tree : Nat
  terms : List MirrorTerm
  manifest : Option (Nat × List (Nat × Nat × Nat × Nat))
  reach : Nat
  mode : Nat
  period : Nat
  phase : Nat
  kp : Bool
  move : Option (Nat × Nat × Bool)
  dwell : Option Nat
deriving DecidableEq, Repr

/-! Chapter 14: time. -/

/-- TIME_CONFIG CLOCK (R350). -/
structure ClockReq where
  source : Nat
  profile : Nat
  aligned : Bool
  ppsOut : Bool
  holdLimit : Nat
  ppsWidth : Nat
  phaseAlarm : Nat
  phi0 : Nat
  stepThreshold : Nat
deriving DecidableEq, Repr

/-- TIME_CONFIG PORT (R350). -/
structure TimePortReq where
  port : Nat
  enable : Bool
  oneStep : Bool
  rxLat : Int
  txLat : Int
deriving DecidableEq, Repr

/-- TIME_CONFIG TREE (R350). -/
structure TimeTreeReq where
  tree : Nat
  asym : Int
  fixed : Int
deriving DecidableEq, Repr

/-- TEV_SCHEDULE MODE (R352). -/
structure TevModeReq where
  pin : Nat
  mode : Nat
  edges : Nat
deriving DecidableEq, Repr

/-- TEV_SCHEDULE ADD (R352). -/
structure TevAddReq where
  pin : Nat
  sec : Nat
  ns : Nat
  width : Nat
  period : Nat
  count : Nat
deriving DecidableEq, Repr

/-- NET_TRIGGER SET (R353). -/
structure TrigReq where
  tree : Nat
  trigId : Nat
  output : Nat
  sec : Nat
  ns : Nat
  period : Nat
  repeats : Nat
  mask : Nat
deriving DecidableEq, Repr

/-- What the servo does (R333): a new INCREMENT, or the measured offset that makes it step, and the sample's offset in ns. -/
structure ServoOut where
  inc : Option Nat
  offset : Int
  now : Nat
deriving DecidableEq, Repr

/-! Chapter 16: Towpath. -/

/-- The 128 bits of a TRAIN unit received on one lane of a link (R12, R392), in line order; `locked` says that both lanes are block-locked, and
`skew` is the skew between them in blocks. -/
structure TrainRx where
  link : Nat
  lane : Nat
  bits : List Bool
  locked : Bool
  skew : Nat
  now : Nat
deriving DecidableEq, Repr

/-- A unit that arrives on a link with fitting CRCs (R394): header fields, payload, and the clock of its first header bit in the
tick. -/
structure TowRx where
  link : Nat
  dst : Nat
  src : Nat
  hops : Nat
  cls : Option (Nat × Nat)
  lseq : Nat
  payload : Bytes
  now : Nat
deriving DecidableEq, Repr

/-- TOWPATH_CONFIG LINK (R407). -/
structure TowLinkReq where
  link : Nat
  enable : Bool
  retrain : Bool
  cost : Nat
deriving DecidableEq, Repr

/-- TOWPATH_CONFIG FABRIC (R407). -/
structure TowFabricReq where
  align : Bool
  rejoin : Bool
  wait : Nat
deriving DecidableEq, Repr

/-! Chapter 09: classification. -/

/-- A parse node (R229). -/
structure ParseNode where
  hdrType : Nat
  selOff : Nat
  selMask : Nat
  advFixed : Nat
  advFoff : Nat
  advFmask : Nat
  advFscale : Nat
  transFirst : Nat
  transCount : Nat
  defaultNext : Nat
  extOff : Nat
  extLen : Nat
  extKey : Nat
  vbit : Nat
deriving DecidableEq, Repr

/-- PARSE_GRAPH_LOAD (R244): KIND 0 with nodes, or KIND 1 with transitions (VALUE, NEXT). -/
structure ParseReq where
  slot : Nat
  kind : Nat
  first : Nat
  nodes : List ParseNode
  trans : List (Nat × Nat)
deriving DecidableEq, Repr

/-- RULESET_STAGE BEGIN (R245); `miss` holds (ACTION, CLASS, FLOW) for INPUT 0 to 4. -/
structure StageBegin where
  start : List Nat
  deepAct : Nat
  lenAct : Nat
  mgmtRing : Nat
  miss : List (Nat × Nat × Nat)
deriving DecidableEq, Repr

/-- An action entry (R236). -/
structure Action where
  op : Nat
  a8 : Nat
  a16 : Nat
  a32 : Nat
deriving DecidableEq, Repr

/-- A rule (R245). -/
structure Rule where
  id : Nat
  priority : Nat
  value : Bytes
  mask : Bytes
  acts : List Action
deriving DecidableEq, Repr

/-! Chapter 10: forwarding. -/

/-- FDB_CONFIG GLOBAL (R265). -/
structure FdbGlobalReq where
  learn : Bool
  oldest : Bool
  salt : Nat
  agePeriod : Nat
deriving DecidableEq, Repr

/-- FDB_CONFIG DOMAIN. -/
structure FdbDomainReq where
  enable : Bool
  learn : Bool
  fid : Nat
  flow : Nat
  missAct : Nat
  mgmtRing : Nat
deriving DecidableEq, Repr

/-- FDB_CONFIG MEMBER. -/
structure FdbMemberReq where
  add : Bool
  flood : Bool
  fid : Nat
  returnFlow : Nat
  source : Nat
deriving DecidableEq, Repr

/-- FDB_CONFIG LIMIT; no limit is none. -/
structure FdbLimitReq where
  excessFlood : Bool
  limit : Option Nat
  scope : Nat
deriving DecidableEq, Repr

/-- FDB_ENTRY ADD (R266). -/
structure FdbAddReq where
  static : Bool
  fid : Nat
  mac : Nat
  source : Nat
  dest : Nat
deriving DecidableEq, Repr

/-- FDB_ENTRY FLUSH. -/
structure FdbFlushReq where
  fid : Option Nat
  scope : Option Nat
deriving DecidableEq, Repr

/-- CAM_LAYOUT (R267). -/
structure CamLayoutReq where
  table : Nat
  enable : Bool
  firstBank : Nat
  banks : Nat
  width : Nat
  inputMask : Nat
  segOff : List Nat
  mgmtRing : Nat
deriving DecidableEq, Repr

/-- CAM_ENTRY WRITE (R268). -/
structure CamWriteReq where
  table : Nat
  index : Nat
  priority : Nat
  action : Nat
  cls : Nat
  flow : Nat
  key : Bytes
deriving DecidableEq, Repr

/-! Chapter 11: uplinks. -/

/-- An entry of a gate control list (R278): operation, gate states, interval in ns. -/
structure GateEntry where
  op : Nat
  states : Nat
  interval : Nat
deriving DecidableEq, Repr

/-- GATE_LIST_SET LIST (R284). -/
structure GateListReq where
  port : Nat
  enable : Bool
  baseSec : Nat
  baseNs : Nat
  cycle : Nat
  maxSdu : List Nat
  entries : List GateEntry
deriving DecidableEq, Repr

/-- GATE_LIST_SET PORT (R284). -/
structure UpPortReq where
  port : Nat
  promisc : Bool
  allMulti : Bool
  broadcast : Bool
  lpi : Bool
  preempt : Bool
  verify : Bool
  steering : Bool
  express : Nat
  addFrag : Nat
  verifyMs : Nat
  maxFrame : Nat
  twUs : Nat
  addrs : List Nat
deriving DecidableEq, Repr

/-- GATE_LIST_SET STEER (R284). -/
structure SteerReq where
  rule : Nat
  valid : Bool
  port : Nat
  vid : Option Nat
  pcp : Option Nat
  etype : Option Nat
  cls : Nat
  flow : Nat
deriving DecidableEq, Repr

/-- A frame received on an uplink sub-port (point 0x40 to 0x5F) or the service port (0xA4): its bytes without FCS, whether the FCS fits,
the FEC codewords corrected and uncorrectable and symbols corrected since the frame before, and the clock in the tick. -/
structure UplinkRx where
  point : Nat
  bytes : Bytes
  fcsOk : Bool
  corrCw : Nat
  uncorrCw : Nat
  symbols : Nat
  lane : Nat
  now : Nat
deriving DecidableEq, Repr

/-! Chapter 17: the recorder. -/

/-- RECORDER_CONFIG GLOBAL (R427). -/
structure RecGlobalReq where
  run : Bool
  tevMask : Nat
  ring : Nat
  preMs : Nat
  postMs : Nat
  maxMs : Nat
deriving DecidableEq, Repr

/-- RECORDER_CONFIG STREAM. -/
structure RecStreamReq where
  stream : Nat
  enable : Bool
  goose : Bool
  bounded : Bool
  trig : Bool
  k : Nat
  appid : Nat
  source : Nat
  nch : Nat
  smpWrap : Nat
deriving DecidableEq, Repr

/-- RECORDER_CONFIG RULE. -/
structure RecRuleReq where
  rule : Nat
  enable : Bool
  cmp : Nat
  stream : Nat
  channel : Nat
  hold : Nat
  level : Int
deriving DecidableEq, Repr

/-- RECORDER_CONFIG STORE; `absent` names the namespaces that the controller does not have, `slots` the pile slots the store has. -/
structure RecStoreReq where
  nsids : List Nat
  format : Bool
  absent : Bool
  slots : Nat
  lba : List Nat := []
  metadata : Bool := false
deriving DecidableEq, Repr

/-- The completion of an NVMe command (R424, R425, R430): `kind` 0 a Write or Flush of the capture being stored, `cmd` being which of its writes in flight it is,
the oldest 0, where piles are written; 1 a Read or Dataset Management command, `cmd` being which of those in flight; 2 an admin command. `ok`, else the opcode and
NVMe status. -/
structure NvmeDone where
  cmd : Nat
  ok : Bool
  opcode : Nat
  status : Nat
  kind : Nat := 0
deriving DecidableEq, Repr

/-! Chapter 19: update. -/

/-- IMAGE_OPEN OPEN (R467). -/
structure ImageOpenReq where
  blocks : Nat
  digest : BitVec 384
deriving DecidableEq, Repr

/-- IMAGE_OPEN AGENT (R467). -/
structure AgentReq where
  agent : Nat
  enable : Bool
  replyFlow : Nat
  addr : Nat
deriving DecidableEq, Repr

/-- IMAGE_BLOCK (R468): INDEX, the block read from host memory, and how many times programming it fails (R458). -/
structure ImageBlockReq where
  index : Nat
  block : Bytes
  flashFails : Nat
deriving DecidableEq, Repr

/-- TERMINAL_IMAGE_PUSH START (R471), with the image read from host memory. -/
structure PushReq where
  tree : Nat
  perFrame : Nat
  rounds : Nat
  len : Nat
  mask : Nat
  digest : BitVec 384
  reportFlows : List Nat
  image : Bytes
deriving DecidableEq, Repr

/-- What Adesa gives a PTP port at the end of a message interval (R339): the messageType of the message to send, and the IEEE 1588 state of the port. -/
structure PtpEvent where
  msg : Nat
  state : Nat
deriving DecidableEq, Repr

/-- What the device reads as it takes a tick boundary (R21): the junction temperature in 1/8 °C (R496), line bits that receive lanes brought in the tick
that ends outside granted places and quiet windows (R293, R320), and, where it changes, the berth maps it assigns (tree; berths as terminal, first slot, slots;
log entry 45), the FEC settings it changes (tree, terminal id, FEC on; log entry 77) and the content of TIME_INFO (UTC offset, flags, clock class; log entry 46). -/
structure TickIn where
  tj : Int
  line : List (Nat × List Bool)
  fec : List (Nat × Nat × Bool)
  maps : List (Nat × List (Nat × Nat × Nat))
  timeInfo : Option (Int × Nat × Nat)
deriving DecidableEq, Repr

/-- The commands of the block: one constructor for each row of the table of operations and events. -/
inductive Instr where
  /-- The 25,000-period tick count expires, the cycle number advances and the ordered boundary actions run (R21). -/
  | tickBoundary (i : TickIn)
  /-- At 100 µs the collision check runs and a substitute manifest is made for each tree whose build missed its deadline (R166). -/
  | manifestDeadline (missed : List Nat)
  /-- At the end of a quiet window its hails are handled in order and RANGE_ASSIGN or HAIL_DEFER is queued (R120). -/
  | quietWindowEnd (tree : Nat)
  /-- A 4,000-tick block ends and SD and SF windows are evaluated (R318). -/
  | errorBlockEnd
  /-- An 8,000-tick PM second ends and each entity classifies it through the delay line into its bins (R325). -/
  | pmSecondEnd
  /-- A dump finishes writing its slot, writes DONE and advances DUMP_HEAD (R486). -/
  | counterDumpDone
  /-- A tick named by a lock message is reached and the head-end applies the matching action (R125). -/
  | namedTickReached (tree : Nat)
  /-- The old downstream slot is erased at X+64 and the old upstream slots at U+36 (R372). -/
  | rekeyErase (tree : Nat) (id : Nat)
  /-- The barge receiver hunts a granted place, accepts or misses the barge and processes its span (R107). -/
  | bargeReceive (r : BargeRx)
  /-- An incomplete upstream parcel whose last fragment has not arrived within 16 ticks is discarded (R102). -/
  | reasmTimeout (tree : Nat) (id : Nat)
  /-- In a quiet window a delimiter candidate is judged as an accepted hail or a collision (R113). -/
  | hailReceive (r : HailRx)
  /-- Every place of an IN_SERVICE terminal missed for the lost time makes it LOST (R126). -/
  | terminalLost (tree : Nat) (serial : Nat)
  /-- The 60 s hold of an id ends and a dynamic id returns to the free pool with its keys erased (R131). -/
  | idHoldExpiry (tree : Nat) (id : Nat)
  /-- A whole reassembled parcel goes through decryption, pairing, classification, forwarding and enqueue (R16). -/
  | upstreamParcel (lane : Nat) (now : Nat)
  /-- A tag verdict releases or zeroises a held plaintext unit (R366). -/
  | cipherTagVerify
  /-- A frame received on an uplink sub-port or the service port is filtered, decrypted, steered and enters the downstream pipeline (R17). -/
  | uplinkFrameRx (r : UplinkRx)
  /-- A packet waiting in the recirculation buffer takes its second pass when pipeline capacity is free (R240). -/
  | recirculationPass (pipeline : Nat) (now : Nat)
  /-- A packet that has waited 4 µs for its second pass is dropped (R240). -/
  | recircTimeout (pipeline : Nat) (now : Nat)
  /-- The learn engine handles a request: hit, move, insert, relocate or evict (R256). -/
  | fdbLearn
  /-- The sweeper visits an entry and clears its hit, marks it aged or removes it (R259). -/
  | fdbAgeSweep
  /-- A spill write completes and the frame's basin cells are freed (R192). -/
  | spillWriteComplete (queue : Nat) (frame : Nat)
  /-- A waiting refill claim is granted in issue order once enough basin cells are free (R181). -/
  | refillClaimGrant
  /-- A reservoir read completes and refilled frames are linked in order to the basin part (R194). -/
  | refillReadComplete (queue : Nat) (frame : Nat)
  /-- An uncorrectable HBM fault stops the Feeder and discards every refill and reservoir part (R196). -/
  | hbmUncorrectableFault
  /-- An egress point able to accept a frame selects the next frame by level, rotation and DRR (R207). -/
  | egressSelect (o : Egress)
  /-- A downstream parcel not completed within 16 ticks is aborted (R84). -/
  | fragmentAbort (tree : Nat)
  /-- At the start of a calendar slot every shaper entered there is made eligible or parked again (R215). -/
  | calendarSlot (slot : Nat)
  /-- A DRR level that sends nothing for STARVE ticks raises its event (R225). -/
  | drrStarve (point : Nat)
  /-- The time counter reaches the next gate list entry and the gate states change (R278). -/
  | gateListEntry (port : Nat) (now : Nat)
  /-- A new gate list becomes operational at its first cycle start 125 µs after acceptance (R280). -/
  | gateListOperational (port : Nat) (now : Nat)
  /-- The preemption verify procedure succeeds or fails at its verify time (R282). -/
  | preemptVerify (port : Nat) (ok : Bool)
  /-- An idle port with LPI set enters Low Power Idle (R283). -/
  | lpiEntry (port : Nat) (now : Nat)
  /-- An uplink or service-port link goes up or down (R273). -/
  | uplinkLinkChange (port : Nat) (up : Bool) (speed : Nat)
  /-- The device fetches a whole frame from a host transmit ring, or returns it in error (R450). -/
  | hostTxFetch (o : TxFetch)
  /-- A write to DOORBELL_LO submits a mailbox page, which is discarded, answered BUSY or accepted (R439). -/
  | doorbellLo (o : Doorbell)
  /-- An accepted command completes and its response, STATUS and STATE 2 are written (R439). -/
  | mailboxComplete (ctx : Nat)
  /-- A read of ID.CYCLE_LO returns the cycle number and latches CYCLE_HI (R434). -/
  | cycleLoRead
  /-- A read of SNAP_LO returns the latest snapshot's C and latches SNAP_HI (R485). -/
  | snapLoRead
  /-- A write to a ring CTRL enables or disables the ring, resets HEAD and TAIL and may take SIZE (R445). -/
  | eventRingCtrlWrite (ring : Nat) (value : Nat)
  /-- A write to a register without behaviour of its own sets the field (R433). -/
  | registerWrite (off : Nat) (value : Nat)
  /-- An event record passes staging and is written to its ring, or dropped and counted (R447). -/
  | eventRaise (now : Nat)
  /-- A ring's coalescing interval ends and its pending MSI-X message is sent (R447). -/
  | eventCoalesceExpiry (ring : Nat) (now : Nat)
  /-- Returns variant, address, lifecycle, slot, port masks and identity (R443). -/
  | sysInfo (ctx : Nat)
  /-- Starts a system reset 1 ms after the doorbell (R503). -/
  | sysResetSystem (ctx : Nat) (confirm : Nat)
  /-- Restarts the management cores (R503). -/
  | sysResetManagement (ctx : Nat) (confirm : Nat)
  /-- Loads and validates a board-profile section from host memory, optionally persisting it (R504). -/
  | boardProfileLoad (ctx : Nat) (r : BoardProfileReq)
  /-- Requests a power-state change at a boundary (R506). -/
  | powerStateSet (ctx : Nat) (state : Nat)
  /-- Sets the token budget, wait limit and priorities (R507). -/
  | sluiceBudgetSet (ctx : Nat) (r : BudgetReq)
  /-- Returns the Sluice budget, load, held tokens and counts (R508). -/
  | sluiceStatus (ctx : Nat)
  /-- Attaches a tree and requests the wake of its lanes (R509). -/
  | treeAttach (ctx : Nat) (tree : Nat) (sealIt : Bool)
  /-- Detaches or cancels the attach of a tree (R510). -/
  | treeDetach (ctx : Nat) (tree : Nat)
  /-- Sets module bus speed, transmitter disable and rate select (R511). -/
  | treeConfig (ctx : Nat) (r : TreeConfigReq)
  /-- Returns tree state, defects, counts and module data (R512). -/
  | treeStatus (ctx : Nat) (tree : Nat)
  /-- Seals a tree at the next boundary (R136). -/
  | treeSeal (ctx : Nat) (tree : Nat)
  /-- Unseals a tree and wakes idle lanes (R136). -/
  | treeUnseal (ctx : Nat) (tree : Nat)
  /-- Sets reach, mode, period and phase of quiet windows (R139). -/
  | quietWindowSet (ctx : Nat) (r : QwSetReq)
  /-- Lists a terminal serial on a tree (R141). -/
  | terminalAdmit (ctx : Nat) (r : AdmitReq)
  /-- Removes a listed terminal, queuing REMOVE and holding its id (R132). -/
  | terminalRemove (ctx : Nat) (r : RemoveReq)
  /-- Returns a terminal's state, offset, range and flags (R142). -/
  | terminalStatus (ctx : Nat) (n : TermName)
  /-- Sets a terminal's doze policy (R142). -/
  | terminalDozePolicy (ctx : Nat) (r : DozeReq)
  /-- Reads entries of the tree's discovery log (R143). -/
  | rangeReport (ctx : Nat) (tree : Nat) (first : Nat)
  /-- Creates a flow and its eight queues and sends FLOW_BIND (R197). -/
  | flowCreate (ctx : Nat) (r : FlowReq)
  /-- Deletes a flow, draining or discarding its queues and unbinding it (R198). -/
  | flowDelete (ctx : Nat) (r : FlowDelReq)
  /-- Sets or removes a terminal's WEIR standing grant (R173). -/
  | grantSetWeir (ctx : Nat) (r : WeirReq)
  /-- Sets or removes a CADENCE standing grant in a slot (R173). -/
  | grantSetCadence (ctx : Nat) (r : CadenceReq)
  /-- Gives a queue a REPORTED setting with AR, PR and weight (R173). -/
  | grantSetReported (ctx : Nat) (r : QueueGrantReq)
  /-- Gives a queue a BEST setting with its weight (R173). -/
  | grantSetBest (ctx : Nat) (r : QueueGrantReq)
  /-- Returns a queue to BEST with weight 1 (R173). -/
  | grantSetDefault (ctx : Nat) (r : QueueGrantReq)
  /-- Sets the tree's POLL value (R173). -/
  | grantSetTreeParams (ctx : Nat) (tree : Nat) (poll : Nat)
  /-- Writes a queue profile's MAX_BYTES and SAMPLE flag (R199). -/
  | queueConfigProfileSet (ctx : Nat) (r : ProfileReq)
  /-- Binds a range of queues to a profile in the background (R199). -/
  | queueConfigBind (ctx : Nat) (r : BindReq)
  /-- Changes a token bucket's mode, classes, rate and burst at the boundary (R223). -/
  | shaperSet (ctx : Nat) (r : ShaperReq)
  /-- Sets the DRR quantum of a queue range (R224). -/
  | schedConfigQuantum (ctx : Nat) (r : QuantumReq)
  /-- Sets FRAG_BYTES, OVERHEAD and STARVE of an egress point (R224). -/
  | schedConfigPoint (ctx : Nat) (r : PointReq)
  /-- Binds or unbinds a queue range to a histogram unit (R224). -/
  | schedConfigHist (ctx : Nat) (r : HistReq)
  /-- Sets Feeder fields of a profile or the global Feeder enable (R200). -/
  | feederPolicy (ctx : Nat) (r : FeederReq)
  /-- Sets quotas and reserves and returns the pool state (R201). -/
  | poolConfigWrite (ctx : Nat) (r : PoolReq)
  /-- Returns the pool state without writing (R201). -/
  | poolConfigRead (ctx : Nat)
  /-- Installs a gate control list for a port (R284). -/
  | gateListSetList (ctx : Nat) (r : GateListReq)
  /-- Sets a port's filter, LPI, preemption and frame settings (R284). -/
  | gateListSetPort (ctx : Nat) (r : UpPortReq)
  /-- Writes a steering rule (R284). -/
  | gateListSetSteer (ctx : Nat) (r : SteerReq)
  /-- Writes parse nodes or transitions into a STAGING slot (R244). -/
  | parseGraphLoad (ctx : Nat) (r : ParseReq)
  /-- Takes a FREE slot into STAGING with start nodes, exception actions and MISS entries (R245). -/
  | rulesetStageBegin (ctx : Nat) (r : StageBegin)
  /-- Adds rules to a STAGING slot (R245). -/
  | rulesetStageAdd (ctx : Nat) (slot : Nat) (rules : List Rule)
  /-- Requests the compile of a STAGING slot as a heavy operation (R245). -/
  | rulesetStageBuild (ctx : Nat) (slot : Nat)
  /-- The compile ends and the slot becomes BUILT or stays STAGING (R235). -/
  | rulesetCompileDone (slot : Nat) (words : Nat)
  /-- Frees a STAGING or BUILT slot (R245). -/
  | rulesetStageFree (ctx : Nat) (slot : Nat)
  /-- Commits a BUILT or RETIRING slot to become CURRENT at the next boundary (R246). -/
  | rulesetCommit (ctx : Nat) (slot : Nat) (keep : Bool)
  /-- Returns the state of the four version slots (R247). -/
  | rulesetStatus (ctx : Nat)
  /-- Sets learning, eviction, SALT and age period (R265). -/
  | fdbConfigGlobal (ctx : Nat) (r : FdbGlobalReq)
  /-- Creates, changes or deletes a forwarding domain (R265). -/
  | fdbConfigDomain (ctx : Nat) (r : FdbDomainReq)
  /-- Adds or removes a domain member (R265). -/
  | fdbConfigMember (ctx : Nat) (r : FdbMemberReq)
  /-- Sets the learning limit and excess action of a scope (R265). -/
  | fdbConfigLimit (ctx : Nat) (r : FdbLimitReq)
  /-- Adds a static or learned entry through the engine (R266). -/
  | fdbEntryAdd (ctx : Nat) (r : FdbAddReq)
  /-- Deletes an entry by key (R266). -/
  | fdbEntryDelete (ctx : Nat) (fid : Nat) (mac : Nat)
  /-- Reads an entry by key (R266). -/
  | fdbEntryReadKey (ctx : Nat) (fid : Nat) (mac : Nat)
  /-- Clears matching learned entries in the background (R266). -/
  | fdbEntryFlush (ctx : Nat) (r : FdbFlushReq)
  /-- Reads entries by index (R266). -/
  | fdbEntryReadIndex (ctx : Nat) (index : Nat) (count : Nat)
  /-- Sets or frees a CAM table's banks, width and inputs (R267). -/
  | camLayout (ctx : Nat) (r : CamLayoutReq)
  /-- Writes a CAM entry's rows, result and verify copy in one clock (R268). -/
  | camEntryWrite (ctx : Nat) (r : CamWriteReq)
  /-- Invalidates a CAM entry (R268). -/
  | camEntryInvalidate (ctx : Nat) (table : Nat) (index : Nat)
  /-- Reads a CAM entry from its verify copy (R268). -/
  | camEntryRead (ctx : Nat) (table : Nat) (index : Nat)
  /-- Unwraps and installs a TK, uplink SAK or fabric key (R383). -/
  | saInstall (ctx : Nat) (r : SaInstallReq)
  /-- Starts a rekey of one terminal (R372). -/
  | saRekeyTerminal (ctx : Nat) (tree : Nat) (id : Nat)
  /-- Starts a mass rekey of a tree (R374). -/
  | saRekeyTree (ctx : Nat) (tree : Nat)
  /-- Starts a mass rekey of the device (R374). -/
  | saRekeyDevice (ctx : Nat)
  /-- Makes an uplink SA the transmit SA from the next boundary (R384). -/
  | saRekeyTxSwitch (ctx : Nat) (uplink : Nat) (sa : Nat)
  /-- Deletes an uplink SA (R384). -/
  | saRekeySaDelete (ctx : Nat) (uplink : Nat) (sa : Nat)
  /-- Returns the state of a tree or uplink SA (R385). -/
  | saStatus (ctx : Nat) (kind : Nat) (unit_ : Nat) (index : Nat)
  /-- Sets a tamper source's action and FAIL_LIMIT (R386). -/
  | tamperPolicySet (ctx : Nat) (r : TamperSetReq)
  /-- Returns the tamper actions and FAIL_LIMIT (R386). -/
  | tamperPolicyRead (ctx : Nat)
  /-- Returns the VBAT tamper log (R386). -/
  | tamperPolicyReadLog (ctx : Nat)
  /-- Fuses the owner authority hash and stores the owner key (R387). -/
  | lifecycleProvision (ctx : Nat) (r : LifecycleReq)
  /-- Moves PROVISIONED to SECURED (R387). -/
  | lifecycleSecure (ctx : Nat) (r : LifecycleReq)
  /-- Returns ALARMED to SECURED (R387). -/
  | lifecycleClearAlarm (ctx : Nat) (r : LifecycleReq)
  /-- Zeroises everything and burns the decommission fuse (R387). -/
  | lifecycleDecommission (ctx : Nat) (r : LifecycleReq)
  /-- Replaces the owner key (R387). -/
  | lifecycleRekeyOwner (ctx : Nat) (r : LifecycleReq)
  /-- Returns a fresh challenge and the unit ID (R388). -/
  | debugChallengeIssue (ctx : Nat)
  /-- Opens CHALLENGE-OPEN debug on a valid signature, or counts a failure (R388). -/
  | debugOpenSigned (ctx : Nat) (r : DebugOpenReq)
  /-- Closes debug (R388). -/
  | debugClose (ctx : Nat)
  /-- Opens debug where the lifecycle allows OPEN (R388). -/
  | debugOpen (ctx : Nat)
  /-- CHALLENGE-OPEN debug lapses at the end of its WINDOW (R380). -/
  | debugWindowExpiry
  /-- Sets source, profile, phase alignment, PPS and servo settings (R350). -/
  | timeConfigClock (ctx : Nat) (r : ClockReq)
  /-- Sets PTP enable, step mode and latencies of a port (R350). -/
  | timeConfigPort (ctx : Nat) (r : TimePortReq)
  /-- Sets the tree's ASYM and FIXED time-offset terms (R350). -/
  | timeConfigTree (ctx : Nat) (r : TimeTreeReq)
  /-- Returns time state, tick time and phase (R350). -/
  | timeConfigStatus (ctx : Nat)
  /-- Writes INCREMENT under SOURCE HOST (R351). -/
  | timeIncrementSetIncrement (ctx : Nat) (inc : Nat) (now : Nat)
  /-- Steps the time counter to an absolute value at the next boundary (R351). -/
  | timeIncrementSetStepAbs (ctx : Nat) (sec : Nat) (ns : Nat)
  /-- Steps the time counter by a signed offset at the next boundary (R351). -/
  | timeIncrementSetStepRel (ctx : Nat) (offset : Int)
  /-- Sets a TEV pin OFF, OUTPUT or CAPTURE and cancels its entries (R352). -/
  | tevScheduleMode (ctx : Nat) (r : TevModeReq)
  /-- Adds a pulse schedule entry to an output pin (R352). -/
  | tevScheduleAdd (ctx : Nat) (r : TevAddReq) (now : Nat)
  /-- Cancels every entry of a pin (R352). -/
  | tevScheduleCancelAll (ctx : Nat) (pin : Nat)
  /-- Sends a network trigger to named terminals twice (R353). -/
  | netTriggerSet (ctx : Nat) (r : TrigReq)
  /-- Sends a trigger cancel to named terminals (R353). -/
  | netTriggerCancel (ctx : Nat) (r : TrigReq)
  /-- Creates a protection group on a local port (R313). -/
  | protGroupCreate (ctx : Nat) (r : GroupReq)
  /-- Deletes a protection group (R313). -/
  | protGroupDelete (ctx : Nat) (pgid : Nat)
  /-- Returns a group's lease state (R314). -/
  | leaseStatus (ctx : Nat) (pgid : Nat)
  /-- Makes a planned move to the standby and back (R305). -/
  | leaseDrillDrill (ctx : Nat) (r : DrillReq)
  /-- Runs a calibrating drill that measures C (R305). -/
  | leaseDrillCalibrate (ctx : Nat) (r : DrillReq)
  /-- Makes a one-way planned move (R304). -/
  | leaseDrillMove (ctx : Nat) (r : DrillReq)
  /-- The drill dwell or check period ends and the lease moves back (R305). -/
  | drillDwellExpiry (r : DwellEnd)
  /-- After 64 ticks the new holder adds the mean offset to C (R303). -/
  | calMeanUpdate (tree : Nat)
  /-- Sets a twin pair (R316). -/
  | twinFlowSet (ctx : Nat) (r : TwinReq)
  /-- Clears a twin pair (R316). -/
  | twinFlowClear (ctx : Nat) (devA : Nat) (flowA : Nat)
  /-- Enables, disables, retrains or costs a Towpath link (R407). -/
  | towpathConfigLink (ctx : Nat) (r : TowLinkReq)
  /-- Sets alignment and requests REJOIN (R407). -/
  | towpathConfigFabric (ctx : Nat) (r : TowFabricReq)
  /-- Returns the state of the eight links (R408). -/
  | towpathTopologyLinks (ctx : Nat)
  /-- Returns the route table (R408). -/
  | towpathTopologyRoutes (ctx : Nat)
  /-- Returns device, reachability and conflict masks (R408). -/
  | towpathTopologyDevices (ctx : Nat)
  /-- Sets run, ring size and capture timing (R427). -/
  | recorderConfigGlobal (ctx : Nat) (r : RecGlobalReq)
  /-- Sets a watched stream (R427). -/
  | recorderConfigStream (ctx : Nat) (r : RecStreamReq)
  /-- Sets an SV trigger rule (R427). -/
  | recorderConfigRule (ctx : Nat) (r : RecRuleReq)
  /-- Sets the NVMe store namespaces and formats it (R427). -/
  | recorderConfigStore (ctx : Nat) (r : RecStoreReq)
  /-- Fires a host trigger (R428). -/
  | recorderTrigger (ctx : Nat) (tag : Nat)
  /-- Lists capture directory entries (R429). -/
  | recorderIndexList (ctx : Nat) (id : Nat) (count : Nat)
  /-- Marks a capture KEEP (R429). -/
  | recorderIndexKeep (ctx : Nat) (id : Nat)
  /-- Clears KEEP of a capture (R429). -/
  | recorderIndexUnkeep (ctx : Nat) (id : Nat)
  /-- Deletes a capture (R429). -/
  | recorderIndexDelete (ctx : Nat) (id : Nat)
  /-- Writes a stored pile to host memory (R429). -/
  | recorderIndexReadPile (ctx : Nat) (id : Nat) (pile : Nat) (addr : Nat)
  /-- A Fold block closes 2 ms after its first ASDU (R414). -/
  | foldBlockTimeout (stream : Nat) (now : Nat)
  /-- A pile closes 16 ms after it opened and is written to the ring (R418). -/
  | pileTimeout (now : Nat)
  /-- The end E of a capture is reached and its last pile closes (R423). -/
  | captureEnd (id : Nat) (now : Nat)
  /-- An NVMe write or flush completes and the capture store advances, retries or fails (R424). -/
  | nvmeCompletion (r : NvmeDone)
  /-- Opens or joins an image session (R457). -/
  | imageOpen (ctx : Nat) (r : ImageOpenReq)
  /-- Enables or disables an in-band agent (R467). -/
  | imageOpenAgent (ctx : Nat) (r : AgentReq)
  /-- Writes one image block to flash (R458). -/
  | imageBlock (ctx : Nat) (r : ImageBlockReq)
  /-- Verification of a complete image ends READY or failed (R455). -/
  | imageVerifyDone
  /-- Returns session, slot and trial state (R469). -/
  | imageStatus (ctx : Nat)
  /-- Starts a management pause to activate the verified image (R459). -/
  | imageActivate (ctx : Nat)
  /-- The new image reads the settings and enters TRIAL, or hands back to the old slot (R461). -/
  | pauseEnd (readable : Bool) (now : Nat)
  /-- Commits the trial image as boot slot (R462). -/
  | imageCommit (ctx : Nat)
  /-- Ends the image session (R470). -/
  | imageAbortSession (ctx : Nat)
  /-- Ends the trial by rollback (R462). -/
  | imageAbortRollback (ctx : Nat)
  /-- The 10-minute trial deadline passes and the device rolls back (R462). -/
  | trialExpiry
  /-- The received-block bitmap is persisted at an idle second (R458). -/
  | bitmapPersist
  /-- An in-band update frame reaches the management cores and is served or rejected (R456). -/
  | inbandFrameRx (flashFails : Nat)
  /-- Starts a terminal software push on a tree (R464). -/
  | terminalImagePushStart (ctx : Nat) (r : PushReq)
  /-- Returns push state (R471). -/
  | terminalImagePushStatus (ctx : Nat) (tree : Nat)
  /-- Cancels the push (R471). -/
  | terminalImagePushCancel (ctx : Nat) (tree : Nat)
  /-- Sends TSW_ACTIVATE to complete terminals (R471). -/
  | terminalImagePushActivate (ctx : Nat) (tree : Nat) (at_ : Nat)
  /-- A terminal's push report parcel is taken by Adesa (R465). -/
  | tswReportRx
  /-- The 64-tick answer time of a round ends and the next round or end follows (R464). -/
  | tswQueryTimeout (tree : Nat)
  /-- Sets and enables the counter dump ring and selection (R488). -/
  | counterDumpSet (ctx : Nat) (r : DumpReq)
  /-- Reprograms a programmable counter (R480). -/
  | counterSelectProgram (ctx : Nat) (r : ProgramReq)
  /-- Clears instances of a group (R489). -/
  | counterSelectClear (ctx : Nat) (r : ClearGroupReq)
  /-- Binds or unbinds a queue counter block (R478). -/
  | counterSelectQueueBlock (ctx : Nat) (r : QueueBlockReq)
  /-- Binds a BAR2 window to a group (R481). -/
  | counterSelectWindow (ctx : Nat) (r : WindowReq)
  /-- Returns a group's statistic names and width (R489). -/
  | counterSelectCatalog (ctx : Nat) (group : Nat)
  /-- Routes a range of event sources to a ring or masks them (R448). -/
  | eventRoute (ctx : Nat) (r : EventRouteReq)
  /-- Returns PM bins of a tree or terminal (R329). -/
  | pmReadRead (ctx : Nat) (r : PmReadReq)
  /-- Sets bin length and thresholds (R328). -/
  | pmReadConfig (ctx : Nat) (r : PmConfigReq)
  /-- Returns debug, lifecycle and core halt state (R513). -/
  | debugStatus (ctx : Nat)
  /-- POR_N rises and the device latches straps, reads fuses and boots (R498). -/
  | powerOnReset (p : PorPins)
  /-- SRST_N held low resets the data plane, counters and cores (R499). -/
  | systemReset (cause : Nat)
  /-- Main power is lost and the device enters OFF-VBAT (R491). -/
  | mainRailsLost
  /-- The management watchdog is missed and the running slot restarts, escalating on the third within 60 s (R499). -/
  | managementRestart (core : Nat)
  /-- A hot reset, link down or FLR resets the host interface only (R432). -/
  | hostInterfaceReset (cause : Nat)
  /-- A reference becomes bad and selection switches or enters holdover (R37). -/
  | refclkFail (reference : Nat)
  /-- A reference passes its wait-to-restore and becomes good (R36). -/
  | refclkRestore (a : Bool) (b : Bool)
  /-- The time source is lost and the counter enters HOLDOVER (R332). -/
  | timeSourceLost
  /-- The source is regained with a small offset and the counter returns to LOCKED (R332). -/
  | timeSourceRegained
  /-- The holdover limit is reached and the counter enters FREE_RUN (R332). -/
  | holdoverLimit
  /-- A rising edge on PPS_IN marks a whole second for the servo (R335). -/
  | ppsInEdge (now : Nat)
  /-- The Adesa servo writes INCREMENT or steps the counter (R333). -/
  | servoUpdate (o : ServoOut)
  /-- PPS_OUT rises when TNS passes 0 (R338). -/
  | ppsOutPulse (now : Nat)
  /-- A TEV output entry reaches a firing instant and pulses the pin (R346). -/
  | tevFire (pin : Nat) (now : Nat)
  /-- A selected edge on a CAPTURE pin is timestamped into the FIFO (R347). -/
  | tevCapture (pin : Nat) (rising : Bool) (now : Nat)
  /-- Before the first attach the device lengthens one tick and loads the cycle number (R405): that of its tick reference, or, where it has none and
  `given` says so, `cycle` (log entry 117). -/
  | tickAlign (given : Bool) (cycle : Nat)
  /-- A tamper source fires and its LOG, ALARM or ERASE action is taken (R377). -/
  | tamperDetect (sources : List Nat) (seconds : Nat)
  /-- A pulse on LEASE_IN is judged good or bad (R291). -/
  | keeperPulseRx (r : PulseRx)
  /-- 320 ticks after the last renewal the lease expires at the standby (R292). -/
  | leaseExpiry (tree : Nat)
  /-- An INIT port hears no holder for 640 or 960 ticks (R294). -/
  | leaseInitTimeout (tree : Nat)
  /-- No heartbeat for 160 ticks or no good pulse for 16 ticks marks a renewal path lost (R317). -/
  | leasePathTimeout (tree : Nat)
  /-- A lease heartbeat unit arrives and renews, releases or yields (R292). -/
  | leaseHeartbeatRx (r : TowRx)
  /-- A TRAIN unit arrives and advances link training (R393). -/
  | trainUnitRx (r : TrainRx)
  /-- 100 ms in TRAINING without UP sends the link to BACKOFF or DORMANT (R393). -/
  | trainingTimeout (link : Nat) (now : Nat)
  /-- The back-off wait ends and the link returns to TRAINING (R393). -/
  | backoffExpiry (link : Nat) (now : Nat)
  /-- Energy for 1 ms wakes a dormant link (R393). -/
  | dormantWake (link : Nat)
  /-- Four missed HELLOs return an up link to TRAINING (R393). -/
  | helloTimeout (link : Nat) (now : Nat)
  /-- Block lock lost for 1 µs drops the link and moves traffic to the other next hop (R402). -/
  | blockLockLoss (link : Nat) (now : Nat)
  /-- Each up link sends a HELLO every 1 ms (R398). -/
  | helloSend
  /-- A HELLO arrives and gives link delay and tick offset (R404). -/
  | helloRx (r : TowRx)
  /-- The device floods its LSA every 1 s and at each link change (R400). -/
  | lsaFlood (now : Nat)
  /-- An LSA arrives, is re-flooded when newer and may reveal an address conflict (R400). -/
  | lsaRx (r : TowRx)
  /-- An LSA not refreshed for 3.5 s is discarded and its device is unreachable (R400). -/
  | lsaExpiry (now : Nat)
  /-- Adesa recomputes shortest paths and writes the next-hop table (R401). -/
  | routeRecompute
  /-- A credit limit advertisement arrives for a link class (R397). -/
  | creditAdvertiseRx (link : Nat) (cls : Nat) (limit : Nat)
  /-- A DATA unit arrives and is forwarded or enters the local pipeline (R406). -/
  | towpathDataRx (r : TowRx) (lane : Nat)
  /-- A TWIN unit arrives for pairing or tree egress (R406). -/
  | twinUnitRx (r : TowRx)
  /-- A quiet-window claim of a partner tree arrives (R406). -/
  | claimRx (r : TowRx)
  /-- A protection mirror record arrives at the standby (R288). -/
  | mirrorRx (r : TowRx) (m : MirrorRec)
  /-- A bulk object segment arrives and is released or voids the object (R367). -/
  | bulkSegmentRx (r : TowRx)
  /-- A segment missing 10 ms after the previous voids the object (R367). -/
  | bulkSegmentTimeout (src : Nat) (object : Nat) (now : Nat)
  /-- A VOID unit returns to the object's sender (R367). -/
  | voidRx (r : TowRx)
  /-- An Adesa-to-Adesa unit arrives (R395). -/
  | mgmtUnitRx (r : TowRx)
  /-- A wake's PLL, calibration or CDR check fails and the lanes stay idle (R59). -/
  | laneWakeFail (tree : Nat)
  /-- One second after a failed wake Adesa requests the next attempt (R59). -/
  | wakeRetry (tree : Nat)
  /-- 60 s after a wake series ends Adesa starts a new series (R59). -/
  | wakeSeriesRestart (tree : Nat)
  /-- Adesa reads module status every 100 ms and recovers a stuck bus (R61). -/
  | modulePoll (r : ModulePoll)
  /-- A request has waited 1 s for admission (R514). -/
  | sluiceWait
  /-- A request that waits WAIT_LIMIT completes NOT_ADMITTED (R494). -/
  | sluiceWaitLimit
  /-- Adesa starts a full HBM rinse every 24 hours and after a corrected error (R493). -/
  | hbmRinseStart
  /-- A full HBM rinse pass ends and the stack is reported usable or not (R200). -/
  | hbmRinseDone (clean : Bool)
  /-- Rinse rewrites a falsely hit CAM entry from its verify copy (R263). -/
  | camVerifyRewrite (table : Nat) (index : Nat) (eccBad : Bool)
  /-- A DBG_AUTH TAP instruction carries a challenge or signed opening (R500). -/
  | tapDbgAuth (r : TapAuth)
  /-- EXTEST drives boundary-scan cells in QUIET with debug open (R500). -/
  | tapExtest
  /-- SAMPLE/PRELOAD samples or preloads boundary-scan cells (R500). -/
  | tapSamplePreload (pins : List Bool) (preload : List Bool)
  /-- The debug module halts a management core (R501). -/
  | coreHalt (core : Nat)
  /-- The debug module resumes a halted core (R501). -/
  | coreResume (core : Nat)
  /-- The debug module steps a core by one instruction (R501). -/
  | coreSingleStep (core : Nat)
  /-- An instruction breakpoint or watchpoint fires and halts the core (R501). -/
  | breakpointHit (r : BreakHit)
  /-- The debug module reads or writes system memory within its permissions (R501). -/
  | systemMemoryAccess (r : MemAccess)
  /-- Boot or a management restart completes and ID.STATUS.READY and EVT_READY are set and RESET_CAUSE is raised (R498). -/
  | evtReady
  /-- Adesa restores the running slot's settings, including the recorder ring size and attached trees, and starts Towpath alignment (R498). -/
  | settingsRestore
  /-- Adesa stops, ID.STATUS.FATAL is set and mailboxes are no longer served, which in TRIAL causes a rollback (R435). -/
  | adesaFatal
  /-- The pause of a rollback or of a hand-back to the old slot ends, PAUSE clears, staged records are delivered and the activation or rollback
  completes (R462). -/
  | rollbackPauseEnd (now : Nat)
  /-- The NVMe root port link goes down or comes up and NVME_LINK is raised (R430). -/
  | nvmeLinkChange (up : Bool)
  /-- VBAT falls below 2.5 V while main power is off and the owner key is lost (R378). -/
  | vbatFall
  /-- A Towpath link can send and chooses the next unit by link class and, within a class, by R9 on SRC among local and transit units (R396). -/
  | towpathLinkEgressSlot (link : Nat) (now : Nat)
  /-- A Towpath unit with a failing HCRC or CRC-32C, or of a reserved TYPE, is dropped whole and counted (R394). -/
  | unitCrcDrop (link : Nat)
  /-- ALIGN_WAIT passes without a tick reference and TREE_ATTACH proceeds unaligned (R405). -/
  | alignWaitExpiry
  /-- A SALT rehash, or the clearing after a domain or member removal, completes and its command completes and releases its tokens (R251). -/
  | tableRebuildDone (job : Nat)
  /-- A PTP message interval on a port ends and Adesa sends Sync, Announce or Pdelay_Req, timestamped as they leave (R339). -/
  | ptpMessageInterval (port : Nat) (event : PtpEvent)
  /-- The host moves the endpoint between D0 and D3hot, which stops or resumes all device DMA (R431). -/
  | d3hotTransition (d3 : Bool)
deriving DecidableEq, Repr

end Sys2Proof
end

