-- ==== Sys2Proof/Decode.lean ====
section
/-!
DEFINITION. The command that a word spells. The table of operations and events gives none of its rows any bits, so no word spells a command.
-/
namespace Sys2Proof

/-- The command that an `nbits`-bit word spells: none, since no row of the table has bits. -/
def decodeTableWord (_nbits _w : Nat) : Option Instr := none

end Sys2Proof
end

