-- ==== Sys2Proof/Config.lean ====
section
/-!
DEFINITION. What one implementation fixes and the manual leaves open. Each `opaque` constant has no body: nothing in
Lean can evaluate it, so a statement about it holds for every value (log entries 1, 2, 3, 14, 22, 24, 26, 28, 100, 109 and 113). The figures of the
device (R1, R13, R20, R24) are named here once.
-/
namespace Sys2Proof.Config

/-- Ticks in one second (R20): 8,000. -/
def ticksPerSecond : Nat := 8000
/-- Line bits of one tick on a tree lane (R1). -/
def bitsPerTick : Nat := 1600000
/-- Clocks of 0.8 ns in one tick (R479). -/
def clocksPerTick : Nat := 156250
/-- Clocks of 0.8 ns in one microsecond. -/
def clocksPerMicrosecond : Nat := 1250
/-- Basin cells (R24). -/
def basinCells : Nat := 196608
/-- Outstanding HBM transactions (R26), of 256 bytes each. -/
def hbmSlots : Nat := 4096
/-- Outstanding NVMe commands (R26). -/
def nvmeSlots : Nat := 1024
/-- Bytes of the management-core memory (R24): 8 MiB. -/
def mgmtBytes : Nat := 8388608

/-- A free value: the `n`-th value the hardware supplies where the manual fixes none (random numbers, condition
counts, an eviction seed). The state holds the number of the next draw. Log entry 1. -/
opaque freeNat : Nat → Nat

/-- The order of the statistics within a group is fixed by the die and not printed in the manual (R477): `n`-th choice
for group `g`, out of the statistics not yet placed. Log entry 2. -/
opaque catalogPick : (g n : Nat) → Nat

/-- Whether a histogram unit samples a frame: how the LFSR gives the probability 2^−N_LOG2 is not in the manual (R220). Log entry 26. -/
opaque sampleDraw : (lfsr nlog2 : Nat) → Bool

/-- Which of `k` learned occupants an LFSR value chooses: how the LFSR makes the choice uniform is not in the manual (R258). Log entry 14. -/
opaque evictPick : (lfsr k : Nat) → Nat

/-- The tree of a flow of another device, which a pair names by device and flow only (R316, R167). Log entry 28. -/
opaque remoteTree : (dev flow : Nat) → Nat

/-- The MIRROR units that a holder sends for a tree at the end of a build, in Adesa's internal format (R288, R395). Log entry 22. -/
opaque mirrorUnits : (dev tree tick : Nat) → List Bytes

/-- The mirror snapshot of a tree that a holder sends as a bulk object in a tick; empty where it sends none (R288, R406). Log entry 22. -/
opaque mirrorSnapshot : (dev tree tick : Nat) → Bytes
/-- The transfers that Adesa begins in a tick: the device addressed and the object (R406). Log entry 113. -/
opaque adesaTransfers : (dev tick : Nat) → List (Nat × Bytes)
/-- Whether a segment of 4 KiB is the last of its object, which the consumer knows from what it carries (R367). Log entry 113. -/
opaque bulkLast : (src object segment : Nat) → Bool

/-- θ in ps along the links of the path to a device behind the first one, while its LSA of this unit ID and SEQ is held (R405). Log entry 24. -/
opaque pathTheta : (dev unitId seq : Nat) → Int

/-- What a start block of Clause 49 carries beside its type before a Towpath unit (R394). Log entry 109. -/
opaque startFill : Bytes
/-- The idle control blocks that a link sends before its unit of this LSEQ, beside their type (R390, R397). Log entry 109. -/
opaque idleBlocks : (link lseq now : Nat) → List Bytes

/-- The `n`-th PTP message of a port as it leaves, timestamps included: IEEE 1588 gives its content, the manual does not (R339, R340). Log entry 100. -/
opaque ptpFrame : (port n : Nat) → Bytes

/-- A byte of the AES-256 counter keystream of a key, a 96-bit nonce and a byte position (R355). Log entry 3. -/
opaque gcmByte : (key nonce position : Nat) → BitVec 8
/-- The GCM tag of a key, a 96-bit nonce, the additional data and the ciphertext (R355). Log entry 3. -/
opaque gcmTag : (key nonce : Nat) → (aad cipher : Bytes) → BitVec 128
/-- AES-256 key unwrapping (RFC 3394): the plain bytes, or none where the integrity check fails. Log entry 3. -/
opaque keyUnwrap : (kek : Nat) → Bytes → Option Bytes
/-- The Thoja image authority hash, fused at manufacture; its value is not in the manual (R455). Log entry 3. -/
opaque imageAuthority : BitVec 384
/-- SHA-384 of a byte string. Log entry 3. -/
opaque sha384 : Bytes → BitVec 384
/-- ECDSA P-384 verification of a signature over a byte string under a public key. Log entry 3. -/
opaque ecdsaVerify : (publicKey : Nat) → (message signature : Bytes) → Bool

end Sys2Proof.Config
end

