-- ==== Sys2Proof/Machine/Table.lean ====
section
/-!
DEFINITION. Sparse tables in one canonical form (keys strictly rising) and small list helpers. Every table of the
device that is sparse (trees, flows, queues, counters, buckets, table entries) is one of these.
-/
namespace Sys2Proof.Machine

variable {α β : Type}

/-- The entry at a key. -/
def tget : Tbl α → Nat → Option α
  | [], _ => none
  | (k, v) :: t, n => if n = k then some v else tget t n

/-- The entry at a key, or a default. -/
def tgetD (t : Tbl α) (n : Nat) (x : α) : α := (tget t n).getD x

/-- Set the entry at a key, keeping the keys strictly rising. -/
def tset : Tbl α → Nat → α → Tbl α
  | [], n, x => [(n, x)]
  | (k, v) :: t, n, x =>
    if n < k then (n, x) :: (k, v) :: t
    else if n = k then (n, x) :: t
    else (k, v) :: tset t n x

/-- Remove the entry at a key. -/
def tdel (t : Tbl α) (n : Nat) : Tbl α := t.filter (fun p => p.1 != n)

/-- Change the entry at a key where there is one. -/
def tmod (t : Tbl α) (n : Nat) (f : α → α) : Tbl α :=
  t.map (fun p => if p.1 = n then (p.1, f p.2) else p)

/-- Change the entry at a key, taking a default where there is none. -/
def tupd (t : Tbl α) (n : Nat) (x : α) (f : α → α) : Tbl α := tset t n (f (tgetD t n x))

/-- Set the entry at a key to a value, or remove it where the value is the default: the canonical form of a table whose
unlisted entries read as the default. -/
def tput [DecidableEq α] (t : Tbl α) (n : Nat) (dflt v : α) : Tbl α :=
  if v = dflt then tdel t n else tset t n v

/-- Apply a function to every entry. -/
def tmap (t : Tbl α) (f : Nat → α → β) : Tbl β := t.map (fun p => (p.1, f p.1 p.2))

/-- The keys of a table. -/
def tkeys (t : Tbl α) : List Nat := t.map (·.1)

/-- Keys strictly rising. -/
def tsorted : Tbl α → Bool
  | [] => true
  | [_] => true
  | (a, _) :: (b, y) :: t => decide (a < b) && tsorted ((b, y) :: t)

/-- Fold over a list with the state last; the name says the order: first element first. -/
def foldl' (xs : List β) (a : α) (f : α → β → α) : α := xs.foldl f a

/-- Replace the element at an index. -/
def lset : List α → Nat → α → List α
  | [], _, _ => []
  | _ :: t, 0, x => x :: t
  | h :: t, n + 1, x => h :: lset t n x

/-- The element at an index, or a default. -/
def lget : List α → Nat → α → α
  | [], _, d => d
  | h :: _, 0, _ => h
  | _ :: t, n + 1, d => lget t n d

/-- Change the element at an index. -/
def lmod (l : List α) (n : Nat) (d : α) (f : α → α) : List α := lset l n (f (lget l n d))

/-- Insert in an order, after the elements that are not greater: a stable insertion. -/
def insertBy (le : α → α → Bool) (x : α) : List α → List α
  | [] => [x]
  | y :: t => if le y x then y :: insertBy le x t else x :: y :: t

/-- A stable sort by insertion. -/
def sortBy (le : α → α → Bool) (l : List α) : List α := l.foldl (fun acc x => insertBy le x acc) []

/-- R9, the tie rule: contenders in the order they are served in tick `c`, lowest index first in an even tick and highest
index first in an odd one. -/
def tieOrder (c : Nat) (key : α → Nat) (l : List α) : List α :=
  let up := sortBy (fun a b => decide (key a ≤ key b)) l
  if c % 2 = 0 then up else up.reverse

/-- The numbers `a`, `a + 1`, … `a + n − 1`. -/
def rangeFrom (a n : Nat) : List Nat := (List.range n).map (a + ·)

/-- The least of a nonempty list, or a default. -/
def minOf (d : Nat) (l : List Nat) : Nat := l.foldl (fun a b => if a < b then a else b) d

/-- The highest of a list, or the default. -/
def maxOf (d : Nat) (l : List Nat) : Nat := l.foldl (fun a b => if a < b then b else a) d

/-- The sum of a list. -/
def sumOf (l : List Nat) : Nat := l.foldl (· + ·) 0

/-- Bit `n` of a number. -/
def bitOf (x n : Nat) : Bool := x / 2 ^ n % 2 = 1
/-- Bits `lo + w − 1` to `lo` of a number. -/
def field (x lo w : Nat) : Nat := x / 2 ^ lo % 2 ^ w
/-- A truth value as one bit. -/
def b2n (b : Bool) : Nat := if b then 1 else 0
/-- Ceiling division. -/
def ceilDiv (a b : Nat) : Nat := (a + b - 1) / b

end Sys2Proof.Machine
end

