-- ==== Sys2Proof/Machine/Bits.lean ====
section
/-!
DEFINITION. Byte order and checksums: little-endian host structures, big-endian line fields (R11), bit order of a line
byte (R12), CRCs.
-/
namespace Sys2Proof.Machine

/-- A number as `n` bytes, least significant first (host-memory structures, R11). -/
def le : (n x : Nat) → Bytes
  | 0, _ => []
  | n + 1, x => BitVec.ofNat 8 x :: le n (x / 256)

/-- A number as `n` bytes, most significant first (lines and protocol fields, R11). -/
def be (n x : Nat) : Bytes := (le n x).reverse

/-- The number that bytes spell, least significant first. -/
def ofLE : Bytes → Nat
  | [] => 0
  | b :: t => b.toNat + 256 * ofLE t

/-- The number that bytes spell, most significant first. -/
def ofBE (l : Bytes) : Nat := ofLE l.reverse

/-- `n` bytes at offset `o`, zero where the string is shorter. -/
def slice (l : Bytes) (o n : Nat) : Bytes :=
  let t := (l.drop o).take n
  t ++ List.replicate (n - t.length) 0

/-- A little-endian field of a structure. -/
def leAt (l : Bytes) (o n : Nat) : Nat := ofLE (slice l o n)
/-- A big-endian field of a structure. -/
def beAt (l : Bytes) (o n : Nat) : Nat := ofBE (slice l o n)

/-- A signed value as an `n`-byte little-endian two's complement field. -/
def leInt (n : Nat) (x : Int) : Bytes := le n ((x % (2 ^ (8 * n) : Nat)).toNat)
/-- A signed value as an `n`-byte big-endian two's complement field. -/
def beInt (n : Nat) (x : Int) : Bytes := (leInt n x).reverse
/-- A `w`-bit two's complement number as a signed value. -/
def signed (w x : Nat) : Int :=
  let y := x % 2 ^ w
  if y < 2 ^ (w - 1) then (y : Int) else (y : Int) - (2 ^ w : Nat)
/-- A signed value reduced to `w` bits. -/
def unsign (w : Nat) (x : Int) : Nat := (x % (2 ^ w : Nat)).toNat

/-- Zero bytes. -/
def zeros (n : Nat) : Bytes := List.replicate n 0

/-- Pad or cut to exactly `n` bytes. -/
def fit (n : Nat) (l : Bytes) : Bytes := slice l 0 n

/-- The bits of a byte, most significant first (R12). -/
def byteBits (b : Byte) : List Bool :=
  [b.getLsbD 7, b.getLsbD 6, b.getLsbD 5, b.getLsbD 4, b.getLsbD 3, b.getLsbD 2, b.getLsbD 1, b.getLsbD 0]

/-- The bits of a byte string, most significant bit of each byte first (R12). -/
def bytesBits (l : Bytes) : List Bool := l.flatMap byteBits

/-- The number that bits spell, most significant first. -/
def ofBits (l : List Bool) : Nat := l.foldl (fun a b => 2 * a + b2n b) 0

/-- The `n` low bits of a number, most significant first. -/
def natBits : (n x : Nat) → List Bool
  | 0, _ => []
  | n + 1, x => (x / 2 ^ n % 2 == 1) :: natBits n x

/-- Pack bits into bytes, eight at a time; a rest of fewer than eight is dropped. -/
def packBits : List Bool → Bytes
  | a :: b :: c :: d :: e :: f :: g :: h :: t =>
    BitVec.ofNat 8 (ofBits [a, b, c, d, e, f, g, h]) :: packBits t
  | _ => []

/-- Bytewise exclusive or, as long as the shorter string. -/
def xorBytes (a b : Bytes) : Bytes := List.zipWith (fun x y => x ^^^ y) a b

/-- One bit of a CRC register of width `w`, most significant bit first. -/
def crcStep (w poly r : Nat) (b : Bool) : Nat :=
  let top := r / 2 ^ (w - 1) % 2
  let r' := r * 2 % 2 ^ w
  if top = b2n b then r' else Nat.xor r' poly

/-- A CRC without reflection over bits in line order. -/
def crcBits (w poly init : Nat) (bits : List Bool) : Nat := bits.foldl (crcStep w poly) init

/-- One bit of CRC-32C in its reflected form. -/
def crc32cStep (r : Nat) : Nat := if r % 2 = 1 then Nat.xor (r / 2) 0x82F63B78 else r / 2

/-- One byte of CRC-32C. -/
def crc32cByte (r : Nat) (b : Byte) : Nat :=
  let x := Nat.xor r b.toNat
  crc32cStep (crc32cStep (crc32cStep (crc32cStep (crc32cStep (crc32cStep (crc32cStep (crc32cStep x)))))))

/-- CRC-32C (Castagnoli): initial value and final exclusive or of all ones, reflected, as used by the board profile, the
piles and Towpath units. -/
def crc32c (l : Bytes) : Nat := Nat.xor (l.foldl crc32cByte 0xFFFFFFFF) 0xFFFFFFFF

/-- The EtherType that follows all VLAN tags, and where it stands. -/
def afterTags (l : Bytes) : (fuel o : Nat) → Nat × Nat
  | 0, o => (beAt l o 2, o)
  | f + 1, o => if beAt l o 2 = 0x8100 ∨ beAt l o 2 = 0x88A8 then afterTags l f (o + 4) else (beAt l o 2, o)
def etherType (l : Bytes) : Nat := (afterTags l (l.length / 4 + 1) 12).1

/-- The ASCII bytes of a name, cut or padded with zeros to `n` bytes. -/
def ascii (n : Nat) (s : String) : Bytes := fit n (s.toList.map (fun c => BitVec.ofNat 8 c.toNat))

end Sys2Proof.Machine
end

