-- ==== Sys2Proof/Machine/Line.lean ====
section
/-!
DEFINITION. Line coding of the trees (R40 to R49, R66, R69, R70, R105): CRC-16, the scrambler, ballast, the RS(248,232) code and the
parities.
-/
namespace Sys2Proof.Machine

/-- CRC-16 of the tree protocol (R69). -/
def crc16 (l : Bytes) : Nat := crcBits 16 0x1021 0xFFFF (bytesBits l)

/-! ### Scrambler (R41, R42) -/

/-- One scrambler step: the keystream bit and the next state. -/
def scrStep (s : Nat) : Bool × Nat :=
  let k := bitOf s 57 != bitOf s 38
  (k, (s * 2 + b2n k) % 2 ^ 58)

/-- Scramble or descramble bits, with the state after them. -/
def scramble : (s : Nat) → List Bool → List Bool × Nat
  | s, [] => ([], s)
  | s, b :: t =>
    let k := scrStep s
    let r := scramble k.2 t
    ((b != k.1) :: r.1, r.2)

/-- Seed of downstream frame C (R42). -/
def frameSeed (c : Nat) : Nat := c % 2 ^ 48 * 1024 + 1023
/-- Seed of a barge of terminal `id` in tick C (R42). -/
def bargeSeed (c id : Nat) : Nat := c % 2 ^ 48 * 1024 + id % 256 * 4 + 3

/-! ### Ballast (R43, R44) -/

/-- Run count of a lane: length of the run, its bit, ballast bits so far, and received ballast bits that were not complementary. -/
structure Run where
  run : Nat
  last : Bool
  used : Nat
  viol : Nat
deriving DecidableEq, Repr

def Run.start : Run := { run := 0, last := false, used := 0, viol := 0 }

/-- Count one bit. -/
def Run.bit (r : Run) (b : Bool) : Run :=
  { r with run := if r.run ≠ 0 ∧ b = r.last then r.run + 1 else 1, last := b }

/-- Send bits, inserting a complementary bit after 64 identical ones. -/
def ballastTx : Run → List Bool → List Bool × Run
  | r, [] => ([], r)
  | r, b :: t =>
    let r1 := r.bit b
    if r1.run = 64 then
      let p := ballastTx { r1 with run := 1, last := !b, used := r1.used + 1 } t
      (b :: (!b) :: p.1, p.2)
    else
      let p := ballastTx r1 t
      (b :: p.1, p.2)

/-- Receive `n` payload bits: the bit after 64 identical ones is deleted. Answers the bits, the run, the rest of the line and how
many line bits were read; fewer bits where the line ends. -/
def ballastRx : (n : Nat) → Run → List Bool → List Bool × Run × List Bool × Nat
  | 0, r, l => ([], r, l, 0)
  | _ + 1, r, [] => ([], r, [], 0)
  | n + 1, r, b :: t =>
    let r1 := r.bit b
    if r1.run = 64 then
      match t with
      | [] => ([b], r1, [], 1)
      | x :: t' =>
        let r2 := { r1 with run := 1, last := x, used := r1.used + 1, viol := r1.viol + b2n (x == b) }
        let p := ballastRx n r2 t'
        (b :: p.1, p.2.1, p.2.2.1, p.2.2.2 + 2)
    else
      let p := ballastRx n r1 t
      (b :: p.1, p.2.1, p.2.2.1, p.2.2.2 + 1)

/-! ### Energy (R106) -/

/-- Transitions between neighbouring bits. -/
def transitions : List Bool → Nat
  | a :: b :: t => b2n (a != b) + transitions (b :: t)
  | _ => 0

/-- Energy is present in the 64-bit span that begins here: at least 16 transitions (R106). -/
def energyHere (l : List Bool) : Bool := decide (16 ≤ transitions (l.take 64))

/-- Energy anywhere on a stretch of line bits. -/
def anyEnergy : List Bool → Bool
  | [] => false
  | b :: t => energyHere (b :: t) || anyEnergy t

/-- A burst of energy on a lane: its first bit, and the bit of its last transition. -/
structure Burst where
  first : Nat
  last : Nat
deriving DecidableEq, Repr

/-- The offset of the last transition of a span that begins `i` bits on. -/
def lastEdge : (i last : Nat) → List Bool → Nat
  | i, m, a :: b :: t => lastEdge (i + 1) (if a = b then m else i + 1) (b :: t)
  | _, m, _ => m

/-- The bursts of a stretch that begins at bit `p`; `cur` is the burst in progress with the bit at which its last energetic span begins. A burst has ended after 64
bit times without energy (R106). -/
def burstsGo : (p : Nat) → (cur : Option (Burst × Nat)) → List Bool → List Burst
  | _, cur, [] => (cur.map (·.1)).toList
  | p, cur, b :: t =>
    if energyHere (b :: t) then
      let last := p + lastEdge 0 0 ((b :: t).take 64)
      match cur with
      | none => burstsGo (p + 1) (some ({ first := p, last }, p)) t
      | some (c, s) =>
        if p ≤ s + 64 then burstsGo (p + 1) (some ({ c with last := if c.last < last then last else c.last }, p)) t
        else c :: burstsGo (p + 1) (some ({ first := p, last }, p)) t
    else burstsGo (p + 1) cur t

/-- The bursts of a stretch whose first bit stands at `first`. -/
def bursts (first : Nat) (bits : List Bool) : List Burst := burstsGo first none bits

/-- Reserve filler: alternating, starting with the complement of the last bit (R46). -/
def filler : (n : Nat) → (last : Bool) → List Bool
  | 0, _ => []
  | n + 1, b => (!b) :: filler n (!b)

/-! ### GF(2^8) and RS(248,232) (R66) -/

/-- Multiply by α = 0x02 modulo x^8 + x^4 + x^3 + x^2 + 1. -/
def gfDouble (a : Nat) : Nat := if a * 2 < 256 then a * 2 else Nat.xor (a * 2) 0x11D

/-- Product in the field, by the bits of the second factor. -/
def gfMulGo : (fuel a b acc : Nat) → Nat
  | 0, _, _, acc => acc
  | f + 1, a, b, acc => gfMulGo f (gfDouble a) (b / 2) (if b % 2 = 1 then Nat.xor acc a else acc)
def gfMul (a b : Nat) : Nat := gfMulGo 8 a b 0

/-- Power in the field. -/
def gfPow (a : Nat) : Nat → Nat
  | 0 => 1
  | n + 1 => gfMul a (gfPow a n)

/-- Inverse of a nonzero element. -/
def gfInv (a : Nat) : Nat := gfPow a 254

/-- Value of a polynomial, coefficient of the highest degree first. -/
def gfEval (p : List Nat) (x : Nat) : Nat := p.foldl (fun acc c => Nat.xor (gfMul acc x) c) 0

/-- Value of a polynomial, constant coefficient first. -/
def gfEvalLow (p : List Nat) (x : Nat) : Nat := gfEval p.reverse x

/-- Sum of two polynomials, constant coefficient first. -/
def polyAdd : List Nat → List Nat → List Nat
  | [], q => q
  | p, [] => p
  | a :: p, b :: q => Nat.xor a b :: polyAdd p q

/-- A polynomial times a constant. -/
def polyScale (c : Nat) (p : List Nat) : List Nat := p.map (gfMul c)

/-- Product of polynomials, constant coefficient first. -/
def polyMul : List Nat → List Nat → List Nat
  | [], _ => []
  | a :: p, q => polyAdd (polyScale a q) (0 :: polyMul p q)

/-- The generator (x − α^0) … (x − α^15), constant coefficient first. -/
def rsGen : List Nat := (List.range 16).foldl (fun g i => polyMul g [gfPow 2 i, 1]) [1]

/-- The generator below its leading term, highest degree first: the taps of the encoder. -/
def rsTaps : List Nat := (rsGen.take 16).reverse

/-- One encoder step over the 16 parity bytes, highest degree first. -/
def rsStep (par : List Nat) (b : Nat) : List Nat :=
  let fb := Nat.xor b (lget par 0 0)
  List.zipWith (fun p g => Nat.xor p (gfMul fb g)) (par.drop 1 ++ [0]) rsTaps

/-- The 16 parity bytes of 232 data bytes. -/
def rsParity (data : Bytes) : Bytes :=
  (data.foldl (fun par b => rsStep par b.toNat) (List.replicate 16 0)).map (BitVec.ofNat 8)

/-- The codeword: data first, then parity. -/
def rsEncode (data : Bytes) : Bytes := data ++ rsParity data

/-- The syndromes at α^0 … α^15. -/
def syndromes (cw : List Nat) : List Nat := (List.range 16).map (fun i => gfEval cw (gfPow 2 i))

/-- Berlekamp–Massey: one round. The state is the locator, the last locator, its discrepancy, the length and the shift. -/
structure Bm where
  c : List Nat
  b : List Nat
  bd : Nat
  l : Nat
  m : Nat
deriving DecidableEq, Repr

def bmStep (s : List Nat) (st : Bm) (n : Nat) : Bm :=
  let d := (List.range st.l).foldl (fun acc i => Nat.xor acc (gfMul (lget st.c (i + 1) 0) (lget s (n - (i + 1)) 0))) (lget s n 0)
  if d = 0 then { st with m := st.m + 1 }
  else
    let corr := polyScale (gfMul d (gfInv st.bd)) (List.replicate st.m 0 ++ st.b)
    let c' := polyAdd st.c corr
    if 2 * st.l ≤ n then { c := c', b := st.c, bd := d, l := n + 1 - st.l, m := 1 }
    else { st with c := c', m := st.m + 1 }

/-- The error locator, constant coefficient first. -/
def rsLocator (s : List Nat) : Bm :=
  (List.range 16).foldl (bmStep s) { c := [1], b := [1], bd := 1, l := 0, m := 1 }

/-- The error positions as degrees 0 to 247: the inverses of the locator's roots. -/
def rsPositions (loc : List Nat) : List Nat :=
  (List.range 248).filter (fun p => gfEvalLow loc (gfInv (gfPow 2 p)) = 0)

/-- The error value at a degree (Forney, first root α^0). -/
def rsValue (s loc : List Nat) (p : Nat) : Nat :=
  let x := gfPow 2 p
  let xi := gfInv x
  let omega := (polyMul s loc).take 16
  let deriv := (List.range loc.length).foldl (fun acc i =>
    if i % 2 = 1 then Nat.xor acc (gfMul (lget loc i 0) (gfPow xi (i - 1))) else acc) 0
  gfMul x (gfMul (gfEvalLow omega xi) (gfInv deriv))

/-- Decode a received codeword of 248 bytes: the data and the number of bytes corrected, at most 8; none where it cannot be
corrected (R66). -/
def rsDecode (cw : Bytes) : Option (Bytes × Nat) :=
  let r := cw.map BitVec.toNat
  let s := syndromes r
  if s.all (· == 0) then some (cw.take 232, 0)
  else
    let bm := rsLocator s
    let ps := rsPositions bm.c
    if 8 < bm.l ∨ ps.length ≠ bm.l then none
    else
      let fixed := ps.foldl (fun l p => lmod l (247 - p) 0 (fun v => Nat.xor v (rsValue s bm.c p))) r
      if (syndromes fixed).all (· == 0) then some ((fixed.take 232).map (BitVec.ofNat 8), bm.l) else none

/-! ### Parities (R70, R105) -/

/-- Exclusive or of consecutive words of `w` bits, a final partial word padded with zeros. -/
def parity (w : Nat) : (fuel : Nat) → List Bool → Nat → Nat
  | 0, _, acc => acc
  | f + 1, l, acc =>
    if l.isEmpty then acc
    else
      let h := l.take w
      parity w f (l.drop w) (Nat.xor acc (ofBits (h ++ List.replicate (w - h.length) false)))

/-- BIP-8 over line bits (R105). -/
def bip8 (l : List Bool) : Nat := parity 8 (l.length / 8 + 1) l 0
/-- BIP32 over the line bits of a frame (R70). -/
def bip32 (l : List Bool) : Nat := parity 32 (l.length / 32 + 1) l 0

/-- Number of one bits of a byte-sized number. -/
def onesOf (x : Nat) : Nat := ((List.range 32).filter (fun i => bitOf x i)).length

end Sys2Proof.Machine
end

