-- ==== Sys2Proof/Machine/Stats.lean ====
section
/-!
DEFINITION. The fixed statistics and their groups (R477), with the name CATALOG reports for each (R489).
-/
namespace Sys2Proof.Machine

/-- The fixed statistics that the chapters name, and the two words of a programmable counter (R481). -/
inductive Stat where
  -- tree (R63, R114, R137, R175, R317, chapters 02 to 06)
  | ballastViol | slotWithheld | frameCut | bargeCwDrop | wakeFail | berthDefer | weirOversize | lmDefer | fragAbort
  | lmLate | qrepForeign | reiGap | reasmOrphan | reasmTimeout | flowForeign | bargeFecMismatch | bargeTidMismatch
  | bargeMissDark | bargeMissDelim | bargeCut | hailAccept | hailCollide | qwOpened | qwSkip | rangeFail | driftAdj
  | quarantine | dozeDecline | lkMiss | lkCheckDrop | qwYield | qwUncoord | lkTieLoss | lkTrim | standingStale
  | epochStale | darnBytes | corrCw | uncorrCw | tswPiecesSent
  -- tree SA (R389)
  | saTagFail | saStopDrop | saNoKey
  -- requester and pool (R203)
  | dropNocell | dropCells | dropQuota | dropOversize | dropNoflow
  | doubleFree | pointerFault | ownerFault | copyOverflow | resvLostCells
  -- queue, 40 bits (R203, R226)
  | qDropTail | qDropResvFull | qDropDelete | qSpillFrames | qRefillFrames | qUnderrun | qResvLost | qTxFrames | qTxBytes
  -- point (R226, R478)
  | schedTxFrames | schedTxBytes | drrStarve
  | uDropTail | uDropResvFull | uDropDelete | uSpillFrames | uRefillFrames | uUnderrun | uResvLost | uTxFrames | uTxBytes
  -- bucket, 40 bits, and histogram unit
  | policeDrop | policeDemote | histSamples | histSkip
  -- classifier (R248)
  | parseDeep | parseShort | lengthConflict | equalPrio | editSkip | ipcsumBad | recircDrop | recircLimit | noVersion
  -- forwarding (R269)
  | fdbLearned | fdbMoved | fdbEvicted | fdbLearnFail | fdbAgedOut | fdbNotMember | fdbHairpinDrop | fdbMissDrop
  | fdbStaticConflict | fdbLimitDrop | fdbLimitFlood | fdbRelocated | fdbLearnOverflow
  | camHit | camMiss | camPrioTie | camFalseHit | camVerifyMiss
  -- uplink and service ports (R285), MACsec (R368)
  | uplRxFrames | uplRxBytes | uplTxFrames | uplTxBytes | uplFecCorrCw | uplFecUncorrCw | uplFecSymbols | uplRxFcs
  | uplRxOversize | uplMacctlDrop | uplAddrDrop | uplSteerHit | uplGateHeld | uplGateOverrun | uplGateOversize
  | uplPreemptFrag | uplLpiEntries
  | macsecReplay | macsecTag | macsecUntagged
  -- pair, 40 bits, and protection group (R317)
  | pairFirstA | pairFirstB | pairDup | pairStale | pairOnlyA | pairOnlyB | pairEpochMismatch | protSwitches | protDrills
  -- Towpath (R409)
  | towTxUnits | towRxUnits | towTxBytes | towRxBytes | towCrcDrop | towSeqGap | towNorouteDrop | towHopDrop | towPathMove
  -- recorder (R430)
  | recMirrorFrames | recMirrorDrop | recSvRaw | recRingOverrun | recPilesStored | recCaptures | recEvicted | recNvmeErr
  -- time (R354)
  | timeSteps | timePtpRx | timePtpTx | timeTevLate | timeTevCaptureLost
  -- host rings, events, update, dumps (R452, R488)
  | hostRxFrames | hostRxNobuf | hostTxFrames | hostTxErr | evtMasked | updBlockCrc | dumpSkipped | dumpTrunc
  -- histogram buckets (R219): bucket number 0 to 511; and the words of a programmable counter (R481)
  | progValue | progGen
deriving DecidableEq, Repr

/-- The number of a statistic in the counter store. -/
def Stat.code (s : Stat) : Nat := s.ctorIdx

/-- The statistics that are kept per terminal and summed per tree (R63, R103, R114, R137, R175, R317). -/
def terminalStats : List Stat :=
  [.bargeCwDrop, .qrepForeign, .reiGap, .reasmOrphan, .reasmTimeout, .flowForeign, .bargeFecMismatch,
   .bargeTidMismatch, .bargeMissDark, .bargeMissDelim, .bargeCut, .rangeFail, .driftAdj, .quarantine, .dozeDecline,
   .lkTieLoss, .lkTrim, .standingStale, .epochStale, .darnBytes, .corrCw, .uncorrCw]

/-- The nine per-queue statistics with the UNBOUND statistic of the point that each adds to (R478). -/
def queueStats : List (Stat × Stat) :=
  [(.qDropTail, .uDropTail), (.qDropResvFull, .uDropResvFull), (.qDropDelete, .uDropDelete),
   (.qSpillFrames, .uSpillFrames), (.qRefillFrames, .uRefillFrames), (.qUnderrun, .uUnderrun),
   (.qResvLost, .uResvLost), (.qTxFrames, .uTxFrames), (.qTxBytes, .uTxBytes)]

def classStats : List Stat :=
  [.parseDeep, .parseShort, .lengthConflict, .equalPrio, .editSkip, .ipcsumBad, .recircDrop, .recircLimit, .noVersion]

/-- The statistics of each group (R477), in the order the chapters name them. The order the die gives them is `catalog`. -/
def groupStats : Nat → List Stat
  | 0 => [.doubleFree, .pointerFault, .ownerFault, .copyOverflow, .resvLostCells] ++ classStats ++
      [.fdbRelocated, .fdbLearnOverflow, .timeSteps, .towNorouteDrop, .towHopDrop, .towPathMove, .recRingOverrun,
       .recPilesStored, .recCaptures, .recEvicted, .recNvmeErr, .evtMasked, .updBlockCrc, .dumpSkipped, .dumpTrunc]
  | 1 => [.ballastViol, .slotWithheld, .frameCut, .wakeFail, .berthDefer, .weirOversize, .lmDefer, .fragAbort, .lmLate,
      .hailAccept, .hailCollide, .qwOpened, .qwSkip, .lkMiss, .lkCheckDrop, .qwYield, .qwUncoord, .tswPiecesSent] ++
      terminalStats
  | 2 => terminalStats
  | 3 => [.saTagFail, .saStopDrop, .saNoKey]
  | 4 => [.dropNocell, .dropCells, .dropQuota, .dropOversize, .dropNoflow]
  | 5 => queueStats.map (·.1)
  | 6 => [.schedTxFrames, .schedTxBytes, .drrStarve] ++ queueStats.map (·.2)
  | 7 => [.policeDrop, .policeDemote]
  | 8 => [.histSamples, .histSkip]
  | 9 => classStats
  | 10 => [.fdbLearned, .fdbMoved, .fdbEvicted, .fdbLearnFail, .fdbAgedOut, .fdbNotMember, .fdbHairpinDrop,
      .fdbMissDrop, .fdbStaticConflict]
  | 11 => [.fdbLimitDrop, .fdbLimitFlood]
  | 12 => [.camHit, .camMiss, .camPrioTie, .camFalseHit, .camVerifyMiss]
  | 13 => [.uplRxFrames, .uplRxBytes, .uplTxFrames, .uplTxBytes, .uplFecCorrCw, .uplFecUncorrCw, .uplFecSymbols,
      .uplRxFcs, .uplRxOversize, .uplMacctlDrop, .uplAddrDrop, .uplSteerHit, .uplGateHeld, .uplGateOverrun,
      .uplGateOversize, .uplPreemptFrag, .uplLpiEntries]
  | 14 => [.macsecReplay, .macsecTag, .macsecUntagged]
  | 15 => [.pairFirstA, .pairFirstB, .pairDup, .pairStale, .pairOnlyA, .pairOnlyB, .pairEpochMismatch]
  | 16 => [.protSwitches, .protDrills]
  | 17 => [.towTxUnits, .towRxUnits, .towTxBytes, .towRxBytes, .towCrcDrop, .towSeqGap]
  | 18 => [.recMirrorFrames, .recMirrorDrop, .recSvRaw]
  | 19 => [.timePtpRx, .timePtpTx, .timeTevLate, .timeTevCaptureLost]
  | 20 => [.hostRxFrames, .hostRxNobuf, .hostTxFrames, .hostTxErr]
  | 21 => [.progValue, .progGen]
  | _ => []

/-- Instances of each group (R477). -/
def groupSize : Nat → Nat
  | 0 => 1 | 1 => 64 | 2 => 16384 | 3 => 32768 | 4 => 83 | 5 => 16384 | 6 => 256 | 7 => 131072 | 8 => 1024 | 9 => 5
  | 10 => 4096 | 11 => 16512 | 12 => 8 | 13 => 33 | 14 => 512 | 15 => 262144 | 16 => 1024 | 17 => 8 | 18 => 256
  | 19 => 37 | 20 => 8 | 21 => 4096 | _ => 0

/-- A counter's place in the store: group, statistic (or histogram bucket, 256 and above) and instance. -/
def ctrKey (g st inst : Nat) : Nat := (g * 1024 + st) * 16777216 + inst

/-- Width of a counter in bits (R476). -/
def ctrWidth (g : Nat) : Nat := if g = 5 ∨ g = 7 ∨ g = 15 then 40 else 64

/-- Histogram bucket `b` (0 to 511) as a statistic number of group 8. -/
def histCode (b : Nat) : Nat := 256 + b

/-- Take the `n`-th element out of a list, the rest in order. -/
def pickAt : List Nat → Nat → Option (Nat × List Nat)
  | [], _ => none
  | a :: t, 0 => some (a, t)
  | a :: t, n + 1 => (pickAt t n).map (fun p => (p.1, a :: p.2))

/-- Order a list by the die's choices: a permutation whatever the choices are. -/
def permute (g : Nat) : (fuel n : Nat) → List Nat → List Nat
  | 0, _, l => l
  | fuel + 1, n, l =>
    match pickAt l (Config.catalogPick g n % l.length) with
    | none => []
    | some (a, t) => a :: permute g fuel (n + 1) t

/-- The statistic codes of a group. R477 bounds NSTAT by 64 while a histogram unit also has 512 buckets (R226); group HIST
lists its two named statistics here, and `instanceWords` adds the buckets, under codes 256 to 767 of the store (log entry 2). -/
def groupCodes (g : Nat) : List Nat := (groupStats g).map Stat.code

/-- The order CATALOG reports (R477): fixed by the die, not printed in the manual (log entry 2). -/
def catalog (g : Nat) : List Nat :=
  if g = 21 then groupCodes 21 else permute g (groupCodes g).length 0 (groupCodes g)

/-- The NSTAT of a group (R477). -/
def nstat (g : Nat) : Nat := (groupCodes g).length

/-- The words of an instance in a dump record or a window: the statistics of its group, and for a histogram unit its 512 buckets behind them (R222, R226, R487;
NSTAT has no room for them: log entry 2). -/
def instanceWords (g : Nat) : List Nat := catalog g ++ (if g = 8 then (List.range 512).map histCode else [])

/-- The name CATALOG reports for a statistic (R489): as the manual writes it. -/
def Stat.name : Stat → String
  | .ballastViol => "TREE.BALLAST_VIOL"
  | .slotWithheld => "TREE.SLOT_WITHHELD"
  | .frameCut => "TREE.FRAME_CUT"
  | .bargeCwDrop => "TREE.BARGE_CW_DROP"
  | .wakeFail => "TREE.WAKE_FAIL"
  | .berthDefer => "TREE.BERTH_DEFER"
  | .weirOversize => "TREE.WEIR_OVERSIZE"
  | .lmDefer => "TREE.LM_DEFER"
  | .fragAbort => "TREE.FRAG_ABORT"
  | .lmLate => "TREE.LM_LATE"
  | .qrepForeign => "TREE.QREP_FOREIGN"
  | .reiGap => "TREE.REI_GAP"
  | .reasmOrphan => "TREE.REASM_ORPHAN"
  | .reasmTimeout => "TREE.REASM_TIMEOUT"
  | .flowForeign => "TREE.FLOW_FOREIGN"
  | .bargeFecMismatch => "TREE.BARGE_FEC_MISMATCH"
  | .bargeTidMismatch => "TREE.BARGE_TID_MISMATCH"
  | .bargeMissDark => "TREE.BARGE_MISS_DARK"
  | .bargeMissDelim => "TREE.BARGE_MISS_DELIM"
  | .bargeCut => "TREE.BARGE_CUT"
  | .hailAccept => "TREE.HAIL_ACCEPT"
  | .hailCollide => "TREE.HAIL_COLLIDE"
  | .qwOpened => "TREE.QW_OPENED"
  | .qwSkip => "TREE.QW_SKIP"
  | .rangeFail => "TREE.RANGE_FAIL"
  | .driftAdj => "TREE.DRIFT_ADJ"
  | .quarantine => "TREE.QUARANTINE"
  | .dozeDecline => "TREE.DOZE_DECLINE"
  | .lkMiss => "TREE.LK_MISS"
  | .lkCheckDrop => "TREE.LK_CHECK_DROP"
  | .qwYield => "TREE.QW_YIELD"
  | .qwUncoord => "TREE.QW_UNCOORD"
  | .lkTieLoss => "TREE.LK_TIE_LOSS"
  | .lkTrim => "TREE.LK_TRIM"
  | .standingStale => "TREE.STANDING_STALE"
  | .epochStale => "TREE.EPOCH_STALE"
  | .darnBytes => "DARN_BYTES"
  | .corrCw => "CORR_CW"
  | .uncorrCw => "UNCORR_CW"
  | .tswPiecesSent => "TSW.PIECES_SENT"
  | .saTagFail => "SA.TAG_FAIL"
  | .saStopDrop => "SA.STOP_DROP"
  | .saNoKey => "SA.NO_KEY"
  | .dropNocell => "POOL.DROP_NOCELL"
  | .dropCells => "POOL.DROP_CELLS"
  | .dropQuota => "POOL.DROP_QUOTA"
  | .dropOversize => "POOL.DROP_OVERSIZE"
  | .dropNoflow => "POOL.DROP_NOFLOW"
  | .doubleFree => "POOL.DOUBLE_FREE"
  | .pointerFault => "POOL.POINTER_FAULT"
  | .ownerFault => "POOL.OWNER_FAULT"
  | .copyOverflow => "POOL.COPY_OVERFLOW"
  | .resvLostCells => "POOL.RESV_LOST_CELLS"
  | .qDropTail => "QUEUE.DROP_TAIL"
  | .qDropResvFull => "QUEUE.DROP_RESV_FULL"
  | .qDropDelete => "QUEUE.DROP_DELETE"
  | .qSpillFrames => "QUEUE.SPILL_FRAMES"
  | .qRefillFrames => "QUEUE.REFILL_FRAMES"
  | .qUnderrun => "QUEUE.UNDERRUN"
  | .qResvLost => "QUEUE.RESV_LOST"
  | .qTxFrames => "QUEUE.TX_FRAMES"
  | .qTxBytes => "QUEUE.TX_BYTES"
  | .schedTxFrames => "SCHED.TX_FRAMES"
  | .schedTxBytes => "SCHED.TX_BYTES"
  | .drrStarve => "SCHED.DRR_STARVE"
  | .uDropTail => "POINT.UNBOUND_DROP_TAIL"
  | .uDropResvFull => "POINT.UNBOUND_DROP_RESV_FULL"
  | .uDropDelete => "POINT.UNBOUND_DROP_DELETE"
  | .uSpillFrames => "POINT.UNBOUND_SPILL_FRAMES"
  | .uRefillFrames => "POINT.UNBOUND_REFILL_FRAMES"
  | .uUnderrun => "POINT.UNBOUND_UNDERRUN"
  | .uResvLost => "POINT.UNBOUND_RESV_LOST"
  | .uTxFrames => "POINT.UNBOUND_TX_FRAMES"
  | .uTxBytes => "POINT.UNBOUND_TX_BYTES"
  | .policeDrop => "SHAPER.POLICE_DROP"
  | .policeDemote => "SHAPER.POLICE_DEMOTE"
  | .histSamples => "HIST.SAMPLES"
  | .histSkip => "HIST.SKIP"
  | .parseDeep => "CLASS.PARSE_DEEP"
  | .parseShort => "CLASS.PARSE_SHORT"
  | .lengthConflict => "CLASS.LENGTH_CONFLICT"
  | .equalPrio => "CLASS.EQUAL_PRIO"
  | .editSkip => "CLASS.EDIT_SKIP"
  | .ipcsumBad => "CLASS.IPCSUM_BAD"
  | .recircDrop => "CLASS.RECIRC_DROP"
  | .recircLimit => "CLASS.RECIRC_LIMIT"
  | .noVersion => "CLASS.NO_VERSION"
  | .fdbLearned => "FDB.LEARNED"
  | .fdbMoved => "FDB.MOVED"
  | .fdbEvicted => "FDB.EVICTED"
  | .fdbLearnFail => "FDB.LEARN_FAIL"
  | .fdbAgedOut => "FDB.AGED_OUT"
  | .fdbNotMember => "FDB.NOT_MEMBER"
  | .fdbHairpinDrop => "FDB.HAIRPIN_DROP"
  | .fdbMissDrop => "FDB.MISS_DROP"
  | .fdbStaticConflict => "FDB.STATIC_CONFLICT"
  | .fdbLimitDrop => "FDB.LIMIT_DROP"
  | .fdbLimitFlood => "FDB.LIMIT_FLOOD"
  | .fdbRelocated => "FDB.RELOCATED"
  | .fdbLearnOverflow => "FDB.LEARN_OVERFLOW"
  | .camHit => "CAM.HIT"
  | .camMiss => "CAM.MISS"
  | .camPrioTie => "CAM.PRIO_TIE"
  | .camFalseHit => "CAM.FALSE_HIT"
  | .camVerifyMiss => "CAM.VERIFY_MISS"
  | .uplRxFrames => "UPL.RX_FRAMES"
  | .uplRxBytes => "UPL.RX_BYTES"
  | .uplTxFrames => "UPL.TX_FRAMES"
  | .uplTxBytes => "UPL.TX_BYTES"
  | .uplFecCorrCw => "UPL.FEC_CORR_CW"
  | .uplFecUncorrCw => "UPL.FEC_UNCORR_CW"
  | .uplFecSymbols => "UPL.FEC_SYMBOLS"
  | .uplRxFcs => "UPL.RX_FCS"
  | .uplRxOversize => "UPL.RX_OVERSIZE"
  | .uplMacctlDrop => "UPL.MACCTL_DROP"
  | .uplAddrDrop => "UPL.ADDR_DROP"
  | .uplSteerHit => "UPL.STEER_HIT"
  | .uplGateHeld => "UPL.GATE_HELD"
  | .uplGateOverrun => "UPL.GATE_OVERRUN"
  | .uplGateOversize => "UPL.GATE_OVERSIZE"
  | .uplPreemptFrag => "UPL.PREEMPT_FRAG"
  | .uplLpiEntries => "UPL.LPI_ENTRIES"
  | .macsecReplay => "MACSEC.RX_DROP_REPLAY"
  | .macsecTag => "MACSEC.RX_DROP_TAG"
  | .macsecUntagged => "MACSEC.RX_DROP_UNTAGGED"
  | .pairFirstA => "PAIR.FIRST_A"
  | .pairFirstB => "PAIR.FIRST_B"
  | .pairDup => "PAIR.DUP"
  | .pairStale => "PAIR.STALE"
  | .pairOnlyA => "PAIR.ONLY_A"
  | .pairOnlyB => "PAIR.ONLY_B"
  | .pairEpochMismatch => "PAIR.EPOCH_MISMATCH"
  | .protSwitches => "PROT.SWITCHES"
  | .protDrills => "PROT.DRILLS"
  | .towTxUnits => "TOW.TX_UNITS"
  | .towRxUnits => "TOW.RX_UNITS"
  | .towTxBytes => "TOW.TX_BYTES"
  | .towRxBytes => "TOW.RX_BYTES"
  | .towCrcDrop => "TOW.CRC_DROP"
  | .towSeqGap => "TOW.SEQ_GAP"
  | .towNorouteDrop => "TOW.NOROUTE_DROP"
  | .towHopDrop => "TOW.HOP_DROP"
  | .towPathMove => "TOW.PATH_MOVE"
  | .recMirrorFrames => "REC.MIRROR_FRAMES"
  | .recMirrorDrop => "REC.MIRROR_DROP"
  | .recSvRaw => "REC.SV_RAW"
  | .recRingOverrun => "REC.RING_OVERRUN"
  | .recPilesStored => "REC.PILES_STORED"
  | .recCaptures => "REC.CAPTURES"
  | .recEvicted => "REC.EVICTED"
  | .recNvmeErr => "REC.NVME_ERR"
  | .timeSteps => "TIME.STEPS"
  | .timePtpRx => "TIME.PTP_RX"
  | .timePtpTx => "TIME.PTP_TX"
  | .timeTevLate => "TIME.TEV_LATE"
  | .timeTevCaptureLost => "TIME.TEV_CAPTURE_LOST"
  | .hostRxFrames => "HOST.RX_FRAMES"
  | .hostRxNobuf => "HOST.RX_NOBUF"
  | .hostTxFrames => "HOST.TX_FRAMES"
  | .hostTxErr => "HOST.TX_ERR"
  | .evtMasked => "EVT.MASKED"
  | .updBlockCrc => "UPD.BLOCK_CRC"
  | .dumpSkipped => "COUNTER.DUMP_SKIPPED"
  | .dumpTrunc => "COUNTER.DUMP_TRUNC"
  | .progValue => "PROG.VALUE"
  | .progGen => "PROG.GEN"

/-- Statistics in the order of their codes, part 1. -/
def stats1 : List Stat :=
  [.ballastViol, .slotWithheld, .frameCut, .bargeCwDrop, .wakeFail, .berthDefer, .weirOversize, .lmDefer, .fragAbort, .lmLate, .qrepForeign, .reiGap,
   .reasmOrphan, .reasmTimeout, .flowForeign, .bargeFecMismatch, .bargeTidMismatch, .bargeMissDark, .bargeMissDelim, .bargeCut, .hailAccept,
   .hailCollide, .qwOpened, .qwSkip]
/-- Statistics in the order of their codes, part 2. -/
def stats2 : List Stat :=
  [.rangeFail, .driftAdj, .quarantine, .dozeDecline, .lkMiss, .lkCheckDrop, .qwYield, .qwUncoord, .lkTieLoss, .lkTrim, .standingStale, .epochStale,
   .darnBytes, .corrCw, .uncorrCw, .tswPiecesSent, .saTagFail, .saStopDrop, .saNoKey, .dropNocell, .dropCells, .dropQuota, .dropOversize, .dropNoflow]
/-- Statistics in the order of their codes, part 3. -/
def stats3 : List Stat :=
  [.doubleFree, .pointerFault, .ownerFault, .copyOverflow, .resvLostCells, .qDropTail, .qDropResvFull, .qDropDelete, .qSpillFrames, .qRefillFrames,
   .qUnderrun, .qResvLost, .qTxFrames, .qTxBytes, .schedTxFrames, .schedTxBytes, .drrStarve, .uDropTail, .uDropResvFull, .uDropDelete, .uSpillFrames,
   .uRefillFrames, .uUnderrun, .uResvLost]
/-- Statistics in the order of their codes, part 4. -/
def stats4 : List Stat :=
  [.uTxFrames, .uTxBytes, .policeDrop, .policeDemote, .histSamples, .histSkip, .parseDeep, .parseShort, .lengthConflict, .equalPrio, .editSkip,
   .ipcsumBad, .recircDrop, .recircLimit, .noVersion, .fdbLearned, .fdbMoved, .fdbEvicted, .fdbLearnFail, .fdbAgedOut, .fdbNotMember, .fdbHairpinDrop,
   .fdbMissDrop, .fdbStaticConflict]
/-- Statistics in the order of their codes, part 5. -/
def stats5 : List Stat :=
  [.fdbLimitDrop, .fdbLimitFlood, .fdbRelocated, .fdbLearnOverflow, .camHit, .camMiss, .camPrioTie, .camFalseHit, .camVerifyMiss, .uplRxFrames,
   .uplRxBytes, .uplTxFrames, .uplTxBytes, .uplFecCorrCw, .uplFecUncorrCw, .uplFecSymbols, .uplRxFcs, .uplRxOversize, .uplMacctlDrop, .uplAddrDrop,
   .uplSteerHit, .uplGateHeld, .uplGateOverrun, .uplGateOversize]
/-- Statistics in the order of their codes, part 6. -/
def stats6 : List Stat :=
  [.uplPreemptFrag, .uplLpiEntries, .macsecReplay, .macsecTag, .macsecUntagged, .pairFirstA, .pairFirstB, .pairDup, .pairStale, .pairOnlyA,
   .pairOnlyB, .pairEpochMismatch, .protSwitches, .protDrills, .towTxUnits, .towRxUnits, .towTxBytes, .towRxBytes, .towCrcDrop, .towSeqGap,
   .towNorouteDrop, .towHopDrop, .towPathMove, .recMirrorFrames]
/-- Statistics in the order of their codes, part 7. -/
def stats7 : List Stat :=
  [.recMirrorDrop, .recSvRaw, .recRingOverrun, .recPilesStored, .recCaptures, .recEvicted, .recNvmeErr, .timeSteps, .timePtpRx, .timePtpTx,
   .timeTevLate, .timeTevCaptureLost, .hostRxFrames, .hostRxNobuf, .hostTxFrames, .hostTxErr, .evtMasked, .updBlockCrc, .dumpSkipped, .dumpTrunc,
   .progValue, .progGen]
/-- All statistics, in the order of their codes. -/
def allStats : List Stat := stats1 ++ stats2 ++ stats3 ++ stats4 ++ stats5 ++ stats6 ++ stats7

/-- The name of a statistic code. -/
def statName (code : Nat) : String := (allStats.find? (fun s => s.code == code)).elim "" Stat.name

end Sys2Proof.Machine
end

