-- ==== Sys2Proof/Machine/TypesHost.lean ====
section
/-!
DEFINITION. The state of the host interface, the event unit, the counter unit, Sluice, power, reset and debug
(chapters 18, 20 and 21).
-/
namespace Sys2Proof.Machine

/-- Mailbox status codes (R441). -/
inductive Status where
  | ok | pending | busy | invalid | noResource | denied | notAdmitted | version | settingsIncompatible | tampered
deriving DecidableEq, Repr

/-- The code of a status (R441). -/
def Status.code : Status → Nat
  | .ok => 0 | .pending => 1 | .busy => 2 | .invalid => 3 | .noResource => 4 | .denied => 5 | .notAdmitted => 6
  | .version => 7 | .settingsIncompatible => 8 | .tampered => 9

/-- A command in progress: the context it came from and its number. -/
structure CmdRef where
  ctx : Nat
  id : Nat
deriving DecidableEq, Repr

/-- The outcome of a begun mailbox command, oldest first: still running (no status) or complete with its response.
`noResponse` marks a command accepted before a host-interface reset (R432). -/
structure MbResult where
  ref : CmdRef
  status : Option Status
  resp : Bytes
  noResponse : Bool
deriving DecidableEq, Repr

/-- A page accepted and not yet complete (R439). `early` is the status that the header checks of R440 give, if one
failed; `opcode` is its OPCODE and `tick` the tick of its doorbell, for R440 and R442. -/
structure MbPage where
  addr : Nat
  seq : Nat
  hostTag : Nat
  early : Option Status
  opcode : Nat := 0
  tick : Nat := 0
deriving DecidableEq, Repr

/-- A mailbox context (R436, R437). `orphans` are the opcodes and ticks of the commands accepted before a reset of the host interface that have not begun. -/
structure MbCtx where
  doorbellHi : Nat
  allow : Nat
  enable : Bool
  submitted : Nat
  completed : Nat
  discarded : Nat
  seq : Nat
  pages : List MbPage
  orphans : List (Nat × Nat)
deriving DecidableEq, Repr

/-- The registers of an event ring or host packet ring (R445), with the drops since its last record (R447) and the
coalescing state. -/
structure Ring where
  baseLo : Nat
  baseHi : Nat
  coalesce : Nat
  size : Nat
  enable : Bool
  head : Nat
  tail : Nat
  lost : Nat
  phase : Bool
  drops : Nat
  lastMsg : Option Nat
  msgDue : Bool
deriving DecidableEq, Repr

/-- The entries of a ring. -/
def Ring.entries (r : Ring) : Nat := 2 ^ (6 + r.size)

/-- The host interface (R431 to R443). `msix` holds the written words of the vector table, `pba` the pending vectors and
`sent` how many messages each vector has sent; `rung` the doorbells that wait for the end of D3hot or of a management pause. -/
structure HostIf where
  ctxs : List MbCtx
  evRings : List Ring
  pktRings : List Ring
  results : List MbResult
  nextCmd : Nat
  cycleHi : Nat
  ready : Bool
  evtReady : Bool
  pause : Bool
  fatal : Bool
  d3 : Bool
  msix : Tbl Nat
  pba : List Nat
  sent : Tbl Nat
  readData : Nat
  rung : List Doorbell := []
deriving DecidableEq, Repr

/-- An event record in staging (R446, R447). `boundary` marks a record raised in a boundary clock. -/
structure EvRec where
  src : Nat
  cause : Nat
  flag : Bool
  index : Nat
  cycle : Nat
  data : Bytes
  ring : Nat
  boundary : Bool
deriving DecidableEq, Repr

/-- The event unit: routes other than ring 0 (255 masks), staging, and the sources already raised in this tick where only the
first of a tick is reported. -/
structure EventUnit where
  routes : Tbl Nat
  staging : List EvRec
  seen : List Nat
deriving DecidableEq, Repr

/-- A programmable counter (R479, R480): mode 0 OFF, 1 EDGE, 2 LEVEL; kind 1 statistic, 2 condition, which `held` at the last boundary. -/
structure Prog where
  mode : Nat
  kind : Nat
  group : Nat
  stat : Nat
  first : Nat
  last : Nat
  value : Nat
  gen : Nat
  held : Bool := false
deriving DecidableEq, Repr

/-- A waiting change of the first kind of R475. -/
inductive ClearReq where
  | clear (ref : CmdRef) (group first count : Nat)
  | block (ref : CmdRef) (block : Nat) (first : Option Nat)
deriving DecidableEq, Repr

/-- A waiting reprogramming of a programmable counter. -/
structure ProgReq where
  ref : CmdRef
  counter : Nat
  prog : Prog
deriving DecidableEq, Repr

/-- Settings of the counter dump ring (R488). -/
structure DumpSet where
  enable : Bool
  slots : Nat
  period : Nat
  base : Nat
  slotSize : Nat
  select : List (Nat × Nat × Nat)
deriving DecidableEq, Repr

/-- A dump being written: the snapshot it names and what its header carries (R484, R486, R487). -/
structure DumpJob where
  cycle : Nat
  prev : Nat
  seq : Nat
  skipped : Nat
  values : Tbl Nat
  delta : Tbl Nat
  cleared : List (Nat × Nat × Nat)
  wrapped : List Nat
  progs : Tbl Prog
  head : Nat
  settings : DumpSet
deriving DecidableEq, Repr

/-- The counter unit (chapter 20). `cleared` holds the ranges (group, first instance, count) cleared or bound since the last dump
started; `snapDelta`, `snapCleared` and `snapWrapped` are what `delta`, `cleared` and `wrapped` were at the snapshot. -/
structure CounterUnit where
  live : Tbl Nat
  snap : Tbl Nat
  snapC : Nat
  snapHi : Nat
  permit : Nat
  blocks : Tbl Nat
  progs : Tbl Prog
  snapProgs : Tbl Prog
  windows : Tbl (Nat × Nat)
  clears : List ClearReq
  reprograms : List ProgReq
  dump : DumpSet
  dumpPend : List (CmdRef × DumpSet)
  dumpHead : Nat
  dumpTail : Nat
  dumpSeq : Nat
  dumpPrev : Nat
  dumpSkip : Nat
  job : Option DumpJob
  delta : Tbl Nat
  cleared : List (Nat × Nat × Nat)
  wrapped : List Nat
  snapDelta : Tbl Nat := []
  snapCleared : List (Nat × Nat × Nat) := []
  snapWrapped : List Nat := []
deriving DecidableEq, Repr

/-- Heavy operations (R493). -/
inductive HeavyOp where
  | quietWindow (tree q : Nat)
  | wakeTree (tree : Nat)
  | wakeUplink (uplink : Nat)
  | wakeTowpath (link : Nat)
  | recorderFlush (capture : Nat)
  | massRekey (job : Nat)
  | rulesetInstall (slot : Nat)
  | tableRebuild (job : Nat)
  | hbmRinse
deriving DecidableEq, Repr

/-- The Adesa index of an operation's type (R493). -/
def HeavyOp.code : HeavyOp → Nat
  | .quietWindow _ _ => 8
  | .wakeTree _ => 9 | .wakeUplink _ => 9 | .wakeTowpath _ => 9
  | .recorderFlush _ => 10
  | .massRekey _ => 11
  | .rulesetInstall _ => 12
  | .tableRebuild _ => 13
  | .hbmRinse => 14

/-- The tokens of an operation (R493). -/
def HeavyOp.cost : HeavyOp → Nat
  | .quietWindow _ _ => 2
  | .wakeTree _ => 2
  | .wakeUplink _ => 12
  | .wakeTowpath _ => 3
  | .recorderFlush _ => 8
  | .massRekey _ => 4
  | .rulesetInstall _ => 6
  | .tableRebuild _ => 4
  | .hbmRinse => 8

/-- A request waiting in the Sluice FIFO (R494): the index of R30, the tick of the request, and the command that waits for
it, if one does. -/
structure SluiceReq where
  op : HeavyOp
  index : Nat
  since : Nat
  ref : Option CmdRef
  reported : Bool
deriving DecidableEq, Repr

/-- Tokens held by an admitted operation; `ended` is the tick in which the operation ended. -/
structure HeldOp where
  op : HeavyOp
  admitted : Nat
  ended : Option Nat
deriving DecidableEq, Repr

/-- Sluice (R492 to R496, R507, R508). -/
structure Sluice where
  budget : Nat
  waitLimit : Nat
  prio : List Nat
  base : Nat
  fifo : List SluiceReq
  held : List HeldOp
  admitted : Nat
  refused : Nat
  reserve : Nat
  tj : Int
  warn : Bool
  high : Bool
  pend : List (CmdRef × Nat × Nat × List Nat)
deriving DecidableEq, Repr

/-- Power states (R490). -/
inductive PowerState where
  | active | trim | quiet | doze | offVbat
deriving DecidableEq, Repr

/-- STATE of R506. -/
def PowerState.code : PowerState → Nat
  | .active => 0 | .trim => 1 | .quiet => 2 | .doze => 3 | .offVbat => 4

/-- One transfer on a module bus (R60, R61): the switch at address 0x70 connects a channel or none, a page is read, a setting is written; or the recovery of a bus
whose SDA is held low: nine clocks of SCL and a STOP (R62). -/
inductive BusOp where
  | recover
  | select (channel : Nat)
  | readA0
  | readA2
  | writeTxDisable (on : Bool)
  | writeRate (value : Nat)
  | deselect
deriving DecidableEq, Repr

/-- An access that waits for a module bus (R61): its tree, and whether it also reads the identity. -/
structure BusAccess where
  tree : Nat
  identity : Bool
deriving DecidableEq, Repr

/-- A module bus (R60 to R62): the channels its switch connects (one bit each), the accesses that wait in request order, and the transfers of the last one. -/
structure ModuleBus where
  connected : Nat
  queue : List BusAccess
  done : List BusOp
deriving DecidableEq, Repr

/-- The identity and power of the device (R2, R443, R490, R499). `restarts` holds the ticks of management restarts, `resetAt` when a commanded system reset
begins, `resetCause` the cause that RESET_CAUSE has still to report, 0 once it has (R514); `restoreDue` until Adesa has restored the settings after a boot (R498). `subsys` is the pair of PCI subsystem IDs that the boot loader took from a
valid system section of the flash (R505); none: Thoja's PCI vendor ID and 0x6408. -/
structure DeviceUnit where
  variant : Nat
  devAddr : Nat
  strap : Nat
  unitId : Nat
  eui64 : Nat
  fwVersion : Nat
  stepping : Nat
  power : PowerState
  powerPend : List (CmdRef × PowerState)
  resetCause : Nat
  resetAt : Option Nat
  mgmtRestartRef : Option CmdRef
  restarts : List Nat
  slot : Nat
  subsys : Option (Nat × Nat)
  restoreDue : Bool
  tckAt : Option Nat
  busFast : List Nat
  busFaulty : List Nat
  buses : List ModuleBus
deriving DecidableEq, Repr

/-- Boundary-scan and debug module (R500, R501). Each core has its halt flag, program counter steps taken under debug,
8 breakpoints and 4 watchpoints. -/
structure CoreDebug where
  halted : Bool
  steps : Nat
  breakpoints : List (Option Nat)
  watchpoints : List (Option (Nat × Nat × Bool × Bool))
deriving DecidableEq, Repr

structure DebugUnit where
  cores : List CoreDebug
  scanIn : List Bool
  scanPreload : List Bool
  scanDriven : Option (List Bool)
  mgmtMem : List Host.Cell
  lastRead : Nat
  lastError : Bool
deriving DecidableEq, Repr

/-- Sections of the board profile in force and in flash (R54, R271, R391, R505), each as its bytes; none where no valid
section exists. -/
structure Profile where
  tree : Option Bytes
  uplink : Option Bytes
  towpath : Option Bytes
  system : Option Bytes
deriving DecidableEq, Repr

/-- Main reference selection (R36, R37): 0 REFCLK_A, 1 REFCLK_B; `selected` none is holdover. `waitA` and `waitB` are the ticks from which a reference
that has been bad may be good again, none where it has not been bad since reset (log entry 103). -/
structure RefClk where
  goodA : Bool
  goodB : Bool
  waitA : Option Nat
  waitB : Option Nat
  selected : Option Nat
  pref : Nat
  revertive : Bool
  pendPref : Option (Nat × Bool)
  switchTo : Option Nat
deriving DecidableEq, Repr

/-- The lock cycle (R13, R20, R359): the cycle number, the key clock, the clock of 0.8 ns since reset at which the current tick began, what is allowed before the first
attach, and the error block that ends with the tick in progress or ended at the last boundary so (R318). -/
structure Clock where
  cycle : Nat
  keyClock : Nat
  base : Nat
  everAttached : Bool
  cycleLoaded : Bool
  tickLengthened : Bool
  lengthenTo : Option Nat
  loadCycle : Option Nat
  inBoundary : Bool
  blockDue : Bool := false
  blockDone : Option Nat := none
deriving DecidableEq, Repr

end Sys2Proof.Machine
end

