-- ==== Sys2Proof/Machine/TypesTree.lean ====
section
/-!
DEFINITION. The state of one tree port (chapters 02 to 06): lanes and wake, module, the downstream frame in progress,
upstream reception, discovery and the terminal life cycle, standing and dynamic grants, quiet-window coordination.
-/
namespace Sys2Proof.Machine

/-- A pair of tree lanes (R57, R58): idle, waking since the boundary of admission (with a failure noted during the wake
tick), lit, or the receive lane alone of a standby port. -/
inductive LaneState where
  | idle
  | waking (since : Nat) (failed : Bool)
  | lit
  | standby
deriving DecidableEq, Repr

/-- Where a wake series stands (R59). -/
inductive WakePhase where
  | waiting
  | admitted (boundary : Nat)
  | pausing (retryAt : Nat)
deriving DecidableEq, Repr

/-- A wake series (R59): the attempts that failed, and the TREE_ATTACH it serves, if one does. -/
structure WakeSeries where
  failures : Nat
  phase : WakePhase
  ref : Option CmdRef
deriving DecidableEq, Repr

/-- States of a terminal at the head-end (R126). -/
inductive TermState where
  | listed | ranging | inService | quarantined | dozing | lost
deriving DecidableEq, Repr

/-- STATE of TERMINAL_STATUS (R142). -/
def TermState.code : TermState → Nat
  | .listed => 0 | .ranging => 1 | .inService => 2 | .quarantined => 3 | .dozing => 4 | .lost => 5

/-- A WEIR place (R147). -/
structure WeirPlace where
  ncw : Nat
  start : Nat
deriving DecidableEq, Repr

/-- A CADENCE place (R147): due when (X − phase) mod n = 0, with its hint flow. -/
structure CadPlace where
  n : Nat
  phase : Nat
  ncw : Nat
  start : Nat
  hint : Option Nat
deriving DecidableEq, Repr

/-- A standing set (R532): at most one WEIR place and the CADENCE places by slot. -/
structure StandSet where
  weir : Option WeirPlace
  cads : Tbl CadPlace
deriving DecidableEq, Repr

/-- A standing table sent or to be sent (R154). -/
structure StandTable where
  version : Nat
  from_ : Nat
  set : StandSet
  sent : Bool
deriving DecidableEq, Repr

/-- A change of R that waits for its tick (R116): of RANGE_ADJUST (R129), which reduces the tracked offset, or of ADMIT or QUARANTINE (`reset`), after which
the offset is zero. -/
structure RangeAdj where
  offset : Int
  range : Nat
  apply : Nat
  reset : Bool
deriving DecidableEq, Repr

/-- A doze (R133 to R135): wake ticks are `start + m × period`, moved behind a quiet window. `goneFrom` is the first tick whose wake place a TERMINAL_REMOVE withdrew. -/
structure Doze where
  period : Nat
  start : Nat
  wakeB : Nat
  confirmed : Bool
  nextWake : Nat
  missed : Nat
  endAt : Option Nat
  goneFrom : Option Nat
deriving DecidableEq, Repr

/-- A terminal's doze policy (R142). -/
structure DozePolicy where
  enable : Bool
  period : Nat
  idle : Nat
deriving DecidableEq, Repr

/-- A parcel being reassembled (R102). -/
structure Reasm where
  flow : Nat
  kp : Bool
  twin : Bool
  body : Bytes
  cycle : Nat
  ctr : Nat
deriving DecidableEq, Repr

/-- A fragment whose body goes on in the terminal's next barge, after a codeword dropped under R49. -/
structure PartFrag where
  flow : Nat
  need : Nat
  first : Bool
  last : Bool
  kp : Bool
  twin : Bool
  body : Bytes
  cycle : Nat
  ctr : Nat
deriving DecidableEq, Repr

/-- A terminal listed on a tree. -/
structure Term where
  serial : Nat
  staticId : Option Nat
  id : Option Nat
  fecAtAdmit : Bool
  lostTime : Nat
  state : TermState
  range : Nat
  offset : Int
  model : Nat
  caps : Nat
  adj : Option RangeAdj
  admitFrom : Option Nat
  admission : Bool
  rangingPlaces : List Nat
  missed : Nat
  aliveAt : Nat
  windows : Nat
  fec : Bool
  fecSet : Option (Bool × Nat)
  policy : DozePolicy
  doze : Option Doze
  emptySince : Option Nat
  bip8 : Nat
  darnBytes : Nat
  corrCw : Nat
  uncorrCw : Nat
  lastRei : Option (Nat × Nat)
  resync : Bool
  reasm : List Reasm
  part : Option PartFrag
  set : StandSet
  tables : List StandTable
  tablesSent : Nat
  setReturned : Bool
  removing : Option CmdRef
deriving DecidableEq, Repr

/-- An id held for a serial (R131). -/
structure IdHold where
  serial : Nat
  id : Nat
  until_ : Nat
deriving DecidableEq, Repr

/-- A shadow place (R148, R152). -/
structure Shadow where
  tid : Nat
  start : Nat
  ncw : Nat
  fec : Bool
  n : Nat
  phase : Nat
  from_ : Nat
  dark : Nat
deriving DecidableEq, Repr

/-- A listed grant (R155), with the codewords each queue put into it and how many of them
in the assured pass (for charging, R159, R160 and R164). -/
structure Grant where
  tid : Nat
  start : Nat
  ncw : Nat
  kind : Nat
  flow : Nat
  cls : Nat
  shares : List (Nat × Nat × Nat)
deriving DecidableEq, Repr

/-- A manifest (R74) for a target tick. `missed` says it is a substitute (R166). -/
structure Manifest where
  target : Nat
  grants : List Grant
  missed : Bool
deriving DecidableEq, Repr

/-- The grant setting and backlog record of an upstream queue (R147, R159, R160): mode 0 default, 1 BEST, 2 REPORTED. -/
structure GrantQ where
  mode : Nat
  weight : Nat
  ar : Nat
  pr : Nat
  a : Int
  p : Int
  reported : Nat
  reportTick : Nat
  granted : List (Nat × Nat)
deriving DecidableEq, Repr

/-- A queue report waiting for its boundary (R159); no queue means that every record of the terminal becomes zero. -/
structure QReport where
  tid : Nat
  queue : Option Nat
  bytes : Nat
  tick : Nat
  takeAt : Nat
deriving DecidableEq, Repr

/-- An accepted hail (R112, R113). -/
structure Hail where
  d : Nat
  last : Nat
  serial : Nat
  model : Nat
  caps : Nat
  nonce : Nat
deriving DecidableEq, Repr

/-- Quiet-window settings (R117, R118). -/
structure QwSet where
  reach : Nat
  mode : Nat
  period : Nat
  phase : Nat
deriving DecidableEq, Repr

/-- A quiet window that was admitted: its first tick, width, hails, collisions, and the positions of hails discarded for an overlap
(R113, R119, R120). -/
structure QwOpen where
  q : Nat
  w : Nat
  hails : List Hail
  collided : Bool
  spoiled : List Nat
deriving DecidableEq, Repr

/-- A window claim (R168): claim index, first tick, width and yield count. -/
structure Claim where
  g : Nat
  q : Nat
  w : Nat
  y : Nat
deriving DecidableEq, Repr

/-- A discovery log entry (R143). -/
structure HailLog where
  cycle : Nat
  serial : Nat
  range : Nat
  outcome : Nat
  id : Nat
deriving DecidableEq, Repr

/-- When a lock message's named tick cannot be kept (R125). -/
inductive TickRule where
  | plain | oneTerminal | wake | shared
deriving DecidableEq, Repr

/-- What the head-end itself does at a message's named tick (R125), and what a message stands for when it is sent. -/
inductive MsgKind where
  | other
  | admitMsg | rangeAdjust | quarantine | fecSet | dozeOffer | dozeEnd | remove
  | standing
  | flowBind (flow : Nat) (bind : Bool)
  | timeOffset
  | netTrigger (second : Bool)
  | handover
  | leaseMove
  | keyWrap
  | tswActivate
deriving DecidableEq, Repr

/-- A queued lock message (R85, R86, R125). `auth`: 0 never, 1 always, 2 once the terminal holds a downstream SA. The named
tick, if there is one, stands between `pre` and `post` as six bytes. The message is not sent before frame `notBefore`. -/
structure LockMsg where
  dest : Nat
  typ : Nat
  auth : Nat
  pre : Bytes
  tick : Option Nat
  post : Bytes
  rank : Nat
  rule : TickRule
  kind : MsgKind
  serial : Nat
  notBefore : Nat
  ref : Option CmdRef
  resp : Bytes
deriving DecidableEq, Repr

/-- A berth (R75): terminal, first slot, number of slots. -/
structure Berth where
  tid : Nat
  first : Nat
  slots : Nat
deriving DecidableEq, Repr

/-- A downstream parcel being fragmented, one per scheduling level (R83, R207, R211). -/
structure Fragment where
  queue : Nat
  flow : Nat
  kp : Bool
  twin : Bool
  rest : Bytes
  firstFrame : Nat
  frameKey : Nat
deriving DecidableEq, Repr

/-- The frame in progress (R64, R72): its header, the sections' bytes, the berths' bytes and the ordinary stream so far. `ord` holds the bytes filled, carried
slots and leftover body first, up to the next header position; it may reach beyond the end of the frame. -/
structure FrameWork where
  cycle : Nat
  header : Bytes
  bmap : Bytes
  man : Bytes
  lm : Bytes
  berths : List (Berth × Bytes)
  ord : Bytes
  ordFirst : Option Nat
deriving DecidableEq, Repr

/-- A frame as sent (R40, R64): its header, the 232 data bytes of each codeword slot, the first slot withheld (R45), the ballast bits used, and BIP32 over its
line bits (R70). -/
structure SentFrame where
  cycle : Nat
  header : Bytes
  slots : List Bytes
  withheldFrom : Option Nat
  used : Nat
  bip : Nat
deriving DecidableEq, Repr

/-- Data read from a tree's optical module (R61, R512): A0h identity and A2h diagnostics. -/
structure ModuleData where
  vendor : Bytes
  part : Bytes
  serial : Bytes
  temp : Nat
  txPower : Nat
  rxPower : Nat
deriving DecidableEq, Repr

/-- Module settings (R511). -/
structure ModuleSet where
  txDisableIdle : Bool
  rateSelect : Nat
  written : Option (Bool × Nat)
deriving DecidableEq, Repr

/-- Whether a tree is detached, being attached by a command, or attached (R509, R510). -/
inductive Attach where
  | detached
  | attaching (ref : CmdRef) (sealAt : Bool)
  | attached
deriving DecidableEq, Repr

/-- Upper part of a tree port: lanes, wake and module (chapter 02). `brst` lists the pulses of TREE_BRST from the tick in progress on, as (tick, first bit), each 64
bit times long (R50, R52); `training` is the last training burst sent, with its tick (R58); `polledAt` the tick of the last status access asked for (R61). -/
structure Lanes where
  state : LaneState
  wake : Option WakeSeries
  nextSeries : Option Nat
  eq : Option Bytes
  brst : List (Nat × Nat)
  training : Option (Nat × Bytes)
  polledAt : Option Nat
  module : Option ModuleData
  mset : ModuleSet
deriving DecidableEq, Repr

/-- The downstream part of a tree port (chapter 03). `carried` are the slots withheld from the frame before (R47), `carriedFirst` the first header position in
them, `leftover` the rest of a body that runs on, `ranOn` the flows with bytes in either; `frags` the incomplete parcels by level (R211); `maps` the berth maps
announced, by FROM. -/
structure Down where
  work : Option FrameWork
  sent : Option SentFrame
  carried : List Bytes
  leftover : Bytes
  frags : Tbl Fragment
  lm : List LockMsg
  maps : List (Nat × List Berth)
  carriedFirst : Option Nat
  ranOn : List Nat
deriving DecidableEq, Repr

/-- The discovery part of a tree port (chapter 05). -/
structure Discovery where
  settings : QwSet
  settingsPend : List QwSet
  windows : List QwOpen
  kept : List (Nat × Nat)
  lastEnd : Option Nat
  collSeen : Option Nat
  log : List HailLog
  yields : Nat
  claims : List Claim
  claimed : List (Nat × Nat)
deriving DecidableEq, Repr

/-- The Lockkeeper part of a tree port (chapter 06). `stateOk` names, as (TID, KIND), the places of the manifest last built whose
terminals were then in the state required (R165). -/
structure Keeper where
  poll : Nat
  manifests : Tbl Manifest
  building : Option Manifest
  missRun : Nat
  gq : Tbl GrantQ
  reports : List QReport
  shadows : List Shadow
  confirms : List (Nat × Nat)
  stateOk : List (Nat × Nat) := []
deriving DecidableEq, Repr

/-- A tree port. -/
structure Tree where
  attach : Attach
  since : Nat
  sealed : Bool
  sealPend : List (CmdRef × Bool)
  detachPend : Option CmdRef
  epoch : Nat
  prevEpoch : Nat
  lanes : Lanes
  down : Down
  disc : Discovery
  keep : Keeper
  terms : List Term
  holds : List IdHold
deriving DecidableEq, Repr

end Sys2Proof.Machine
end

