-- ==== Sys2Proof/Machine/TypesLine.lean ====
section
/-!
DEFINITION. The state of line defects and performance monitoring (chapter 13) and of the security unit (chapter 15).
-/
namespace Sys2Proof.Machine

/-- One error block: errors and covered bits (R318). -/
structure Block where
  errors : Nat
  bits : Nat
deriving DecidableEq, Repr

/-- A source of error ratios (R318): the block in progress and the ended blocks, newest first, up to 120. -/
structure ErrSource where
  cur : Block
  past : List Block
deriving DecidableEq, Repr

/-- One settled or unsettled PM second (R325, R326): ES, SES and UAS, and the bin it belongs to by its first tick. -/
structure PmSecond where
  es : Bool
  ses : Bool
  uas : Bool
  bin : Nat
deriving DecidableEq, Repr

/-- A PM bin (R327, R329); `ended` is the boundary of its end once it has ended. -/
structure PmBin where
  start : Nat
  startSec : Nat
  seconds : Nat
  es : Nat
  ses : Nat
  uas : Nat
  esFe : Nat
  sesFe : Nat
  uasFe : Nat
  suspect : Bool
  steps : Nat
  ended : Option Nat
deriving DecidableEq, Repr

/-- The seconds of one direction (near end or far end): the second in progress, the delay line of R326, newest first, and
whether the time is unavailable. -/
structure PmLine where
  errors : Nat
  bits : Nat
  loss : Bool
  line : List PmSecond
  unavail : Bool
deriving DecidableEq, Repr

/-- A PM entity with its bins (R325 to R327): the open bin, the bins still closing, and the closed bins, newest first. -/
structure PmEntity where
  near : PmLine
  far : PmLine
  dayBins : Bool
  open_ : Option PmBin
  closing : List PmBin
  closed : List PmBin
deriving DecidableEq, Repr

/-- Thresholds of a tree (R319). -/
structure Thresholds where
  sdExp : Nat
  sfExp : Nat
  setBlocks : Nat
  clearBlocks : Nat
  sesExp : Nat
deriving DecidableEq, Repr

/-- The places of a terminal in the tick in progress (R320, R321): placed, accepted, dark, delineation misses. -/
structure PlaceTick where
  placed : Nat
  accepted : Nat
  dark : Nat
  delim : Nat
deriving DecidableEq, Repr

/-- Defect runs of a terminal (R320): LOSi set run, LOBi set run and whether it holds a delineation miss, their clear runs,
and the tick of the last accepted barge with DG = 1. -/
structure TermLine where
  defects : Nat
  tick : PlaceTick
  darkRun : Nat
  missRun : Nat
  missDelim : Bool
  losClear : Nat
  lobClear : Nat
  dgSeen : Option Nat
  path : ErrSource
  farEnd : ErrSource
  pm : PmEntity
  lastBarge : Option Nat
deriving DecidableEq, Repr

/-- Defects of a tree (R320) with its thresholds, error source, runs of silent and of clear counted ticks, and PM. -/
structure TreeLine where
  defects : Nat
  counted : Bool
  energy : Bool
  silentRun : Nat
  clearRun : Nat
  path : ErrSource
  thr : Thresholds
  thrPend : Option Thresholds
  pm : PmEntity
  terms : Tbl TermLine
deriving DecidableEq, Repr

/-- One phase slot of one direction of a tree SA (R358). A slot without a key is an alias of the other slot. -/
structure KeySlot where
  key : BitVec 256
  salt : BitVec 32
  koff : Nat
deriving DecidableEq, Repr

/-- Stop causes of an SA (R363). -/
inductive StopCause where
  | kc | ctr
deriving DecidableEq, Repr

/-- A rekey of one terminal in progress (R372). -/
structure Rekey where
  x : Nat
  phase : Bool
  u : Nat
  ref : Option CmdRef
  erasedDown : Bool
deriving DecidableEq, Repr

/-- The keys of one terminal's key-store slot (R357, R358, R370, R372). `firstX` is the boundary of the first keying; the
downstream SA is held from frame `firstX + 32`. `ctrs` counts the items of the frame in progress (ordinary, lock message). -/
structure TermKeys where
  tk : Option (BitVec 256)
  down : List (Option KeySlot)
  up : List (Option KeySlot)
  downPhase : Bool
  firstX : Option Nat
  rekey : Option Rekey
  stopped : Option StopCause
  ctrOrd : Nat
  ctrLm : Nat
  downFrom : Nat
  lastRekey : Nat
deriving DecidableEq, Repr

/-- A mass rekey (R374): its scope and the command that waits for it. -/
structure MassRekey where
  job : Nat
  scope : Nat
  unit_ : Nat
  ref : CmdRef
  x : Option Nat
deriving DecidableEq, Repr

/-- An uplink SA (R368, R383). `nextPn` is the next PN to send, or the next after the highest received; `low` the lowest acceptable PN of a receive SA. -/
structure MacsecSa where
  key : BitVec 256
  tx : Bool
  sub : Nat
  sci : Nat
  ssci : Nat
  an : Nat
  confOffset : Nat
  replay : Nat
  salt : Nat
  nextPn : Nat
  low : Nat
  stopped : Bool
  installed : Nat
deriving DecidableEq, Repr

/-- A plaintext unit held until its tag verifies, with what the cipher will say of it (R366): a reassembled upstream parcel.
`C` is the tick of the barge that carried its first fragment and `ctr` its count. -/
structure CipherUnit where
  tree : Nat
  tid : Nat
  flow : Nat
  kp : Bool
  twin : Bool
  body : Bytes
  cycle : Nat
  ctr : Nat
deriving DecidableEq, Repr

/-- A unit in one half of a hold buffer, with its place in the order in which the units of its group entered (R366). -/
structure HeldUnit where
  seq : Nat
  u : CipherUnit
deriving DecidableEq, Repr

/-- A cipher pipeline: the two halves of its hold buffer (R28, R366). -/
structure CipherPipe where
  halfA : Option HeldUnit
  halfB : Option HeldUnit
deriving DecidableEq, Repr

/-- A unit at the input of its group, ready at a clock (R356). -/
structure CipherWait where
  ready : Nat
  u : CipherUnit
deriving DecidableEq, Repr

/-- A plaintext parcel released by the cipher, on its way to pairing (R16). -/
structure PlainUnit where
  tree : Nat
  tid : Nat
  flow : Nat
  twinTag : Option Nat
  frame : Bytes
deriving DecidableEq, Repr

/-- A unit in a pipeline of its group (R356): its tree, uplink or link, its 16-byte blocks, whether it takes a half of the hold buffer, the pipeline and the
clock of its first byte there. -/
structure CipherUse where
  index : Nat
  blocks : Nat
  held : Bool
  pipe : Nat
  start : Nat
deriving DecidableEq, Repr

/-- From which clocks the input and the two halves of a pipeline are free. -/
structure PipeFree where
  input : Nat
  halfA : Nat
  halfB : Nat
deriving DecidableEq, Repr

/-- A group of pipelines (R28, R356): `free` is how its pipelines stood before clock `clk`, the last in which a unit was ready for it, and `uses` the units of
that clock in the order of R9. -/
structure CipherGroup where
  free : List PipeFree
  clk : Nat
  uses : List CipherUse
deriving DecidableEq, Repr

/-- Lifecycle states (R379). -/
inductive Lifecycle where
  | manufacture | provisioned | secured | alarmed | decommissioned
deriving DecidableEq, Repr

def Lifecycle.code : Lifecycle → Nat
  | .manufacture => 0 | .provisioned => 1 | .secured => 2 | .alarmed => 3 | .decommissioned => 4

/-- Debug states (R380), with the end of a CHALLENGE-OPEN window in ticks. -/
inductive DebugState where
  | closed
  | challengeOpen (until_ : Nat)
  | opened
deriving DecidableEq, Repr

def DebugState.code : DebugState → Nat
  | .closed => 0 | .challengeOpen _ => 1 | .opened => 2

/-- A tamper action (R377). -/
inductive TamperAction where
  | log | alarm | erase
deriving DecidableEq, Repr

def TamperAction.code : TamperAction → Nat
  | .log => 0 | .alarm => 1 | .erase => 2

/-- The VBAT domain (R378): owner key, ALARMED record and the log of source and seconds. -/
structure Vbat where
  ownerKey : Option (BitVec 256)
  alarmed : Bool
  log : List (Nat × Nat)
  keyLost : Bool
deriving DecidableEq, Repr

/-- The security unit (chapter 15). `txActive` is the transmit SA in force of each uplink sub-port, `rekeyPend` the rekeys (tree, id) that wait for a
boundary or for the end of a doze. `treeKp` holds the header key phase of each tree where it is 1. -/
structure Security where
  keys : Tbl TermKeys
  treeKp : Tbl Bool
  mass : List MassRekey
  nextJob : Nat
  macsec : Tbl MacsecSa
  macsecPorts : List Nat
  txPend : List (CmdRef × Nat × Nat)
  txActive : Tbl Nat
  rekeyPend : List (Option CmdRef × Nat × Nat)
  fabricKey : Option (BitVec 256)
  fabricSalt : Nat
  object : Nat
  pipes : List CipherPipe
  groups : List CipherGroup
  cipherSeq : Nat
  cipherIn : List CipherWait
  released : List PlainUnit
  vbat : Vbat
  authHash : Option (BitVec 384)
  lifecycle : Lifecycle
  flashAlarmed : Bool
  debug : DebugState
  challenge : Option (Nat × Nat)
  actions : List TamperAction
  failLimit : Nat
  fails : Nat
deriving DecidableEq, Repr

end Sys2Proof.Machine
end

