-- ==== Sys2Proof/Machine/TypesData.lean ====
section
/-!
DEFINITION. The state of the buffer pool, the Feeder and the egress schedulers (chapters 07 and 08), and the configuration
changes that wait for a tick boundary (R21 step 4).
-/
namespace Sys2Proof.Machine

/-- A frame held in the pool (R177, R190): its bytes (without FCS), flow, class, charged requester, classifier entry version,
receiving INPUT and PORT, the cells of a frame in basin, and how many copies refer to it. -/
structure Frm where
  data : Bytes
  flow : Nat
  cls : Nat
  req : Nat
  version : Nat
  input : Nat
  port : Nat
  cells : List Nat
  refs : Nat
  copies : Nat
  twinTag : Option Nat
deriving DecidableEq, Repr

/-- Where a queue entry stands (R178, R192, R194): linked in basin; being written to reservoir; held in reservoir; waiting for its
refill claim; being read; read complete. -/
inductive Place where
  | basin
  | writing
  | reservoir
  | claiming
  | reading
  | readDone
deriving DecidableEq, Repr

/-- A frame in a queue. `resv` are the reservoir cells it holds; `src` is the shared frame whose data a spill write copies into them (R191). -/
structure QEnt where
  frame : Nat
  place : Place
  resv : List Nat
  src : Option Nat
deriving DecidableEq, Repr

/-- What an HBM request does: the spill write or the refill read of a frame of a queue, or the ring write of a pile (R192, R194, R421). -/
inductive HbmWork where
  | spill (queue frame : Nat)
  | refill (queue frame : Nat)
  | pile (slot : Nat)
deriving DecidableEq, Repr

/-- An HBM request (R26, R31): its requester, its transactions of 256 bytes, how many of them hold slots, and the clock in which it asked, where the
command names one. -/
structure HbmReq where
  req : Nat
  n : Nat
  held : Nat
  asked : Option Nat
  work : HbmWork
deriving DecidableEq, Repr

/-- A queue (R178): its three parts, oldest first, its profile, its DRR values (R208) and its histogram unit (R219). -/
structure Queue where
  basin : List QEnt
  refill : List QEnt
  resv : List QEnt
  profile : Nat
  quantum : Nat
  deficit : Int
  credited : Bool
  hist : Option Nat
  heldGate : Bool
  underrun : Bool
deriving DecidableEq, Repr

/-- A queue profile (R199, R200). -/
structure QProfile where
  maxBytes : Nat
  sample : Bool
  basinOnly : Bool
  spillHi : Nat
  refillLo : Nat
deriving DecidableEq, Repr

/-- A flow (R197, R198). `bound` is the frame from which parcels may flow, once its FLOW_BIND has been sent. -/
structure Flow where
  dir : Nat
  tree : Nat
  id : Nat
  serial : Nat
  egress : Nat
  accepting : Bool
  acceptFrom : Nat
  bound : Option Nat
  deleting : Option CmdRef
  drain : Bool
  drainUntil : Nat
  unbindWait : Bool
  unbound : Bool
deriving DecidableEq, Repr

/-- States of basin and reservoir (R183, R185). -/
inductive PoolState where
  | normal | notice | pressure | emergency
deriving DecidableEq, Repr

def PoolState.code : PoolState → Nat
  | .normal => 0 | .notice => 1 | .pressure => 2 | .emergency => 3

/-- A background write of a range of queues (R199, R224). -/
inductive BgWhat where
  | profile (p : Nat)
  | quantum (q : Nat)
  | hist (bind : Bool) (unit_ n : Nat)
deriving DecidableEq, Repr

structure BgJob where
  ref : CmdRef
  what : BgWhat
  next : Nat
  last : Nat
deriving DecidableEq, Repr

/-- The buffer pool (chapter 07). `basin` gives the charged requester of every held basin cell, `resv` the held reservoir
cells; `basinFree` and `resvFree` count the free lists (R189); `claims` are the refill claims that wait, in issue order, as queue and frame;
`hbm` are the HBM requests in the order of R31, and `hbmFull` says that all slots were held in this tick; `clockIn` are the frames that took cells in the last clock in which one
did, as requester and frame (R30). -/
structure Pool where
  basin : Tbl Nat
  resv : Tbl Nat
  basinFree : Nat
  resvFree : Nat
  hbm : List HbmReq
  hbmFull : Bool
  frames : Tbl Frm
  nextFrame : Nat
  profiles : Tbl QProfile
  flows : Tbl Flow
  queues : Tbl Queue
  feederOn : Bool
  hbmFault : Bool
  hbmUsable : Bool
  weirReserve : Nat
  refillReserve : Nat
  quota : List Nat
  quotasOn : Bool
  basinState : PoolState
  resvState : PoolState
  claims : List (Nat × Nat)
  jobs : List BgJob
  clockIn : Nat × List (Nat × Nat) := (0, [])
deriving DecidableEq, Repr

/-- An egress point's scheduler (R204 to R211, R224, R225): FRAG_BYTES, OVERHEAD, STARVE, in each of
classes 0 to 3 the queue number after the one last served, the DRR active list, and the run of ticks in which the DRR level had an eligible queue and sent nothing, with how much of it was
reported. -/
structure Point where
  fragBytes : Nat
  overhead : Int
  starve : Nat
  last : List Nat
  active : List Nat
  idleRun : Nat
  starveSeen : Nat
  drrHad : Bool
  drrSent : Bool
deriving DecidableEq, Repr

/-- A token bucket (R212 to R217): mode 0 OFF, 1 SHAPER, 2 POLICER; tokens in 1/4,096 byte; `entry` is the wheel slot number at
which the shaper is next looked at, if it is entered or parked. -/
structure Bucket where
  mode : Nat
  classes : Nat
  demote : Bool
  demoteClass : Nat
  rate : Nat
  burst : Nat
  tokens : Int
  last : Nat
  entry : Option Nat
deriving DecidableEq, Repr

/-- A histogram unit (R219 to R222); the buckets themselves are counters. `full` are the buckets that saturated since the last
clear. -/
structure Hist where
  nlog2 : Nat
  lfsr : BitVec 32
  full : List Nat
deriving DecidableEq, Repr

/-- The egress schedulers (chapter 08). `samples` is the sample table: frame, queue, unit and link time in clocks. -/
structure Sched where
  points : Tbl Point
  buckets : Tbl Bucket
  hists : Tbl Hist
  samples : List (Nat × Nat × Nat × Nat)
deriving DecidableEq, Repr

/-- A change of configuration that a command requested and the next boundary applies (R21 step 4), in request order. -/
inductive CfgChange where
  | flowDelete (ref : CmdRef) (r : FlowDelReq)
  | profileSet (ref : CmdRef) (r : ProfileReq)
  | feeder (ref : CmdRef) (r : FeederReq)
  | poolWrite (ref : CmdRef) (r : PoolReq)
  | shaper (ref : CmdRef) (r : ShaperReq)
  | point (ref : CmdRef) (r : PointReq)
  | weir (ref : CmdRef) (r : WeirReq)
  | cadence (ref : CmdRef) (r : CadenceReq)
  | reported (ref : CmdRef) (r : QueueGrantReq)
  | best (ref : CmdRef) (r : QueueGrantReq)
  | dfltGrant (ref : CmdRef) (r : QueueGrantReq)
  | treeParams (ref : CmdRef) (tree poll : Nat)
  | fdbGlobal (ref : Option CmdRef) (r : FdbGlobalReq)
  | fdbDomain (ref : CmdRef) (r : FdbDomainReq)
  | fdbMember (ref : CmdRef) (r : FdbMemberReq)
  | fdbLimit (ref : CmdRef) (r : FdbLimitReq)
  | camLayout (ref : CmdRef) (r : CamLayoutReq)
  | upPort (ref : CmdRef) (r : UpPortReq)
  | gateList (ref : CmdRef) (r : GateListReq)
  | steer (ref : CmdRef) (r : SteerReq)
deriving DecidableEq, Repr

end Sys2Proof.Machine
end

