-- ==== Sys2Proof/Machine/TypesProt.lean ====
section
/-!
DEFINITION. The state of tree protection and twinning (chapter 12), of the time unit (chapter 14) and of the Towpath
fabric (chapter 16).
-/
namespace Sys2Proof.Machine

/-- Lease states of a port (R294). -/
inductive LeaseState where
  | init | standby | taking | holder
deriving DecidableEq, Repr

/-- STATE of R314. -/
def LeaseState.code : LeaseState → Nat
  | .init => 0 | .standby => 1 | .taking => 2 | .holder => 3

/-- Causes of a take (R317): release, expiry, create. -/
inductive TakeCause where
  | release | expiry | create
deriving DecidableEq, Repr

def TakeCause.code : TakeCause → Nat
  | .release => 0 | .expiry => 1 | .create => 2

/-- The last heartbeat of the peer (R290), with the tick in which it arrived. -/
structure PeerView where
  epoch : Nat
  role : Nat
  heard : Bool
  sf : Bool
  armed : Bool
  dev : Nat
  tree : Nat
  cycle : Nat
  cal : Int
  at_ : Nat
deriving DecidableEq, Repr

/-- Kinds of a drill or move (R315). -/
inductive DrillOp where
  | drill | calibrate | move
deriving DecidableEq, Repr

/-- A drill or planned move in progress (R304, R305), at the port that was commanded (`ref`) and at the port that gains the lease: boundary A,
MOVE_AT, the ids in service at A, the ids heard since, the largest offset, the offset of the reference barge, the other port's offsets as it reported
them, and once the way back is decided its MOVE_AT with the result. -/
structure Drill where
  op : DrillOp
  ref : Option CmdRef
  dwell : Nat
  a : Nat
  moveAt : Nat
  ids : List Nat
  heard : List Nat
  maxOffset : Nat
  e : Option Int
  offsets : Tbl Int
  back : Option (Nat × Nat)
deriving DecidableEq, Repr

/-- A planned move that a port takes part in: MOVE_AT, the new epoch, and whether this port becomes the holder. -/
structure PlannedMove where
  moveAt : Nat
  epoch : Nat
  gain : Bool
  cal : Bool
deriving DecidableEq, Repr

/-- One mirrored terminal's keys and counts that R375 names: what the new holder needs. -/
structure Mirror where
  at_ : Nat
  terms : List Term
  manifests : Tbl Manifest
  sched : QwSet
  keys : Tbl TermKeys
  kp : Bool
deriving DecidableEq, Repr

/-- One port of a protection group (R286, R294, R314): the key pulses and renewals (R291, R292), the witness (R293), the standby offsets
(R302) and the calibration (R303). `witness` holds the last counted ticks, newest first, true where heard; `take` is a take to be made, with the first boundary at which it is; `yield` is a lease lost to a peer's epoch and device, applied at the next boundary, `polled` the id last
polled so that no tick stays silent. -/
structure Port where
  pgid : Nat
  primary : Bool
  peerDev : Nat
  peerTree : Nat
  pulse : Option Nat
  cal : Int
  armed : Bool
  state : LeaseState
  epoch : Nat
  holderDev : Nat
  peer : Option PeerView
  lastRenew : Option Nat
  lastSwitch : Nat
  lastDrill : Nat
  drillResult : Nat
  switches : Nat
  releaseAt : Option Nat
  goodPulses : Nat
  changePulse : Bool
  lastPulse : Option Nat
  initSince : Nat
  heardHolder : Bool
  silentRun : Nat
  witness : List Bool
  holdRaised : Bool
  blockedRaised : Bool
  towLost : Bool
  pulseLost : Bool
  take : Option (TakeCause × Nat)
  drill : Option Drill
  move : Option PlannedMove
  from_ : Option Nat
  offsets : Tbl Int
  mean : Option (Nat × Int × Nat)
  waiting : List Nat
  mirror : Option Mirror
  prevUntil : Option Nat
  err : ErrSource
  witnessSf : Bool
  yield : Option (Nat × Nat)
  polled : Option Nat
deriving DecidableEq, Repr

/-- One direction's pairing record of a twin pair (R310): none while it is not valid; the seen sets list sequences. `lastSeq` and `lastPath` name the
copy delivered at `last`, so that a copy of PATH 0 in the same clock takes its place. -/
structure PairRec where
  epoch : Nat
  h : Nat
  seenA : List Nat
  seenB : List Nat
  last : Nat
  lastSeq : Nat
  lastPath : Nat
deriving DecidableEq, Repr

/-- A twin pair (R307, R308, R316): upstream record, and the sequencer's next sequence and epoch. -/
structure Pair where
  devA : Nat
  devB : Nat
  flowA : Nat
  flowB : Nat
  pairHere : Bool
  seqHere : Bool
  backupHere : Bool
  seqDev : Nat
  backupDev : Nat
  seq : Nat
  epoch : Nat
  up : Option PairRec
  down : Option PairRec
deriving DecidableEq, Repr

/-- Protection: ports by tree number, twin pairs by DEV_A × 131,072 + FLOW_A, the trees that have ever held a lease, the ACTIVE record of R294 (the tree
that last held the lease of a PGID on this device), the last sequencer epoch of each pair, the last pulse begun on each LEASE_OUT pair (true CHANGE),
none where no group names the pair, and by peer device the tick of the last release toward it that it has not answered since (R291). -/
structure Prot where
  ports : Tbl Port
  pairs : Tbl Pair
  held : List Nat
  active : Tbl Nat
  twinEpochs : Tbl Nat
  leaseOut : List (Option Bool)
  leaseChange : Tbl Nat
deriving DecidableEq, Repr

/-! ### Time -/

/-- States of the time counter (R332). -/
inductive TimeState where
  | unset | locked | holdover | freeRun
deriving DecidableEq, Repr

def TimeState.code : TimeState → Nat
  | .unset => 0 | .locked => 1 | .holdover => 2 | .freeRun => 3

/-- A TEV schedule entry (R346): next firing instant, WIDTH, PERIOD in ns and the pulses left, none for unlimited. -/
structure TevEntry where
  entry : Nat
  start : Nat
  next : Nat
  width : Nat
  period : Nat
  left : Option Nat
deriving DecidableEq, Repr

/-- A TEV pin (R345 to R347): mode 0 OFF, 1 OUTPUT, 2 CAPTURE; the pulses fired that may still run, as (first clock, clock after the last), newest first. -/
structure TevPin where
  mode : Nat
  edges : Nat
  entries : List TevEntry
  fired : List (Nat × Nat)
  lastEdge : Option Nat
deriving DecidableEq, Repr

/-- A PTP port (R339, R340, R350), with the timestamps of its last event message received, Pdelay_Req received and event message sent, in units of
2^−32 ns, and its port state as IEEE 1588 numbers them (3 DISABLED, 6 MASTER, 9 SLAVE; log entry 100). -/
structure PtpPort where
  enable : Bool
  oneStep : Bool
  rxLat : Int
  txLat : Int
  rxStamp : Option Int
  txStamp : Option Int
  reqStamp : Option Int := none
  state : Nat := 3
deriving DecidableEq, Repr

/-- TIME_CONFIG CLOCK (R350). -/
structure ClockSet where
  source : Nat
  profile : Nat
  aligned : Bool
  ppsOut : Bool
  holdLimit : Nat
  ppsWidth : Nat
  phaseAlarm : Nat
  phi0 : Nat
  stepThreshold : Nat
deriving DecidableEq, Repr

/-- A network trigger in sending (R349): the copies not yet queued as (id, first frame it may go in, second copy), and how many copies are queued. -/
structure NetTrig where
  ref : CmdRef
  tree : Nat
  body : Bytes
  left : List (Nat × Nat × Bool)
  queued : Nat
deriving DecidableEq, Repr

/-- A step or configuration that the next boundary applies (R334, R350, R351); none as a reference: the servo's own. -/
inductive TimeChange where
  | clock (ref : CmdRef) (c : ClockSet)
  | port (ref : CmdRef) (p : Nat) (s : PtpPort)
  | tree (ref : CmdRef) (t : Nat) (asym fixed : Int)
  | stepAbs (ref : Option CmdRef) (ns : Nat)
  | stepRel (ref : Option CmdRef) (ns : Int)
deriving DecidableEq, Repr

/-- The time unit (chapter 14). The counter is `base` in units of 2^−32 ns at reference period `basePeriod` of the device, with INCREMENT
added for every period since and `prevInc` the INCREMENT before it. `info` is UTC_OFFSET, FLAGS and CLOCK_CLASS of TIME_INFO;
`lockedTick` the tick, as Dev.up counts them, in which the counter reached LOCKED in the mode in force, `stepTick` that of its last step; `ppsOffset` is what the
last edge of PPS_IN says the counter must gain, in ns, until the servo takes it. -/
structure TimeUnit where
  base : Nat
  basePeriod : Nat
  inc : Nat
  prevInc : Nat
  state : TimeState
  set : ClockSet
  latchC : Nat
  latched : Nat
  steps : Nat
  holdSince : Nat
  phaseOut : Bool
  pend : List TimeChange
  ports : Tbl PtpPort
  pins : List TevPin
  terms : Tbl (Int × Int)
  lastPps : Option Nat
  ppsHigh : Option Nat
  ppsLost : Bool
  goodSamples : Nat
  info : Int × Nat × Nat
  infoSent : Int × Nat × Nat
  trigs : List NetTrig
  lockedTick : Nat := 0
  stepTick : Option Nat := none
  ppsOffset : Option Int := none
deriving DecidableEq, Repr

/-! ### Towpath -/

/-- Link states (R393, R408). -/
inductive LinkState where
  | disabled | training | backoff | dormant | up
deriving DecidableEq, Repr

def LinkState.code : LinkState → Nat
  | .disabled => 0 | .training => 1 | .backoff => 2 | .dormant => 3 | .up => 4

/-- A Towpath unit (R394): link class of R395 is a function of its type; LSEQ is given when it is sent. -/
structure TowUnit where
  dst : Nat
  src : Nat
  typ : Nat
  hops : Nat
  cls : Option (Nat × Nat)
  payload : Bytes
deriving DecidableEq, Repr

/-- The coding of a link's two lanes (R390): whether the next block goes to lane 2k + 1, the scrambler state of each lane (R390), and the bits that the last
slot put on each lane. -/
structure TxLanes where
  odd : Bool
  s0 : Nat
  s1 : Nat
  w0 : List Bool
  w1 : List Bool
deriving DecidableEq, Repr

/-- Striping begins with lane 2k; the scramblers start at zero (log entry 109). -/
def TxLanes.reset : TxLanes := { odd := false, s0 := 0, s1 := 0, w0 := [], w1 := [] }

/-- A link (R391 to R398, R404). Times are in clocks of 0.8 ns. `ackLanes` are the lanes whose partner ACK was received, `seenLanes`
those with fitting partner TRAIN units; `freed` are the blocks that have left the link buffer and `advert` the limits advertised, by class; `wire` is the last unit sent, bit by bit, and
`tx` its lanes; `theta` the tick offsets of the last 1,000 HELLOs, newest first, and `profiled` says that a board profile retrains it (R391, R459). -/
structure TowLink where
  state : LinkState
  attempt : Nat
  cost : Nat
  since : Nat
  seenLanes : List Nat
  ackLanes : List Nat
  ack : Bool
  peerDev : Option Nat
  peerLink : Nat
  peerUnit : Nat
  peerAge : Nat
  peerFixed : Bool
  peerIso : Bool
  peerCycle : Nat
  lastHello : Nat
  echo : Option (Nat × Nat × Nat × Nat)
  delay : Int
  thetaPs : Int
  theta : List Int
  limits : List Nat
  sent : List Nat
  lseqTx : List Nat
  lseqRx : List (Option Nat)
  txq : List TowUnit
  wakeReq : Bool
  locked : Bool
  freed : List Nat
  advert : List Nat
  wire : List Bool
  tx : TxLanes := TxLanes.reset
  profiled : Bool := false
deriving DecidableEq, Repr

/-- A link-state record (R400). -/
structure Lsa where
  flags : Nat
  seq : Nat
  unitId : Nat
  ageMs : Nat
  entries : List (Nat × Nat)
  at_ : Nat
deriving DecidableEq, Repr

/-- A route (R401): NH0, NH1 and distance. -/
structure Route where
  nh0 : Nat
  nh1 : Option Nat
  dist : Nat
deriving DecidableEq, Repr

/-- A bulk object in reception (R367): segments released, the time of the last, whether it is void, and whether its last segment has come, so that the consumer
commits it. -/
structure BulkRx where
  src : Nat
  object : Nat
  consumer : Nat
  next : Nat
  last : Nat
  void : Bool
  released : Bytes
  complete : Bool := false
deriving DecidableEq, Repr

/-- Towpath (chapter 16). `nhUsed` remembers the link a flow last took (R402), `attachWait` the TREE_ATTACH commands that wait for
alignment (R405), `mgmt` the Adesa-to-Adesa payloads taken, `quieted` the links that were enabled when the device left for QUIET (R491). -/
structure Towpath where
  links : List TowLink
  align : Bool
  alignWait : Nat
  enabledAt : Option Nat
  aligned : Bool
  alignOver : Bool
  quieted : List Nat
  isolated : Bool
  conflicts : List Nat
  firstUp : Option Nat
  lsas : Tbl Lsa
  ownSeq : Nat
  lsaSent : Nat
  routes : Tbl Route
  nhUsed : Tbl Nat
  lockedDevs : List Nat
  bulk : List BulkRx
  voided : List (Nat × Nat)
  markers : List (Nat × Nat × Bytes) := []
  mgmt : List (Nat × Bytes)
  attachWait : List (CmdRef × Nat × Bool)
deriving DecidableEq, Repr

end Sys2Proof.Machine
end

