-- ==== Sys2Proof/Machine/TypesFwd.lean ====
section
/-!
DEFINITION. The state of the classifier (chapter 09), of the forwarding tables and the CAM (chapter 10) and of the uplink and service
ports (chapter 11).
-/
namespace Sys2Proof.Machine

/-- A packet on its way through a pipeline: bytes without FCS, INPUT and PORT (R227), IN_FLOW of a tree parcel, source code (R250), pool
requester (R180), packet lane (R256), the entry version (R242), and the
classifier key of its last pass (R231), which the CAM searches with, and the APPID of the IEC61850 header that the walk recorded with the place where that header
now stands (R410); for an upstream copy whose pairing takes place at the egress device, its pair and twin tag (R309). -/
structure Pkt where
  data : Bytes
  input : Nat
  port : Nat
  inFlow : Option Nat
  source : Nat
  req : Nat
  lane : Nat
  slot : Nat
  version : Nat
  now : Nat
  key : Bytes
  iec : Option (Nat × Option Nat)
  twin : Option (Nat × Nat)
deriving DecidableEq, Repr

/-- States of a version slot (R241). -/
inductive SlotState where
  | free | staging | built | current | retiring
deriving DecidableEq, Repr

/-- STATE of R247. -/
def SlotState.code : SlotState → Nat
  | .free => 0 | .staging => 1 | .built => 2 | .current => 3 | .retiring => 4

/-- A version slot (R228, R241, R242). `keep` is the KEEP flag of the commit that replaced it. -/
structure Slot where
  state : SlotState
  version : Nat
  start : List Nat
  deepAct : Nat
  lenAct : Nat
  mgmtRing : Nat
  miss : List (Nat × Nat × Nat)
  nodes : Tbl ParseNode
  trans : Tbl (Nat × Nat)
  rules : List Rule
  words : Nat
  inflight : Nat
  keep : Bool
  building : Option CmdRef
deriving DecidableEq, Repr

/-- A packet waiting for its second pass (R240). -/
structure Recirc where
  pkt : Pkt
  start : Nat
  tag : Nat
  since : Nat
deriving DecidableEq, Repr

/-- The classifier. `commit` is the commit accepted in this tick (R243); the recirculation buffers are those of the upstream and of the
downstream pipeline; `redirects` are the frames redirected to a host receive ring, or (0xFF) taken by the management cores. -/
structure Classifier where
  slots : List Slot
  nextVersion : Nat
  commit : Option (CmdRef × Nat × Bool)
  upRecirc : List Recirc
  downRecirc : List Recirc
  redirects : List (Nat × Pkt)
deriving DecidableEq, Repr

/-- An entry of the learning table (R252). -/
structure FdbEnt where
  static : Bool
  hit : Bool
  aged : Bool
  sweep : Bool
  fid : Nat
  mac : Nat
  source : Nat
  dest : Nat
  lastSeen : Nat
deriving DecidableEq, Repr

/-- A forwarding domain (R249). -/
structure Domain where
  flow : Nat
  learn : Bool
  missAct : Nat
  mgmtRing : Nat
deriving DecidableEq, Repr

/-- A member record (R249). -/
structure Member where
  fid : Nat
  source : Nat
  flow : Nat
  flood : Bool
deriving DecidableEq, Repr

/-- A learn request (R253, R256), with its packet lane and the clock in which it was made. -/
structure LearnReq where
  fid : Nat
  mac : Nat
  source : Nat
  lane : Nat
  at_ : Nat
deriving DecidableEq, Repr

/-- A flush in the background (R266). -/
structure FlushJob where
  job : Nat
  ref : CmdRef
  fid : Option Nat
  scope : Option Nat
  next : Nat
  removed : Nat
  running : Bool
deriving DecidableEq, Repr

/-- A table rebuild (R251, R265): a new SALT, or the clearing after a domain or member removal. -/
inductive RebuildWhat where
  | salt (salt : Nat)
  | domain (fid : Nat)
  | member (fid source : Nat)
deriving DecidableEq, Repr

structure Rebuild where
  job : Nat
  ref : CmdRef
  what : RebuildWhat
  running : Bool
deriving DecidableEq, Repr

/-- The learning table and its engine (R249 to R259). The current sweep runs since tick `sweepFrom` of Dev.up at the AGE_PERIOD in
force, from entry `sweepBase` on. -/
structure Fdb where
  learn : Bool
  oldest : Bool
  salt : Nat
  agePeriod : Nat
  domains : Tbl Domain
  members : List Member
  limits : Tbl (Option Nat × Bool)
  entries : Tbl FdbEnt
  fifo : List LearnReq
  lfsr : BitVec 32
  sweepNo : Nat
  sweepNext : Nat
  sweepFrom : Nat
  sweepBase : Nat := 0
  flushes : List FlushJob
  rebuilds : List Rebuild
  nextJob : Nat
deriving DecidableEq, Repr

/-- A CAM table (R260, R267). -/
structure CamTable where
  firstBank : Nat
  banks : Nat
  width : Nat
  inputMask : Nat
  segOff : List Nat
  mgmtRing : Nat
deriving DecidableEq, Repr

/-- A CAM entry: rows, verify copy and result (R260, R263). -/
structure CamEnt where
  rows : Bytes
  copy : Bytes
  priority : Nat
  action : Nat
  cls : Nat
  flow : Nat
deriving DecidableEq, Repr

/-- The exact-match store: tables by number, entries by table × 65,536 + index. -/
structure Cam where
  tables : Tbl CamTable
  entries : Tbl CamEnt
deriving DecidableEq, Repr

/-- A gate control list (R278); times in ns of the time counter. -/
structure GateList where
  enable : Bool
  base : Nat
  cycle : Nat
  maxSdu : List Nat
  entries : List GateEntry
deriving DecidableEq, Repr

/-- A frame (or a fragment of one) in transmission: the clocks of its start and its end, its class, and whether it goes as express. -/
structure PortTx where
  start : Nat
  stop : Nat
  cls : Nat
  express : Bool
deriving DecidableEq, Repr

/-- An uplink sub-port or the service port (R273 to R283). `speed` is the rate of the service port in
Mbit/s as its link came up; `gatePend` is an accepted list with its command and the instant at which it
becomes operational; `gates` are the gate states in force, `hold` that SetAndHoldMAC is in force; `txEnd` is the instant, in clocks, at which
the frame in transmission ends, with its class and whether it is express; `pre` what is left of a preempted frame, in clocks, with its class; `wire` is
the last frame sent, as on the line but for its FCS. -/
structure UpPort where
  up : Bool
  verifyFrom : Option Nat
  speed : Nat
  set : UpPortReq
  gate : Option GateList
  gatePend : Option (CmdRef × GateList × Nat)
  gates : Nat
  hold : Bool
  preemptActive : Bool
  inLpi : Bool
  tx : Option PortTx
  pre : Option (Nat × Nat)
  wire : Bytes
  own : List (Bytes × Bool)
deriving DecidableEq, Repr

/-- Uplinks: ports by egress point, steering rules by number, the profile retrains that Sluice has not admitted, and
the uplinks whose lanes count as lit (R492). `entries` are the entries of the uplink section that are in force (R272), 0 to 7 the uplinks, 8 the
service port. -/
structure Uplinks where
  ports : Tbl UpPort
  entries : Tbl Bytes
  steers : Tbl SteerReq
  retrains : List Nat
  lit : List Nat
deriving DecidableEq, Repr

end Sys2Proof.Machine
end

