-- ==== Sys2Proof/Machine/TypesRec.lean ====
section
/-!
DEFINITION. The state of the disturbance recorder (chapter 17) and of firmware and terminal software update (chapter 19).
-/
namespace Sys2Proof.Machine

/-- The stamp of a record (R412) with what its pile's header would say of its tick (R418): TICK_TIME, whether it is valid, and INCREMENT. -/
structure Stamp where
  cycle : Nat
  pos : Nat
  tod : Nat
  valid : Bool
  inc : Nat
deriving DecidableEq, Repr

/-- An ASDU as Fold takes it (R413): stamp, smpCnt, confRev, smpSynch and the pairs of value and quality. -/
structure Asdu where
  st : Stamp
  smpCnt : Nat
  confRev : Nat
  smpSynch : Nat
  data : List (Int × Nat)
deriving DecidableEq, Repr

/-- A channel's run (R414, R415): the last two decoded values, the samples of the run, and the last quality word. -/
structure ChanRun where
  y1 : Int
  y2 : Int
  n : Nat
  quality : Option Nat
deriving DecidableEq, Repr

/-- A watched stream (R410): its settings, the block being gathered, its runs, the smpCnt, confRev and smpSynch seen last, copies dropped since its last
record, the last stNum seen, whether the block in hand starts a new run, and whether the block after it does because a copy was dropped. -/
structure Stream where
  set : RecStreamReq
  block : List Asdu
  runs : List ChanRun
  last : Option (Nat × Nat × Nat)
  newRun : Bool
  afterDrop : Bool
  dropped : Nat
  stNum : Option Nat
deriving DecidableEq, Repr

/-- An SV trigger rule (R422): run of samples for which it holds, run for which it does not, and whether it is armed. -/
structure SvRule where
  set : RecRuleReq
  holdRun : Nat
  offRun : Nat
  armed : Bool
deriving DecidableEq, Repr

/-- The open pile (R418): the clock at which it opened, the stamp of its first record, the clocks of its records, the record bytes, and the TRIGGER records of the
last trigger's clock with where they stand (R422). -/
structure OpenPile where
  opened : Nat
  gap : Bool
  first : Stamp
  lastCycle : Nat
  clocks : List Nat
  records : Bytes
  trigs : List (Nat × Bytes) := []
deriving DecidableEq, Repr

/-- A closed pile in the ring (R421): slot, sequence, the clocks of its records, and its bytes. -/
structure RingPile where
  slot : Nat
  seq : Nat
  clocks : List Nat
  bytes : Bytes
deriving DecidableEq, Repr

/-- Where the store of a capture stands (R424). -/
inductive StorePhase where
  | waiting | piles | flush1 | entry | flush2
deriving DecidableEq, Repr

/-- A directory entry (R426). -/
structure DirEnt where
  id : Nat
  firstSlot : Nat
  piles : Nat
  keep : Bool
  shortPre : Bool
  gap : Bool
  full : Bool
  triggers : Nat
  startCycle : Nat
  endCycle : Nat
  trigCycle : Nat
  trigPos : Nat
  source : Nat
  detail : Nat
  tag : Nat
deriving DecidableEq, Repr

/-- An NVMe write in flight (R26, R424): the pinned ring slot, the store slot, and whether it has been tried again. -/
structure NvmeWrite where
  pin : Nat
  slot : Nat
  retried : Bool
deriving DecidableEq, Repr

/-- A capture that is open or being stored (R423, R424): S, E and T in clocks of 0.8 ns, the ring slots pinned and not yet stored, in ring order, the
writes in flight, oldest first, and the entry it will have. -/
structure Capture where
  s : Nat
  e : Nat
  t : Nat
  ended : Bool
  pins : List Nat
  writing : List NvmeWrite
  phase : StorePhase
  retried : Bool
  ent : DirEnt
deriving DecidableEq, Repr

/-- A change that waits for the boundary (R427). -/
inductive RecChange where
  | global (ref : CmdRef) (r : RecGlobalReq)
  | stream (ref : CmdRef) (r : RecStreamReq)
  | rule (ref : CmdRef) (r : RecRuleReq)
  | store (ref : CmdRef) (r : RecStoreReq)
  | trigger (ref : CmdRef) (tag : Nat)
deriving DecidableEq, Repr

/-- An NVMe command in flight beside those of the capture being stored (R425, R426, R429): a Read of a pile for READ_PILE, with the pile and where the host wants
it, or a deallocation of store slots. -/
inductive NvmeCmd where
  | read (ref : CmdRef) (addr : Nat) (pile : Bytes)
  | deallocate (slots : List Nat)
deriving DecidableEq, Repr

/-- The recorder (chapter 17). `store` holds the piles stored, by store slot, and `nvme` the commands in flight or waiting beside those of a capture. -/
structure Recorder where
  set : RecGlobalReq
  streams : Tbl Stream
  rules : Tbl SvRule
  pile : Option OpenPile
  pileSeq : Nat
  ring : List RingPile
  ringNext : Nat
  captures : List Capture
  nextId : Nat
  dir : List DirEnt
  store : Tbl Bytes
  storeSlots : Nat
  storeNext : Nat
  nsids : List Nat
  full : Bool
  link : Bool
  copied : Nat × Nat
  pend : List RecChange
  nvme : List NvmeCmd := []
deriving DecidableEq, Repr

/-- States of a session (R469). -/
inductive ImgState where
  | receiving | verifying | ready
deriving DecidableEq, Repr

/-- A session (R457). `idle` in ticks. -/
structure Session where
  digest : BitVec 384
  blocks : Nat
  owner : Nat
  parties : List Nat
  received : List Nat
  persisted : List Nat
  idle : Nat
  state : ImgState
deriving DecidableEq, Repr

/-- What a management pause is for (R459 to R462), with the command that waits for its end. -/
inductive PauseWhy where
  | activate (ref : CmdRef)
  | handBack (ref : CmdRef)
  | rollback (ref : Option CmdRef)
deriving DecidableEq, Repr

/-- A management pause (R459 to R461): its boundary P, whether it has begun, and the clock at which it began, from which PAUSE_US is counted (R470). -/
structure Pause where
  why : PauseWhy
  p : Nat
  begun : Bool
  at_ : Nat := 0
deriving DecidableEq, Repr

/-- An IMAGE_OPEN that finds no session waits for the end of its tick, where R9 decides by source (R457). No command reference: an in-band agent. -/
structure ImgOffer where
  src : Nat
  ref : Option CmdRef
  blocks : Nat
  digest : BitVec 384
deriving DecidableEq, Repr

/-- A slot's settings (R453), as far as the manual says what Adesa restores from them (R25, R498): recorder ring size, attached trees with their seal,
enabled Towpath links with their cost, ALIGN and ALIGN_WAIT. Log entry 41. -/
structure Settings where
  ring : Nat
  trees : List (Nat × Bool)
  links : List (Nat × Nat)
  align : Bool
  alignWait : Nat
deriving DecidableEq, Repr

/-- A push to a tree (R464): ids with their state code of R471 and the ranges of pieces they lack. -/
structure Push where
  id : Nat
  ref : Option CmdRef
  state : Nat
  round : Nat
  perFrame : Nat
  rounds : Nat
  len : Nat
  digest : BitVec 384
  image : Bytes
  targets : Tbl (Nat × List Nat)
  flows : Tbl Nat
  left : List Nat
  answers : List Nat
  deadline : Option Nat
deriving DecidableEq, Repr

/-- Firmware update (chapter 19): slots' image blocks as programmed, each slot's settings, the boot record, the session, the trial's P, agents (address and
reply flow), and pushes by tree. `hw` is what the settings of the hardware were when the running slot's copy last took their changes, and `digests` the digest
given at IMAGE_OPEN for the image of each slot. -/
structure Update where
  slotA : Tbl Bytes
  slotB : Tbl Bytes
  settingsA : Settings
  settingsB : Settings
  bootSlot : Nat
  result : Nat
  session : Option Session
  offers : List ImgOffer
  pause : Option Pause
  trial : Option Nat
  agents : Tbl (Nat × Nat)
  mgmtTx : List (Nat × Nat × Bytes)
  pushes : Tbl Push
  nextPush : Nat
  hw : Settings := { ring := 0, trees := [], links := [], align := true, alignWait := 3000 }
  digests : Tbl (BitVec 384) := []
deriving DecidableEq, Repr

end Sys2Proof.Machine
end

