-- ==== Sys2Proof/Machine/State.lean ====
section
/-!
DEFINITION. The state of the whole block, the reasons for which a command could stop (none does), and the state right after
reset.
-/
namespace Sys2Proof.Machine

/-- Faults. -/
inductive Fault where
  /-- Raised by no command: the manual describes no condition on which the part stops. Safe. -/
  | neverRaised
deriving DecidableEq, Repr

/-- Refusals. -/
inductive Refusal where
  /-- Raised by `exec` for a command that has no meaning in this model. Safe: nothing is claimed of it. -/
  | notModelled (mnemonic : String)
deriving DecidableEq, Repr

/-- Everything of the block but the queue of commands and host memory. -/
structure Dev where
  clock : Clock
  dev : DeviceUnit
  host : HostIf
  ev : EventUnit
  ctr : CounterUnit
  sluice : Sluice
  dbg : DebugUnit
  profile : Profile
  flash : Profile
  ref : RefClk
  trees : Tbl Tree
  lines : Tbl TreeLine
  sec : Security
  pool : Pool
  sched : Sched
  cfg : List CfgChange
  prot : Prot
  time : TimeUnit
  tow : Towpath
  cls : Classifier
  fdb : Fdb
  cam : Cam
  upl : Uplinks
  recd : Recorder
  upd : Update
  freeCtr : Nat
deriving DecidableEq, Repr

/-- The state: the commands that wait, first in, first out; host memory as the device has written it; the device. -/
structure State where
  pending : List Instr
  hostMem : List Host.Cell
  dev : Dev
deriving DecidableEq, Repr

/-! Values at reset. -/

def Ring.reset : Ring :=
  { baseLo := 0, baseHi := 0, coalesce := 0, size := 0, enable := false, head := 0, tail := 0, lost := 0, phase := true,
    drops := 0, lastMsg := none, msgDue := false }

def MbCtx.reset : MbCtx :=
  { doorbellHi := 0, allow := 0x3FFF, enable := false, submitted := 0, completed := 0, discarded := 0, seq := 0,
    pages := [], orphans := [] }

/-- The host interface at reset (R435, R437, R445). -/
def HostIf.reset : HostIf :=
  { ctxs := List.replicate 8 MbCtx.reset, evRings := List.replicate 112 Ring.reset,
    pktRings := List.replicate 8 Ring.reset, results := [], nextCmd := 0, cycleHi := 0, ready := false,
    evtReady := false, pause := false, fatal := false, d3 := false, msix := [], pba := [], sent := [], readData := 0 }

def EventUnit.reset : EventUnit := { routes := [], staging := [], seen := [] }

def DumpSet.off : DumpSet := { enable := false, slots := 2, period := 8, base := 0, slotSize := 65536, select := [] }

def CounterUnit.reset : CounterUnit :=
  { live := [], snap := [], snapC := 0, snapHi := 0, permit := 0, blocks := [], progs := [], snapProgs := [],
    windows := [], clears := [], reprograms := [], dump := DumpSet.off, dumpPend := [], dumpHead := 0, dumpTail := 0,
    dumpSeq := 0, dumpPrev := 0, dumpSkip := 0, job := none, delta := [], cleared := [], wrapped := [] }

/-- The default priorities of Adesa indices 8 to 14 (R493). -/
def defaultPrio : List Nat := [0, 1, 1, 2, 2, 2, 3]

/-- Sluice at reset: 448 tokens, WAIT_LIMIT 10 s (R492, R507), base load the device floor. -/
def Sluice.reset : Sluice :=
  { budget := 448, waitLimit := 10, prio := defaultPrio, base := 96, fifo := [], held := [], admitted := 0,
    refused := 0, reserve := 0, tj := 0, warn := false, high := false, pend := [] }

def CoreDebug.reset : CoreDebug :=
  { halted := false, steps := 0, breakpoints := List.replicate 8 none, watchpoints := List.replicate 4 none }

def DebugUnit.reset : DebugUnit :=
  { cores := List.replicate 4 CoreDebug.reset, scanIn := [], scanPreload := [], scanDriven := none, mgmtMem := [],
    lastRead := 0, lastError := false }

def Profile.none : Profile := { tree := .none, uplink := .none, towpath := .none, system := .none }

/-- Reference selection without a valid system section (R37): REFCLK_A, not revertive. -/
def RefClk.reset : RefClk :=
  { goodA := true, goodB := true, waitA := none, waitB := none, selected := some 0, pref := 0, revertive := false, pendPref := none, switchTo := none }

def Clock.reset : Clock :=
  { cycle := 0, keyClock := 0, base := 0, everAttached := false, cycleLoaded := false, tickLengthened := false,
    lengthenTo := none, loadCycle := none, inBoundary := false }

/-- A module bus at rest: the switch connects no channel (R60). -/
def ModuleBus.reset : ModuleBus := { connected := 0, queue := [], done := [] }

def DeviceUnit.reset : DeviceUnit :=
  { variant := 0, devAddr := 0, strap := 0, unitId := 0, eui64 := 0, fwVersion := 0, stepping := 0x10, power := .active,
    powerPend := [], resetCause := 1, resetAt := none, mgmtRestartRef := none, restarts := [], slot := 0, subsys := none, restoreDue := true, tckAt := none, busFast := [], busFaulty := [],
    buses := List.replicate 8 ModuleBus.reset }

def ModuleSet.reset : ModuleSet := { txDisableIdle := false, rateSelect := 0, written := none }

def Lanes.reset : Lanes :=
  { state := .idle, wake := none, nextSeries := none, eq := none, brst := [], training := none, polledAt := none, module := none, mset := .reset }

def Down.reset : Down :=
  { work := none, sent := none, carried := [], leftover := [], frags := [], lm := [], maps := [], carriedFirst := none, ranOn := [] }

/-- Quiet windows: PERIOD 64, PHASE 0 (R118); REACH 0 and MODE 0 before any QUIET_WINDOW_SET. DESIGN CHOICE, log entry 11. -/
def QwSet.reset : QwSet := { reach := 0, mode := 0, period := 64, phase := 0 }

def Discovery.reset : Discovery :=
  { settings := .reset, settingsPend := [], windows := [], kept := [], lastEnd := none, collSeen := none, log := [],
    yields := 0, claims := [], claimed := [] }

def Keeper.reset : Keeper :=
  { poll := 8, manifests := [], building := none, missRun := 0, gq := [], reports := [], shadows := [],
    confirms := [] }

/-- A tree port at reset: detached, lanes idle, EPOCH 1 (R68). -/
def Tree.reset : Tree :=
  { attach := .detached, since := 0, sealed := false, sealPend := [], detachPend := none, epoch := 1, prevEpoch := 1,
    lanes := .reset, down := .reset, disc := .reset, keep := .reset, terms := [], holds := [] }

def Block.zero : Block := { errors := 0, bits := 0 }
def ErrSource.reset : ErrSource := { cur := .zero, past := [] }
def PmLine.reset : PmLine := { errors := 0, bits := 0, loss := false, line := [], unavail := false }
def PmEntity.reset : PmEntity :=
  { near := .reset, far := .reset, dayBins := false, open_ := none, closing := [], closed := [] }
/-- R319's defaults. -/
def Thresholds.reset : Thresholds := { sdExp := 7, sfExp := 5, setBlocks := 5, clearBlocks := 20, sesExp := 3 }
def PlaceTick.zero : PlaceTick := { placed := 0, accepted := 0, dark := 0, delim := 0 }
def TermLine.reset : TermLine :=
  { defects := 0, tick := .zero, darkRun := 0, missRun := 0, missDelim := false, losClear := 0, lobClear := 0,
    dgSeen := none, path := .reset, farEnd := .reset, pm := .reset, lastBarge := none }
def TreeLine.reset : TreeLine :=
  { defects := 0, counted := false, energy := false, silentRun := 0, clearRun := 0, path := .reset, thr := .reset,
    thrPend := none, pm := .reset, terms := [] }

def TermKeys.reset : TermKeys :=
  { tk := none, down := [none, none], up := [none, none], downPhase := false, firstX := none, rekey := none,
    stopped := none, ctrOrd := 0, ctrLm := 0, downFrom := 0, lastRekey := 0 }

def Vbat.reset : Vbat := { ownerKey := none, alarmed := false, log := [], keyLost := false }

/-- The default tamper actions (R377): ERASE for MESH and TAMPER_N, ALARM for VGLITCH, CGLITCH and DEBUG_FAIL, LOG for TEMP. -/
def defaultActions : List TamperAction := [.erase, .alarm, .alarm, .log, .erase, .alarm]

/-- A pipeline with an empty hold buffer. -/
def CipherPipe.reset : CipherPipe := { halfA := none, halfB := none }

/-- A group of `n` pipelines, all free. -/
def CipherGroup.reset (n : Nat) : CipherGroup := { free := List.replicate n { input := 0, halfA := 0, halfB := 0 }, clk := 0, uses := [] }

/-- The security unit at reset. The lifecycle comes from fuses: MANUFACTURE, so debug is OPEN (R380). Log entry 10. -/
def Security.reset : Security :=
  { keys := [], treeKp := [], mass := [], nextJob := 0, macsec := [], macsecPorts := [], txPend := [], txActive := [], rekeyPend := [], fabricKey := none, fabricSalt := 0,
    object := 0, pipes := List.replicate 24 CipherPipe.reset, groups := [.reset 11, .reset 11, .reset 2], cipherSeq := 0, cipherIn := [], released := [], vbat := .reset,
    authHash := none, lifecycle := .manufacture,
    flashAlarmed := false, debug := .opened, challenge := none, actions := defaultActions, failLimit := 3, fails := 0 }

/-- The default quotas of R182. -/
def defaultQuota : List Nat :=
  List.replicate 64 1024 ++ List.replicate 8 8192 ++ List.replicate 8 4096 ++ [2048, 1024, 4096]

/-- The buffer pool at reset (R181, R182, R199, R200). -/
def Pool.reset : Pool :=
  { basin := [], resv := [], basinFree := 196608, resvFree := 67108864, hbm := [], hbmFull := false, frames := [], nextFrame := 0, profiles := [], flows := [], queues := [], feederOn := true,
    hbmFault := false, hbmUsable := true, weirReserve := 8192, refillReserve := 4096, quota := defaultQuota,
    quotasOn := true, basinState := .normal, resvState := .normal, claims := [], jobs := [] }

def Sched.reset : Sched := { points := [], buckets := [], hists := [], samples := [] }

def Prot.reset : Prot := { ports := [], pairs := [], held := [], active := [], twinEpochs := [], leaseOut := [none, none], leaseChange := [] }

/-- TIME_CONFIG at reset: the defaults of R350. SOURCE and PROFILE 0: log entry 12. -/
def ClockSet.reset : ClockSet :=
  { source := 0, profile := 0, aligned := false, ppsOut := false, holdLimit := 0, ppsWidth := 100000, phaseAlarm := 1000,
    phi0 := 0, stepThreshold := 10000 }

def TevPin.reset : TevPin := { mode := 0, edges := 0, entries := [], fired := [], lastEdge := none }

/-- The time unit at reset: counter zero, INCREMENT nominal (R331), every TEV pin OFF (R345). -/
def TimeUnit.reset : TimeUnit :=
  { base := 0, basePeriod := 0, inc := 5 * 2 ^ 32, prevInc := 5 * 2 ^ 32, state := .unset, set := .reset, latchC := 0, latched := 0, steps := 0,
    holdSince := 0, phaseOut := false, pend := [], ports := [], pins := List.replicate 4 TevPin.reset, terms := [],
    lastPps := none, ppsHigh := none, ppsLost := false, goodSamples := 0, info := (0, 0, 0), infoSent := (0, 0, 0), trigs := [] }

def TowLink.reset : TowLink :=
  { state := .disabled, attempt := 1, cost := 1, since := 0, seenLanes := [], ackLanes := [], ack := false, peerDev := none,
    peerLink := 0, peerUnit := 0, peerAge := 0, peerFixed := false, peerIso := false, peerCycle := 0, lastHello := 0, echo := none, delay := 0,
    thetaPs := 0, theta := [], limits := [0, 0, 0, 0, 0], sent := [0, 0, 0, 0, 0], lseqTx := [0, 0, 0, 0, 0],
    lseqRx := [none, none, none, none, none], txq := [], wakeReq := false, locked := false,
    freed := [0, 0, 0, 0, 0], advert := [0, 0, 0, 0, 0], wire := [] }

/-- Towpath at reset: links disabled, ALIGN 1 and ALIGN_WAIT 3,000 ms (R407). COST 1: log entry 13. -/
def Towpath.reset : Towpath :=
  { links := List.replicate 8 TowLink.reset, align := true, alignWait := 3000, enabledAt := none, aligned := false,
    alignOver := false, quieted := [], isolated := false, conflicts := [], firstUp := none, lsas := [], ownSeq := 0, lsaSent := 0, routes := [],
    nhUsed := [], lockedDevs := [], bulk := [], voided := [], mgmt := [], attachWait := [] }

def Slot.reset : Slot :=
  { state := .free, version := 0, start := [], deepAct := 1, lenAct := 0, mgmtRing := 0xFF, miss := [], nodes := [], trans := [],
    rules := [], words := 0, inflight := 0, keep := false, building := none }

/-- The classifier at reset: every slot FREE, no version CURRENT (R241). -/
def Classifier.reset : Classifier :=
  { slots := List.replicate 4 Slot.reset, nextVersion := 1, commit := none, upRecirc := [], downRecirc := [],
    redirects := [] }

/-- The learning table at reset: LEARN 1, EVICT RANDOM, SALT 0, AGE_PERIOD 300 s (R251, R258, R259, R265). The LFSR starts at all ones: log
entry 14. -/
def Fdb.reset : Fdb :=
  { learn := true, oldest := false, salt := 0, agePeriod := 300, domains := [], members := [], limits := [], entries := [],
    fifo := [], lfsr := BitVec.ofNat 32 0xFFFFFFFF, sweepNo := 0, sweepNext := 0, sweepFrom := 0, flushes := [], rebuilds := [], nextJob := 0 }

def Cam.reset : Cam := { tables := [], entries := [] }

/-- The settings of a port at reset (R275, R276, R282, R283): MAX_FRAME 9,216, BROADCAST set, preemption and LPI off, verify time 10 ms.
TW_US 1: log entry 15. -/
def upPortSet (point : Nat) : UpPortReq :=
  { port := point, promisc := false, allMulti := false, broadcast := true, lpi := false, preempt := false, verify := false,
    steering := false, express := 1, addFrag := 0, verifyMs := 10, maxFrame := 9216, twUs := 1, addrs := [] }

def UpPort.reset (point : Nat) : UpPort :=
  { up := false, verifyFrom := none, speed := 1000, set := upPortSet point, gate := none, gatePend := none, gates := 255, hold := false, preemptActive := false,
    inLpi := false, tx := none, pre := none, wire := [], own := [] }

/-- The uplinks at reset: every link down. -/
def Uplinks.reset : Uplinks :=
  { ports := ((List.range 32).map (fun i => 0x40 + i) ++ [0xA4]).map (fun p => (p, UpPort.reset p)), entries := [], steers := [],
    retrains := [], lit := [] }

/-- The recorder at reset: stopped, no ring. Capture times at the least of their ranges: log entry 16. -/
def recGlobalReset : RecGlobalReq := { run := false, tevMask := 0, ring := 0, preMs := 0, postMs := 1, maxMs := 1 }

def Recorder.reset : Recorder :=
  { set := recGlobalReset, streams := [], rules := [], pile := none, pileSeq := 0, ring := [], ringNext := 0, captures := [], nextId := 1,
    dir := [], store := [], storeSlots := 0, storeNext := 64, nsids := [], full := false, link := false, copied := (0, 0), pend := [] }

/-- Settings that hold nothing: no ring, no tree, no link. -/
def Settings.none : Settings := { ring := 0, trees := [], links := [], align := true, alignWait := 3000 }

def Update.reset : Update :=
  { slotA := [], slotB := [], settingsA := .none, settingsB := .none, bootSlot := 0, result := 0, session := none, offers := [], pause := none,
    trial := none, agents := [], mgmtTx := [], pushes := [], nextPush := 0 }

/-- The device right after reset. -/
def Dev.reset : Dev :=
  { clock := .reset, dev := .reset, host := .reset, ev := .reset, ctr := .reset, sluice := .reset, dbg := .reset,
    profile := .none, flash := .none, ref := .reset,
    trees := (List.range 64).map (fun t => (t, Tree.reset)), lines := (List.range 64).map (fun t => (t, TreeLine.reset)),
    sec := .reset, pool := .reset, sched := .reset, cfg := [], prot := .reset, time := .reset, tow := .reset, cls := .reset,
    fdb := .reset, cam := .reset, upl := .reset, recd := .reset, upd := .reset, freeCtr := 0 }

/-- The state right after reset: no command waits, the device has written no host memory. -/
def State.reset : State := { pending := [], hostMem := [], dev := .reset }

end Sys2Proof.Machine
end

