-- ==== Sys2Proof/Machine/Ops.lean ====
section
/-!
DEFINITION. The named operations that every meaning is written over: host memory, counters (chapter 20), events (R444 to R447),
mailbox commands (R439 to R441), MSI-X, tables of trees and terminals, free values.
-/
namespace Sys2Proof.Machine

/-! ### A step of the device -/

/-- A command that changes the device alone. -/
def State.onDev (s : State) (f : Dev → Dev) : Host.Outcome State Fault Refusal :=
  .next { s with dev := f s.dev }

/-- A command that changes the device and host memory. -/
def State.onBoth (s : State) (f : Dev → List Host.Cell → Dev × List Host.Cell) :
    Host.Outcome State Fault Refusal :=
  let r := f s.dev s.hostMem
  .next { s with dev := r.1, hostMem := r.2 }

/-! ### Host memory: cells the device has written, addresses strictly rising -/

/-- Write one byte. -/
def memPut : List Host.Cell → Nat → Byte → List Host.Cell
  | [], a, b => [(a, b)]
  | (k, v) :: t, a, b =>
    if a < k then (a, b) :: (k, v) :: t
    else if a = k then (a, b) :: t
    else (k, v) :: memPut t a b

/-- Write bytes at consecutive addresses, first byte first. -/
def memWrite (m : List Host.Cell) (a : Nat) : Bytes → List Host.Cell
  | [] => m
  | b :: t => memWrite (memPut m a b) (a + 1) t

/-- Read one byte; none where the device has written nothing. -/
def memRead : List Host.Cell → Nat → Option Byte
  | [], _ => none
  | (k, v) :: t, a => if a = k then some v else memRead t a

/-- The canonical form: addresses strictly rising. -/
def memWf : List Host.Cell → Bool
  | [] => true
  | [_] => true
  | (a, _) :: (b, y) :: t => decide (a < b) && memWf ((b, y) :: t)

/-! ### Free values -/

/-- The next free value and the device with the draw counted. -/
def Dev.draw (d : Dev) : Nat × Dev := (Config.freeNat d.freeCtr, { d with freeCtr := d.freeCtr + 1 })

/-! ### Time -/

/-- The current cycle number. -/
def Dev.now (d : Dev) : Nat := d.clock.cycle

/-- Ticks since the reset: the key clock counts them, whatever cycle number is loaded (R20, R359). -/
def Dev.up (d : Dev) : Nat := d.clock.keyClock
/-- The tick that begins, by the same count, at a boundary before the key clock's own step (R21), and the tick in progress at any other time. -/
def Dev.upNext (d : Dev) : Nat := d.up + b2n d.clock.inBoundary

/-- The clock of 0.8 ns since the reset, at clock `now` of the tick. -/
def Dev.clk (d : Dev) (now : Nat) : Nat := d.clock.base + now

/-! ### Counters (chapter 20) -/

/-- Does a programmable counter in statistic mode select this statistic of this instance (R479)? -/
def Prog.selects (p : Prog) (g code inst : Nat) : Bool :=
  p.mode == 1 && p.kind == 1 && p.group == g && decide (p.first ≤ inst) && decide (inst ≤ p.last)
    && lget (catalog g) p.stat 0 == code

/-- Add to the programmable counters that a test names, and to those that select PROG.VALUE of one of these (R479). A counter that selects PROG.VALUE itself adds
nothing to a further one (log entry 4). -/
def progsBump (ps : Tbl Prog) (hit : Nat × Prog → Bool) (n : Nat) : Tbl Prog :=
  ps.map (fun p =>
    let m := b2n (hit p) + (ps.filter (fun e => hit e && p.2.selects 21 Stat.progValue.code e.1)).length
    if m = 0 then p else (p.1, { p.2 with value := (p.2.value + n * m) % 2 ^ 64 }))

/-- Add to the programmable counters that select a statistic. -/
def progsAdd (ps : Tbl Prog) (g code inst n : Nat) : Tbl Prog := progsBump ps (fun p => p.2.selects g code inst) n

/-- Add `n` to a stored counter, modulo its width (R476); a 40-bit counter also keeps what a dump needs (R487). -/
def CounterUnit.store (c : CounterUnit) (g code inst n : Nat) : CounterUnit :=
  let key := ctrKey g code inst
  let w := ctrWidth g
  let v := tgetD c.live key 0 + n
  let c := { c with live := tput c.live key 0 (v % 2 ^ w) }
  if w = 40 then
    { c with delta := tput c.delta key 0 (tgetD c.delta key 0 + n),
             wrapped := if v < 2 ^ 40 then c.wrapped else key :: c.wrapped }
  else c

/-- Add `n` to a counter and to the programmable counters that select it (R473, R479). -/
def CounterUnit.add (c : CounterUnit) (g code inst n : Nat) : CounterUnit :=
  let c := c.store g code inst n
  { c with progs := progsAdd c.progs g code inst n }

/-- Count a statistic of an instance. -/
def Dev.count (d : Dev) (g : Nat) (st : Stat) (inst : Nat) (n : Nat := 1) : Dev :=
  { d with ctr := d.ctr.add g st.code inst n }

/-- Take back one count made in this clock (R310: the copy counted as delivered was not the one that is). -/
def CounterUnit.uncount (c : CounterUnit) (g code inst : Nat) : CounterUnit :=
  let key := ctrKey g code inst
  let m := 2 ^ ctrWidth g
  let v := tgetD c.live key 0
  { c with
    live := tput c.live key 0 ((v + m - 1) % m), delta := tput c.delta key 0 (tgetD c.delta key 0 - 1),
    wrapped := if v = 0 then c.wrapped.erase key else c.wrapped, progs := progsAdd c.progs g code inst (2 ^ 64 - 1) }
def Dev.uncount (d : Dev) (g : Nat) (st : Stat) (inst : Nat) : Dev := { d with ctr := d.ctr.uncount g st.code inst }

/-- Count a device statistic. -/
def Dev.countDev (d : Dev) (st : Stat) (n : Nat := 1) : Dev := d.count 0 st 0 n

/-- Count a statistic of a tree. -/
def Dev.countTree (d : Dev) (t : Nat) (st : Stat) (n : Nat := 1) : Dev := d.count 1 st t n

/-- Count a statistic that is kept per terminal and summed per tree (R114). -/
def Dev.countTerm (d : Dev) (t : Nat) (id : Option Nat) (st : Stat) (n : Nat := 1) : Dev :=
  match id with
  | some i => (d.count 2 st (t * 256 + i) n).count 1 st t n
  | none => d.count 1 st t n

/-- The bound block of a queue and its position, if it has one (R478). -/
def CounterUnit.blockOf (c : CounterUnit) (q : Nat) : Option Nat :=
  (c.blocks.find? (fun b => decide (b.2 ≤ q) && decide (q < b.2 + 64))).map (fun b => b.1 * 64 + (q - b.2))

/-- Count a queue statistic (R478): in its counter block, or in the UNBOUND statistic of its point; programmable counters of
group QUEUE see the queue number. -/
def Dev.countQueue (d : Dev) (q point : Nat) (st : Stat) (n : Nat := 1) : Dev :=
  let c := { d.ctr with progs := progsAdd d.ctr.progs 5 st.code q n }
  match c.blockOf q with
  | some inst => { d with ctr := c.store 5 st.code inst n }
  | none =>
    match queueStats.find? (fun p => p.1 == st) with
    | some p => { d with ctr := c.add 6 p.2.code point n }
    | none => { d with ctr := c }

/-- Restart the terminal counts of an instance at zero (R114, R533). -/
def Dev.clearTerm (d : Dev) (t id : Nat) : Dev :=
  { d with ctr := { d.ctr with
      live := terminalStats.foldl (fun l st => tdel l (ctrKey 2 st.code (t * 256 + id))) d.ctr.live } }

/-! ### Events (R444 to R447) -/

/-- Insert a record raised in a boundary clock among the records of that clock: ascending SOURCE (R447). -/
def stageInsert (r : EvRec) : List EvRec → List EvRec
  | [] => [r]
  | x :: t =>
    if x.boundary && x.cycle == r.cycle && decide (r.src < x.src) then r :: x :: t else x :: stageInsert r t

/-- Change an event ring. -/
def Dev.modRing (d : Dev) (r : Nat) (f : Ring → Ring) : Dev :=
  { d with host := { d.host with evRings := lmod d.host.evRings r Ring.reset f } }

/-- An event ring. -/
def Dev.ring (d : Dev) (r : Nat) : Ring := lget d.host.evRings r Ring.reset

/-- A record is dropped and counted in its ring's LOST (R444, R447). -/
def Ring.drop (r : Ring) : Ring := { r with lost := (r.lost + 1) % 2 ^ 32, drops := r.drops + 1 }

/-- Raise an event with an INDEX and its other items, in the cycle of the tick in progress unless another is named (R446). -/
def Dev.raiseAt (d : Dev) (cycle src cause : Nat) (flag : Bool) (index : Nat) (data : Bytes) : Dev :=
  let route := tgetD d.ev.routes src 0
  if route = 255 then d.countDev .evtMasked
  else if !(d.ring route).enable then d.modRing route Ring.drop
  else if d.ev.staging.length ≥ 4096 then d.modRing route Ring.drop
  else
    let r : EvRec := { src, cause, flag, index, cycle, data, ring := route, boundary := d.clock.inBoundary }
    { d with ev := { d.ev with staging :=
        if d.clock.inBoundary then stageInsert r d.ev.staging else d.ev.staging ++ [r] } }

/-- Raise an event that concerns no terminal. -/
def Dev.raise (d : Dev) (src : Nat) (data : Bytes := []) (cause : Nat := 0) (flag : Bool := false)
    (index : Nat := 0xFFFF) : Dev := d.raiseAt d.clock.cycle src cause flag index data

/-- Raise an event for its first occurrence of a tick only. -/
def Dev.raiseFirst (d : Dev) (src : Nat) (data : Bytes := []) (cause : Nat := 0) (index : Nat := 0xFFFF) : Dev :=
  if d.ev.seen.contains src then d
  else { (d.raise src data cause false index) with
         ev := { (d.raise src data cause false index).ev with seen := src :: d.ev.seen } }

/-- The line event of a tree (R63). -/
def Dev.lineEvent (d : Dev) (t cause : Nat) (id : Option Nat) : Dev :=
  d.raise (8 * t + 7) [] cause false (id.elim 0xFFFF (t * 256 + ·))

/-- The discovery event of a tree (R137). -/
def Dev.discEvent (d : Dev) (t cause : Nat) (id : Option Nat) (data : Bytes := []) : Dev :=
  d.raise (8 * t + 6) data cause false (id.elim 0xFFFF (t * 256 + ·))

/-- The scheduling event of a tree (R175). -/
def Dev.schedEvent (d : Dev) (t cause : Nat) (id : Option Nat) (data : Bytes := []) : Dev :=
  d.raise (8 * t + 5) data cause false (id.elim 0xFFFF (t * 256 + ·))

/-! ### MSI-X (R431) -/

/-- A vector's mask bit: bit 0 of its fourth table word, set at reset (log entry 6). -/
def HostIf.masked (h : HostIf) (v : Nat) : Bool := bitOf (tgetD h.msix (4 * v + 3) 1) 0

/-- Signal a vector: its message is sent, or it becomes pending while masked. -/
def HostIf.signal (h : HostIf) (v : Nat) : HostIf :=
  if h.masked v ∨ h.d3 then { h with pba := if h.pba.contains v then h.pba else v :: h.pba }
  else { h with sent := tupd h.sent v 0 (· + 1) }

def Dev.signal (d : Dev) (v : Nat) : Dev := { d with host := d.host.signal v }

/-! ### Mailbox commands (R439 to R441) -/

/-- A command in progress on a context has no status yet. -/
def HostIf.running (h : HostIf) (ctx : Nat) : Bool :=
  h.results.any (fun r => r.ref.ctx == ctx && r.status.isNone)

/-- A context. -/
def Dev.ctx (d : Dev) (c : Nat) : MbCtx := lget d.host.ctxs c MbCtx.reset

/-- Commands of a context that have begun and whose response is not yet written. -/
def HostIf.begun (h : HostIf) (ctx : Nat) : Nat := (h.results.filter (fun r => r.ref.ctx == ctx && !r.noResponse)).length

/-- The accepted command of a context that begins next, in SEQ order: its opcode and the tick of its doorbell. A page that a check of R440 has answered begins
none; commands accepted before a reset of the host interface still do (R432). -/
def Dev.nextPage (d : Dev) (ctx : Nat) : Option (Nat × Nat) :=
  match (d.ctx ctx).orphans with
  | o :: _ => some o
  | [] => ((((d.ctx ctx).pages.filter (fun p => p.early.isNone)).drop (d.host.begun ctx)).head?).map (fun p => (p.opcode, p.tick))

/-- Adesa does no work: before READY, after FATAL (R435), and in a pause. What R460 gives as waiting for the end of a pause waits in a management restart too
(R499). -/
def HostIf.idle (h : HostIf) : Bool := h.pause || h.fatal || !h.ready

/-- Another context's command became ready in the same tick and R9 puts it first (R30, R440). -/
def Dev.ctxBefore (d : Dev) (ctx tick : Nat) : Bool :=
  (List.range 8).any (fun k => (if d.now % 2 = 0 then decide (k < ctx) else decide (ctx < k)) && !d.host.running k &&
    (d.nextPage k).elim false (fun n => n.2 == tick))

/-- May a command of this opcode begin on a context (R440, R442): mailboxes are served (R435), no pause holds commands (R460), the command before it on the
context has completed, and the next accepted page of the context is one of this opcode that no context goes before. -/
def Dev.served (d : Dev) (ctx opcode : Nat) : Bool :=
  d.host.ready && !d.host.fatal && !d.host.pause && d.upd.pause.isNone && decide (ctx < 8) && !d.host.running ctx &&
    (d.nextPage ctx).elim false (fun n => n.1 == opcode && !d.ctxBefore ctx n.2)

/-- Change a context. -/
def Dev.modCtx (d : Dev) (c : Nat) (f : MbCtx → MbCtx) : Dev :=
  { d with host := { d.host with ctxs := lmod d.host.ctxs c MbCtx.reset f } }

/-- Begin a command: its result is entered, without a status. A command accepted before a host-interface reset gets no
response (R432). -/
def Dev.begin (d : Dev) (ref : CmdRef) : Dev :=
  let orphan := !(d.ctx ref.ctx).orphans.isEmpty
  let d := d.modCtx ref.ctx (fun c => { c with orphans := c.orphans.drop 1 })
  { d with host := { d.host with
      nextCmd := d.host.nextCmd + 1,
      results := d.host.results ++ [{ ref, status := none, resp := [], noResponse := orphan }] } }

/-- Complete a command with a status and a response; an error has an empty response. -/
def Dev.complete (d : Dev) (ref : CmdRef) (st : Status) (resp : Bytes := []) : Dev :=
  { d with host := { d.host with
      results := (d.host.results.map (fun r =>
        if r.ref = ref then { r with status := some st, resp := if st = .ok then resp else [] } else r)).filter
        (fun r => !(r.noResponse && r.status.isSome)) } }

/-- Complete a command whose response is written with any status (R470, R471). -/
def Dev.answer (d : Dev) (ref : CmdRef) (st : Status) (resp : Bytes) : Dev :=
  { d with host := { d.host with
      results := (d.host.results.map (fun r => if r.ref = ref then { r with status := some st, resp } else r)).filter
        (fun r => !(r.noResponse && r.status.isSome)) } }

/-- Complete a command where one waits. -/
def Dev.completeOpt (d : Dev) (ref : Option CmdRef) (st : Status) (resp : Bytes := []) : Dev :=
  ref.elim d (fun r => d.complete r st resp)

/-- A mailbox command of an opcode (R442): it begins where its context is served, and its body completes it now or later. -/
def Dev.mailbox (d : Dev) (ctx opcode : Nat) (body : CmdRef → Dev → Dev) : Dev :=
  if d.served ctx opcode then
    let ref : CmdRef := { ctx, id := d.host.nextCmd }
    body ref (d.begin ref)
  else d

/-- A mailbox command that reads host memory: in D3hot it waits, since the endpoint issues no DMA (R431). -/
def Dev.mailboxDma (d : Dev) (ctx opcode : Nat) (body : CmdRef → Dev → Dev) : Dev :=
  if d.host.d3 then d else d.mailbox ctx opcode body

/-- The FROM response (R506, R509 and others): a cycle number in 8 bytes. -/
def fromResp (c : Nat) : Bytes := le 8 (c % 2 ^ 48)

/-! ### Trees and terminals -/

/-- Number of trees of the variant (R2). -/
def Dev.treeCount (d : Dev) : Nat := if d.dev.variant = 2 then 32 else 64
/-- Number of uplinks of the variant (R2). -/
def Dev.uplinkCount (d : Dev) : Nat := if d.dev.variant = 2 ∨ d.dev.variant = 3 then 4 else 8

/-- The mode of an uplink in the entry in force (R271): 0 100GBASE-R, 1 four sub-ports, 255 disabled; none without a section. -/
def Dev.uplinkMode (d : Dev) (u : Nat) : Option Nat := (tget d.upl.entries u).map (fun b => leAt b 0 1)
/-- Is a tree present (R2, R3)? -/
def Dev.treePresent (d : Dev) (t : Nat) : Bool := decide (t < d.treeCount)

/-- A tree port. -/
def Dev.tree (d : Dev) (t : Nat) : Tree := tgetD d.trees t Tree.reset
/-- Change a tree port. -/
def Dev.modTree (d : Dev) (t : Nat) (f : Tree → Tree) : Dev := { d with trees := tmod d.trees t f }
/-- A tree's line state. -/
def Dev.line (d : Dev) (t : Nat) : TreeLine := tgetD d.lines t TreeLine.reset
def Dev.modLine (d : Dev) (t : Nat) (f : TreeLine → TreeLine) : Dev := { d with lines := tmod d.lines t f }

/-- A tree is attached (R57). -/
def Tree.attached (t : Tree) : Bool := t.attach = .attached
/-- A tree's transmit lane is lit (R57). -/
def Tree.lit (t : Tree) : Bool := t.lanes.state = .lit
/-- A present and attached tree (R138). -/
def Dev.treeUp (d : Dev) (t : Nat) : Bool := d.treePresent t && (d.tree t).attached

/-- The terminal that holds an id. -/
def Tree.byId (t : Tree) (id : Nat) : Option Term := t.terms.find? (fun x => x.id == some id)
/-- The terminal listed with a serial. -/
def Tree.bySerial (t : Tree) (s : Nat) : Option Term := t.terms.find? (fun x => x.serial == s)
/-- Change the terminal listed with a serial. -/
def Tree.modTerm (t : Tree) (s : Nat) (f : Term → Term) : Tree :=
  { t with terms := t.terms.map (fun x => if x.serial = s then f x else x) }
/-- The terminal a command names (R142). -/
def Tree.named (t : Tree) (n : TermName) : Option Term := if n.bySerial then t.bySerial n.serial else t.byId n.id

/-- R in force in tick `c`, as the changes known now have it. -/
def Term.rangeAt (x : Term) (c : Nat) : Nat :=
  match x.adj with
  | some a => if a.apply ≤ c then a.range else x.range
  | none => x.range

def Dev.modTerm (d : Dev) (t s : Nat) (f : Term → Term) : Dev := d.modTree t (fun x => x.modTerm s f)

/-- Global terminal index (R5). -/
def globalIndex (t id : Nat) : Nat := t * 256 + id

/-- A terminal's keys. -/
def Dev.keys (d : Dev) (g : Nat) : TermKeys := tgetD d.sec.keys g TermKeys.reset
def Dev.modKeys (d : Dev) (g : Nat) (f : TermKeys → TermKeys) : Dev :=
  { d with sec := { d.sec with keys := tput d.sec.keys g TermKeys.reset (f (tgetD d.sec.keys g TermKeys.reset)) } }

/-- The terminal holds its downstream SA at frame `c` (R370). -/
def TermKeys.held (k : TermKeys) (c : Nat) : Bool :=
  match k.firstX with
  | none => false
  | some x => decide (x + 32 ≤ c)

/-- In QUIET and DOZE both packet pipelines and the cipher are clock-gated (R490): no frame enters, leaves or moves on in them. -/
def Dev.gated (d : Dev) : Bool := d.dev.power == .quiet || d.dev.power == .doze

/-! ### Management cores (R501) -/

/-- A core is halted, by debug or because the device dozes (R490). -/
def Dev.coreHalted (d : Dev) (n : Nat) : Bool := (lget d.dbg.cores n CoreDebug.reset).halted || (d.dev.power = .doze && n != 0)

/-! ### Sluice (R492 to R494) -/

/-- Tokens held by admitted operations. -/
def Sluice.heldTokens (s : Sluice) : Nat := sumOf (s.held.map (fun h => h.op.cost))

/-- The operation of a kind ends in this tick; its tokens are released at the next boundary (R493). -/
def Dev.endOp (d : Dev) (p : HeavyOp → Bool) : Dev :=
  { d with sluice := { d.sluice with held := d.sluice.held.map (fun h =>
      if p h.op && h.ended.isNone then { h with ended := some d.clock.cycle } else h) } }

/-- An operation ended in a tick. -/
def Dev.endedIn (d : Dev) (op : HeavyOp) (tick : Nat) : Dev :=
  let held := d.sluice.held.map (fun (h : HeldOp) => if h.op = op then { h with ended := some tick } else h)
  { d with sluice := { d.sluice with held } }

/-- Withdraw waiting requests. -/
def Dev.withdrawOp (d : Dev) (p : HeavyOp → Bool) : Dev :=
  { d with sluice := { d.sluice with fifo := d.sluice.fifo.filter (fun r => !p r.op) } }

/-- A request refused: the NOT_ADMITTED event and the REFUSED count (R494, R508, R514). -/
def Dev.notAdmitted (d : Dev) (index code : Nat) : Dev :=
  let d := d.raise 0x3A2 (le 1 index ++ le 1 code)
  { d with sluice := { d.sluice with refused := (d.sluice.refused + 1) % 2 ^ 32 } }

/-- Put a request to Sluice (R494); refused at once when the FIFO is full or the cost exceeds B − L − reserves. The flag says that it
waits. -/
def Dev.request (d : Dev) (op : HeavyOp) (index : Nat) (ref : Option CmdRef) : Dev × Bool :=
  if 1024 ≤ d.sluice.fifo.length ∨ d.sluice.budget < d.sluice.base + d.sluice.reserve + op.cost then
    (d.notAdmitted index op.code, false)
  else
    let r : SluiceReq := { op, index, since := d.clock.cycle, ref, reported := false }
    ({ d with sluice := { d.sluice with fifo := d.sluice.fifo ++ [r] } }, true)

end Sys2Proof.Machine
end

