-- ==== Sys2Proof/Machine/Keys.lean ====
section
/-!
DEFINITION. Keys and nonces of the trees (R355 to R375): AES-GCM over the opaque primitives of Config, phase slots and their alias,
IVs, lock messages as they are queued, KEY_WRAP and KEY_ORIGIN, first keying, rekeys and erasures.
-/
namespace Sys2Proof.Machine

/-! ### The cipher pipelines of the trees (R28, R356, R366) -/

/-- The pipelines of group 0, which carry tree parcels: 0 to 10. -/
def treePipes : List Nat := List.range 11

/-- A unit takes its place at the group's input: behind the units ready in earlier clocks and, among those of its own clock, in R9 order of tree number
(R30, R356). -/
def cipherInsert (cycle : Nat) (w : CipherWait) (l : List CipherWait) : List CipherWait :=
  let later (x : CipherWait) : Bool :=
    x.ready == w.ready && (if cycle % 2 = 0 then decide (w.u.tree < x.u.tree) else decide (x.u.tree < w.u.tree))
  let tail := (l.reverse.takeWhile later).reverse
  l.take (l.length - tail.length) ++ w :: tail

/-- The first pipeline of the group with a free half takes a unit; none where every half is held. -/
def enterPipe (h : HeldUnit) : (k : Nat) → List CipherPipe → Option (List CipherPipe)
  | 0, _ => none
  | _ + 1, [] => none
  | k + 1, p :: t =>
    if p.halfA.isNone then some ({ p with halfA := some h } :: t)
    else if p.halfB.isNone then some ({ p with halfB := some h } :: t)
    else (enterPipe h k t).map (fun r => p :: r)

/-- The units at the input enter in order while a half is free; the others wait. -/
def Security.enterGo : List CipherWait → Security → Security
  | [], s => { s with cipherIn := [] }
  | w :: t, s =>
    match enterPipe { seq := s.cipherSeq, u := w.u } 11 s.pipes with
    | none => { s with cipherIn := w :: t }
    | some pipes => Security.enterGo t { s with pipes, cipherSeq := s.cipherSeq + 1 }
def Security.enterAll (s : Security) : Security := Security.enterGo s.cipherIn s

/-- The clock from which a pipeline takes a unit: its input is free, and a half of its hold buffer where the unit is held for its verdict (R366). -/
def PipeFree.from_ (p : PipeFree) (held : Bool) : Nat := if held then maxOf p.input [minOf p.halfA [p.halfB]] else p.input

/-- A pipeline with a unit from a clock on: one block a clock (R355), a half held until the verdict 40 clocks after the last byte (R366). -/
def PipeFree.take (p : PipeFree) (u : CipherUse) : PipeFree :=
  let out := u.start + u.blocks
  if !u.held then { p with input := out }
  else if p.halfA ≤ p.halfB then { p with input := out, halfA := out + 40 }
  else { p with input := out, halfB := out + 40 }

/-- A unit takes the first pipeline free in its clock, else the one free next (R356). -/
def CipherUse.enter (clk : Nat) (u : CipherUse) (l : List PipeFree) : CipherUse × List PipeFree :=
  let at_ := l.map (fun p => maxOf clk [p.from_ u.held])
  let start := at_.foldl (fun a b => if b < a then b else a) (at_.headD clk)
  let pipe := at_.findIdx (fun c => c == start)
  let u := { u with pipe, start }
  (u, lmod l pipe { input := 0, halfA := 0, halfB := 0 } (fun p => p.take u))

/-- The units of the group's clock, each in its pipeline, and how the pipelines stand after them. -/
def CipherGroup.run (g : CipherGroup) : List CipherUse × List PipeFree :=
  g.uses.foldl (fun acc u => let r := u.enter g.clk acc.2; (acc.1 ++ [r.1], r.2)) ([], g.free)

/-- A unit ready in a clock: those of one clock go in R9 order of their numbers (R30, R356). -/
def CipherGroup.add (g : CipherGroup) (cycle clk : Nat) (u : CipherUse) : CipherGroup :=
  let g : CipherGroup := if g.clk < clk then { free := g.run.2, clk, uses := [] } else g
  let g := { g with uses := tieOrder cycle (fun x => x.index) (g.uses ++ [u]) }
  { g with uses := g.run.1 }

/-- A unit of `bytes` bytes of tree, uplink or link `index` passes a pipeline of its group: 0 the trees, 1 uplink MACsec, 2 Towpath segments and wrapped keys
(R28, R356). Only where it passes is kept: encryption and, in groups 1 and 2, the verdict come within the command that brings the unit (log entry 93). -/
def Dev.cipherUse (d : Dev) (group index bytes clk : Nat) (held : Bool) : Dev :=
  let u : CipherUse := { index, blocks := ceilDiv bytes 16, held, pipe := 0, start := 0 }
  { d with sec := { d.sec with groups := lmod d.sec.groups group (.reset 2) (fun g => g.add d.now clk u) } }

/-! ### AES-256-GCM (R355) -/

/-- The keystream over a byte string. -/
def gcmMask (key nonce : Nat) (l : Bytes) : Bytes :=
  (l.zip (List.range l.length)).map (fun p => p.1 ^^^ Config.gcmByte key nonce p.2)

/-- Encrypt: ciphertext and tag. -/
def gcmSeal (key nonce : Nat) (aad plain : Bytes) : Bytes × BitVec 128 :=
  let c := gcmMask key nonce plain
  (c, Config.gcmTag key nonce aad c)

/-- Decrypt: the plaintext where the tag verifies (R366). -/
def gcmOpen (key nonce : Nat) (aad cipher : Bytes) (tag : BitVec 128) : Option Bytes :=
  if Config.gcmTag key nonce aad cipher = tag then some (gcmMask key nonce cipher) else none

/-! ### Slots and nonces (R358, R360, R361) -/

/-- The slot that a phase names, after the alias rule (R358): a slot without a key is an alias of the other one. -/
def slotOf (l : List (Option KeySlot)) (phase : Bool) : Option KeySlot :=
  match lget l (b2n phase) none with
  | some s => some s
  | none => lget l (b2n (!phase)) none

/-- Erase the slot of a phase (R372). Where the other slot is its alias, the other slot keeps the key, so that a terminal that was
not rekeyed keeps its key (log entry 23). -/
def eraseSlot (l : List (Option KeySlot)) (phase : Bool) : List (Option KeySlot) :=
  let l := match lget l (b2n (!phase)) none with
    | some _ => l
    | none => lset l (b2n (!phase)) (lget l (b2n phase) none)
  lset l (b2n phase) none

/-- The claim index and ORIGIN of a tree port (R167, R360). -/
def Dev.origin (d : Dev) (t : Nat) : Nat := d.dev.devAddr * 64 + t

/-- KC of a slot at cycle `c` (R360). -/
def KeySlot.kc (k : KeySlot) (c : Nat) : Nat := (c + k.koff) % 2 ^ 48

/-- KC at which an SA stops (R363). -/
def kcLimit : Nat := 2 ^ 48 - 2 ^ 32

/-- IV of an item (R360): SALT_EFF, KC, CTR; `origin` is zero upstream. -/
def KeySlot.iv (k : KeySlot) (origin c ctr : Nat) : Nat :=
  Nat.xor k.salt.toNat (origin % 4096) * 2 ^ 64 + k.kc c * 2 ^ 16 + ctr % 2 ^ 16

/-- AAD of a parcel (R364). -/
def parcelAad (flow body : Nat) (twin : Option Nat) (up berth : Bool) : Bytes :=
  be 4 flow ++ be 2 body ++ be 1 (b2n twin.isSome + 2 * b2n up + 4 * b2n berth) ++ be 1 0 ++
    twin.elim [] (fun t => be 4 t)

/-! ### Queueing lock messages (R85, R86, R125) -/

/-- The rank of a message type (R86), but for standing tables sent under R151. TSW_PIECE alone has rank 5. -/
def rankOf (typ : Nat) : Nat :=
  if typ = 0x41 then 1 else if 0x10 ≤ typ ∧ typ ≤ 0x1F then 3 else if typ = 0x61 then 5 else 4

/-- A message to one terminal, with a named tick. -/
def lockMsg (dest typ auth : Nat) (pre : Bytes) (tick : Option Nat) (post : Bytes) (rule : TickRule) (kind : MsgKind)
    (serial notBefore : Nat) : LockMsg :=
  { dest, typ, auth, pre, tick, post, rank := rankOf typ, rule, kind, serial, notBefore, ref := none, resp := [] }

/-- Queue a message on a tree. -/
def Tree.queueMsg (t : Tree) (m : LockMsg) : Tree := { t with down := { t.down with lm := t.down.lm ++ [m] } }

/-- Withdraw the queued messages that a test names. -/
def Tree.withdraw (t : Tree) (p : LockMsg → Bool) : Tree :=
  { t with down := { t.down with lm := t.down.lm.filter (fun m => !p m) } }

/-! ### KEY_WRAP and KEY_ORIGIN (R369, R370, R372, R373) -/

/-- The KEY_WRAP of a terminal (R369) for the keys of phase `phase`, in force downstream from frame `from_`, with the IV the device drew. -/
def keyWrapMsg (d : Dev) (t : Nat) (id serial : Nat) (k : TermKeys) (tk : BitVec 256) (phase refresh : Bool)
    (from_ wnonce notBefore : Nat) : LockMsg :=
  let down := (slotOf k.down phase).getD { key := 0, salt := 0, koff := 0 }
  let up := (slotOf k.up phase).getD { key := 0, salt := 0, koff := 0 }
  let pre := be 1 (b2n phase) ++ be 1 (b2n refresh) ++ be 2 (d.tree t).epoch ++ be 2 (d.origin t) ++ be 6 down.koff
  let head := pre ++ be 6 from_ ++ be 2 0 ++ be 12 wnonce
  let aad := be 2 id ++ be 1 0x40 ++ be 1 0 ++ be 2 120 ++ head
  let w := gcmSeal tk.toNat wnonce aad (be 32 down.key.toNat ++ be 4 down.salt.toNat ++ be 32 up.key.toNat ++ be 4 up.salt.toNat)
  let post := be 2 0 ++ be 12 wnonce ++ w.1 ++ be 16 w.2.toNat
  lockMsg id 0x40 0 pre (some from_) post (if refresh then .plain else .shared) .keyWrap serial notBefore

/-- Queue a KEY_WRAP with a fresh WNONCE (R369). -/
def Dev.sendKeyWrap (d : Dev) (t id serial : Nat) (phase refresh : Bool) (from_ : Nat) : Dev :=
  let k := d.keys (globalIndex t id)
  match k.tk with
  | none => d
  | some tk =>
    let (n, d) := d.draw
    d.modTree t (fun x => x.queueMsg (keyWrapMsg d t id serial k tk phase refresh from_ (n % 2 ^ 96) d.now))

/-- KEY_ORIGIN for an epoch, rank 1 (R369, R375). -/
def keyOriginMsg (epoch origin notBefore : Nat) : LockMsg :=
  lockMsg 0xFFFF 0x41 0 (be 2 epoch ++ be 2 origin) none [] .plain .other 0 notBefore

/-- New keys for a slot (R357, R360, R363): drawn from the DRBG; KOFF makes KC equal the key clock, or start at 0 where the key
replaces one that stopped on KC. -/
def Dev.newSlot (d : Dev) (restart : Bool) : KeySlot × Dev :=
  let (a, d) := d.draw
  let (b, d) := d.draw
  let koff := if restart then (2 ^ 48 - d.now % 2 ^ 48) % 2 ^ 48
              else (d.clock.keyClock + 2 ^ 48 - d.now % 2 ^ 48) % 2 ^ 48
  ({ key := BitVec.ofNat 256 a, salt := BitVec.ofNat 32 b, koff }, d)

/-- First keying of a terminal at boundary X (R370): phase-0 keys, DOWN_FROM = X + 32. -/
def Dev.firstKeying (d : Dev) (t id : Nat) : Dev :=
  let g := globalIndex t id
  let (dn, d) := d.newSlot false
  let (up, d) := d.newSlot false
  d.modKeys g (fun k =>
    { k with down := [some dn, none], up := [some up, none], downPhase := false, firstX := some d.now,
             downFrom := d.now + 32, stopped := none, rekey := none })

/-- The first frame at or after X + 32 with U mod 64 = 60 (R372). -/
def rekeyU (x : Nat) : Nat := x + 32 + (60 + 64 - (x + 32) % 64) % 64

/-- A rekey of one terminal at boundary X (R372): new keys in the slot of the other phase of both directions. -/
def Dev.startRekey (d : Dev) (t id : Nat) (ref : Option CmdRef) : Dev :=
  let g := globalIndex t id
  let k := d.keys g
  let p' := !k.downPhase
  let (dn, d) := d.newSlot (k.stopped == some .kc)
  let (up, d) := d.newSlot (k.stopped == some .kc)
  d.modKeys g (fun k =>
    { k with down := lset k.down (b2n p') (some dn), up := lset k.up (b2n p') (some up),
             rekey := some { x := d.now, phase := p', u := rekeyU d.now, ref, erasedDown := false } })

/-- Is `c` one of the frames X + (i mod 8) + 8m, m = 0 to 3 (R372)? -/
def wrapFrame (x i c : Nat) : Bool := decide (x ≤ c) && decide (c < x + 32) && (c - x) % 8 == i % 8

/-- The terminal is IN_SERVICE at this boundary (R126): it is, or FROM of its ADMIT is reached. -/
def Term.serving (x : Term) (now : Nat) : Bool := x.state == .inService || x.admitFrom.elim false (fun f => decide (f ≤ now))

/-- What the boundary does for the keys of one terminal (R370, R372, R373): first keying, the KEY_WRAPs of a delivery, the flip of
the downstream phase at X + 32, the refresh. -/
def Dev.keysBoundary (d : Dev) (t : Nat) (x : Term) : Dev :=
  match x.id with
  | none => d
  | some id =>
    let g := globalIndex t id
    let d := if (d.keys g).tk.isSome && (d.keys g).firstX.isNone && x.serving d.now then d.firstKeying t id else d
    let k := d.keys g
    let c := d.now
    let d := match k.firstX with
      | some x0 => if wrapFrame x0 id c then d.sendKeyWrap t id x.serial false false (x0 + 32) else d
      | none => d
    let d := match k.rekey with
      | none => d
      | some r =>
        let d := if wrapFrame r.x id c then d.sendKeyWrap t id x.serial r.phase false (r.x + 32) else d
        if c = r.x + 32 then
          d.modKeys g (fun k => { k with downPhase := r.phase, downFrom := c, stopped := none })
        else d
    let k := d.keys g
    if k.firstX.isSome && c % 8000 == 8 * id + 1 then d.sendKeyWrap t id x.serial k.downPhase true k.downFrom else d

/-- The header key phase of a tree (R71). -/
def Dev.kp (d : Dev) (t : Nat) : Bool := tgetD d.sec.treeKp t false

/-- At frame U the header KP of the tree becomes the phase of the rekey (R372). -/
def Dev.flipKp (d : Dev) (t : Nat) : Dev :=
  let flips := (d.tree t).terms.filterMap (fun x => x.id.bind (fun id => (d.keys (globalIndex t id)).rekey.bind (fun r =>
    if r.u = d.now then some r.phase else none)))
  match flips with
  | [] => d
  | p :: _ => { d with sec := { d.sec with treeKp := tput d.sec.treeKp t false p } }

/-- Erase the session keys of a terminal (R371): a pending KEY_WRAP is withdrawn; a rekey in progress ends. -/
def Dev.eraseSession (d : Dev) (t id : Nat) : Dev :=
  let g := globalIndex t id
  let ref := (d.keys g).rekey.bind (·.ref)
  let d := d.modKeys g (fun k => { TermKeys.reset with tk := k.tk, lastRekey := k.lastRekey })
  let d := d.modTree t (fun x => x.withdraw (fun m => (m.typ == 0x40 || m.typ == 0x01) && m.dest == id))
  d.completeOpt ref .denied

/-- Erase the TK too (R371). -/
def Dev.eraseAll (d : Dev) (t id : Nat) : Dev :=
  let d := d.eraseSession t id
  { d with sec := { d.sec with keys := tdel d.sec.keys (globalIndex t id) } }

/-- Erasures that are due (R372): the old downstream slot at X + 64 and the old upstream slots of the whole tree at U + 36; the rekey
is then complete and its command answers FROM and DONE (R384). -/
def Dev.rekeyDue (d : Dev) (t id : Nat) : Dev :=
  let g := globalIndex t id
  match (d.keys g).rekey with
  | none => d
  | some r =>
    let d := if r.x + 64 ≤ d.now ∧ !r.erasedDown then
        d.modKeys g (fun k => { k with down := eraseSlot k.down (!r.phase), rekey := some { r with erasedDown := true } })
      else d
    if r.u + 36 ≤ d.now then
      let d := (d.tree t).terms.foldl (fun d x => x.id.elim d (fun i =>
        d.modKeys (globalIndex t i) (fun k => { k with up := eraseSlot k.up (!r.phase) }))) d
      let d := d.modKeys g (fun k => { k with rekey := none, lastRekey := d.now })
      match r.ref with
      | none => d
      | some ref =>
        (d.raise 0x2C6 (le 1 0 ++ le 6 d.now)).complete ref .ok (fromResp r.x ++ fromResp d.now)
    else d

end Sys2Proof.Machine
end

