-- ==== Sys2Proof/Machine/Time.lean ====
section
/-!
DEFINITION. Time, synchronisation and triggers (chapter 14): the time counter and its states, PPS, TEV pins, TIME_OFFSET and
TIME_INFO messages, network triggers, and the commands TIME_CONFIG, TIME_INCREMENT_SET, TEV_SCHEDULE and NET_TRIGGER.
-/
namespace Sys2Proof.Machine

/-! ### The counter (R331) -/

/-- Reference periods of 5 ns up to a clock of 0.8 ns of the tick. -/
def periodsAt (now : Nat) : Nat := now * 4 / 25

/-- The counter, in units of 2^−32 ns, at a clock of the tick in progress; an INCREMENT just written counts from the next period on. -/
def TimeUnit.value (t : TimeUnit) (now : Nat) : Nat :=
  if periodsAt now < t.basePeriod then t.base - (t.basePeriod - periodsAt now) * t.prevInc else t.base + (periodsAt now - t.basePeriod) * t.inc

/-- The counter as a timestamp reads it, at the resolution of 0.8 ns (R347): within a reference period it goes on in proportion. -/
def TimeUnit.stamp (t : TimeUnit) (now : Nat) : Nat := t.value now + now * 4 % 25 * (if periodsAt now < t.basePeriod then t.prevInc else t.inc) / 25

/-- The counter wraps with its 48 bits of seconds (R331). -/
def counterSpan : Nat := 2 ^ 48 * 1000000000 * 2 ^ 32

/-- The counter in whole nanoseconds. -/
def TimeUnit.ns (t : TimeUnit) (now : Nat) : Nat := t.value now / 2 ^ 32

/-- TSEC of a counter value. -/
def secOf (v : Nat) : Nat := v / 2 ^ 32 / 1000000000
/-- TNS of a counter value. -/
def nsOf (v : Nat) : Nat := v / 2 ^ 32 % 1000000000
/-- TFRAC of a counter value. -/
def fracOf (v : Nat) : Nat := v % 2 ^ 32

/-- The counter at the next boundary, where the tick spans 25,000 periods and `extra` more (R331, R337). -/
def TimeUnit.atBoundary (t : TimeUnit) (extra : Nat) : Nat := t.base + (25000 + extra - t.basePeriod) * t.inc

/-- TOD_VALID (R332). -/
def TimeUnit.todValid (t : TimeUnit) : Bool := t.state = .locked || t.state = .holdover

/-- φ of a counter value, in units of 2^−32 ns (R336). -/
def phaseOf (v : Nat) : Nat := v % (125000 * 2 ^ 32)

/-- The distance of two phases around the tick, in units of 2^−32 ns. -/
def phaseDist (a b : Nat) : Nat :=
  let d := if a ≤ b then b - a else a - b
  if d ≤ 125000 * 2 ^ 32 - d then d else 125000 * 2 ^ 32 - d

/-- An open bin in which the counter was stepped, or in which time of day was not valid, is SUSPECT (R327). -/
def PmEntity.markSuspect (e : PmEntity) : PmEntity := { e with open_ := e.open_.map (fun b => { b with suspect := true }) }

/-- The open PM bins are SUSPECT (R327, R334). -/
def Dev.suspectBins (d : Dev) : Dev :=
  { d with lines := tmap d.lines (fun _ (l : TreeLine) =>
    { l with pm := l.pm.markSuspect, terms := tmap l.terms (fun _ (x : TermLine) => { x with pm := x.pm.markSuspect }) }) }

/-- A state change raises TIME_STATE (R332, R354); where it ends the validity of time of day, the open PM bins are SUSPECT. -/
def Dev.timeState (d : Dev) (st : TimeState) : Dev :=
  let d := if st = .freeRun ∨ st = .unset then d.suspectBins else d
  ({ d with time := { d.time with state := st, lockedTick := if st = TimeState.locked then d.upNext else d.time.lockedTick } }).raise 0x303 (le 1 st.code)

/-- PPS_IN has had no valid edge for 2 s by the end of the tick in progress (R332). -/
def Dev.ppsOut (d : Dev) : Bool :=
  d.time.lastPps.elim true (fun p => decide (p + 2 * Config.ticksPerSecond * Config.clocksPerTick ≤ d.clk Config.clocksPerTick))

/-- TIME_SOURCE_LOST (R332): under SOURCE PTP or PPS_IN. The time state does not change during a management pause (R460). -/
def timeSourceLost (d : Dev) : Dev :=
  if d.time.set.source = 2 ∨ d.host.idle ∨ (d.time.set.source = 1 ∧ !d.ppsOut) then d
  else
    let d := if d.time.set.source = 1 ∧ !d.time.ppsLost then
        ({ d with time := { d.time with ppsLost := true } }).raise 0x307 [] 0 true else d
    if d.time.state ≠ .locked then d
    else ({ d with time := { d.time with holdSince := d.now, goodSamples := 0 } }).timeState .holdover
def execTimeSourceLost (s : State) : Host.Outcome State Fault Refusal := s.onDev timeSourceLost

/-- TIME_SOURCE_REGAINED (R332): 4 consecutive samples below 100 ns. -/
def timeSourceRegained (d : Dev) : Dev :=
  if (d.time.state = .holdover ∨ d.time.state = .freeRun) ∧ 4 ≤ d.time.goodSamples ∧ !d.host.idle ∧ !(d.time.set.source = 1 ∧ d.time.ppsLost) then
    d.timeState .locked
  else d
def execTimeSourceRegained (s : State) : Host.Outcome State Fault Refusal := s.onDev timeSourceRegained

/-- HOLDOVER_LIMIT (R332). -/
def holdoverLimit (d : Dev) : Dev :=
  if d.time.state = .holdover ∧ !d.host.idle ∧ d.time.set.holdLimit ≠ 0 ∧
      d.time.holdSince + d.time.set.holdLimit * Config.ticksPerSecond ≤ d.now then d.timeState .freeRun
  else d
def execHoldoverLimit (s : State) : Host.Outcome State Fault Refusal := s.onDev holdoverLimit

/-- What a counter value must gain, in ns, to stand at the whole second nearest to it. -/
def toWholeSecond (v : Nat) : Int :=
  let second := 1000000000 * 2 ^ 32
  let r := v % second
  (if r * 2 < second then -(r : Int) else ((second - r : Nat) : Int)) / 2 ^ 32

/-- PPS_IN_EDGE (R335, R354): a valid edge; one after a loss raises PPS_IN_LOSS cleared. The edge marks a whole second: what the counter is off it is the servo's next
sample. -/
def ppsInEdge (now : Nat) (d : Dev) : Dev :=
  let lost := d.time.ppsLost
  let d := { d with time := { d.time with lastPps := some (d.clk now), ppsLost := false, ppsOffset := some (toWholeSecond (d.time.stamp now)) } }
  if lost then d.raise 0x307 [] 0 false else d
def execPpsInEdge (now : Nat) (s : State) : Host.Outcome State Fault Refusal := s.onDev (ppsInEdge now)

/-- An INCREMENT in range (R331). -/
def incOk (inc : Nat) : Bool := decide (4995 * 2 ^ 32 ≤ inc * 1000) && decide (inc * 1000 ≤ 5005 * 2 ^ 32)

/-- Write INCREMENT; it takes effect in the next reference period (R333). -/
def TimeUnit.setInc (t : TimeUnit) (inc now : Nat) : TimeUnit :=
  { t with
    base := t.base + (periodsAt now + 1 - t.basePeriod) * t.inc, basePeriod := periodsAt now + 1, inc,
    prevInc := if t.basePeriod = periodsAt now + 1 then t.prevInc else t.inc }

/-- The servo counts a sample, then steps when the offset exceeds STEP_THRESHOLD, else writes INCREMENT (R332, R333). -/
def TimeUnit.sample (t : TimeUnit) (offset : Int) (inc : Option Nat) (now : Nat) : TimeUnit :=
  let t := { t with goodSamples := if offset.natAbs < 100 then t.goodSamples + 1 else 0 }
  if t.set.stepThreshold ≠ 0 ∧ t.set.stepThreshold < offset.natAbs then { t with pend := t.pend ++ [.stepRel none offset] }
  else inc.elim t (fun i => if incOk i then t.setInc i now else t)

/-- SERVO_UPDATE (R332, R333, R335): under SOURCE PTP the sample is the servo's own, under PPS_IN that of the last edge not yet taken. The servo waits during a
management pause (R460) and under SOURCE HOST. -/
def servoUpdate (o : ServoOut) (d : Dev) : Dev :=
  if d.host.idle ∨ d.time.set.source = 2 then d
  else if d.time.set.source = 1 then
    d.time.ppsOffset.elim d (fun v => { d with time := { d.time.sample v o.inc o.now with ppsOffset := none } })
  else { d with time := d.time.sample o.offset o.inc o.now }
def execServoUpdate (o : ServoOut) (s : State) : Host.Outcome State Fault Refusal := s.onDev (servoUpdate o)

/-- TNS passes 0 by counting in the period that ends at a clock (R338): a counter value that a step gave at the boundary was not reached by counting. -/
def Dev.secondPasses (d : Dev) (now : Nat) : Bool :=
  let v := d.time.value now
  let inc := if periodsAt now ≤ d.time.basePeriod then (if d.time.basePeriod = 0 then d.time.inc else d.time.prevInc) else d.time.inc
  secOf (v - inc) != secOf v && !(periodsAt now == 0 && d.time.stepTick == some d.up)

/-- PPS_OUT_PULSE (R338): TNS passed 0 in the period that ends at `now`; low in UNSET and while PPS_OUT is not enabled. A pulse that runs keeps its width. -/
def ppsOutPulse (now : Nat) (d : Dev) : Dev :=
  if d.time.state ≠ .unset ∧ d.time.set.ppsOut ∧ d.secondPasses now then
    let stop := d.clk now + d.time.set.ppsWidth * Config.clocksPerMicrosecond
    { d with time := { d.time with ppsHigh := some (d.time.ppsHigh.elim stop (Nat.max stop)) } }
  else d
def execPpsOutPulse (now : Nat) (s : State) : Host.Outcome State Fault Refusal := s.onDev (ppsOutPulse now)

/-- The timestamp of an event message at clock `now` (R340): the counter, corrected by the port's latency in ps, less on receipt and more on sending (log
entry 100). -/
def TimeUnit.ptpStamp (t : TimeUnit) (now : Nat) (lat : Int) : Int := (t.stamp now : Int) + lat * 2 ^ 32 / 1000

/-- Write bytes at offset `o` of a frame that holds them. -/
def putAt (l : Bytes) (o : Nat) (v : Bytes) : Bytes := if o + v.length ≤ l.length then l.take o ++ v ++ l.drop (o + v.length) else l

/-- A sent event message of a one-step port (R340): a Sync takes its transmit stamp as originTimestamp, a Pdelay_Resp the turnaround since the last
Pdelay_Req received added to its correctionField (log entry 100). -/
def PtpPort.oneStepped (x : PtpPort) (l : Bytes) : Bytes :=
  let h := (afterTags l (l.length / 4 + 1) 12).2 + 2
  match x.txStamp, x.reqStamp with
  | some v, rx =>
    let v' := v.toNat % counterSpan
    match (beAt l h 1) % 16, rx with
    | 0, _ => putAt l (h + 34) (be 6 (secOf v') ++ be 4 (nsOf v'))
    | 3, some r => putAt l (h + 8) (beInt 8 (signed 64 (beAt l (h + 8) 8) + (v - r) / 65536))
    | _, _ => l
  | none, _ => l

/-- The state of a PTP port changes (R339, R354): PTP_PORT. -/
def Dev.ptpState (d : Dev) (port st : Nat) : Dev :=
  if (tget d.time.ports port).elim true (fun x => x.state == st) then d
  else
    ({ d with time := { d.time with ports := tmod d.time.ports port (fun x => { x with state := st }) } }).raise 0x306 (le 1 port ++ le 1 st)

/-- An event message was received, with its messageType (`rx`), or sent on a PTP port at clock `now` (R340, R354); messageType 2 is a Pdelay_Req. -/
def Dev.ptpEvent (d : Dev) (port inst now : Nat) (rx : Option Nat) : Dev :=
  let f (p : PtpPort) : PtpPort :=
    match rx with
    | some m =>
      let v := some (d.time.ptpStamp now (-p.rxLat))
      { p with rxStamp := v, reqStamp := if m = 2 then v else p.reqStamp }
    | none => { p with txStamp := some (d.time.ptpStamp now p.txLat) }
  ({ d with time := { d.time with ports := tmod d.time.ports port f } }).count 19 (if rx.isSome then .timePtpRx else .timePtpTx) inst

/-! ### TEV pins (R345 to R347) -/

def TimeUnit.modPin (t : TimeUnit) (p : Nat) (f : TevPin → TevPin) : TimeUnit :=
  { t with pins := lmod t.pins p TevPin.reset f }

/-- Fire an entry at a clock: the pulse runs for WIDTH from there, the entry advances or goes. -/
def TevPin.fire (p : TevPin) (e : TevEntry) (clk : Nat) : TevPin :=
  let left := e.left.map (· - 1)
  let rest := p.entries.filter (fun x => x.entry != e.entry)
  let entries := if e.period = 0 ∨ left = some 0 then rest
    else p.entries.map (fun x => if x.entry = e.entry then { e with next := e.next + e.period, left } else x)
  { p with entries, fired := (clk, clk + ceilDiv (e.width * 5) 4) :: p.fired.filter (fun f => decide (clk < f.2)) }

/-- The entry due next: the earliest instant, then the lowest entry number. -/
def TevPin.due (p : TevPin) (ns : Nat) : Option TevEntry :=
  (sortBy (fun a b => decide (a.next < b.next) || (a.next == b.next && decide (a.entry ≤ b.entry))) p.entries).find?
    (fun e => decide (e.next ≤ ns))

/-- TEV_FIRE (R346). -/
def tevFire (pin now : Nat) (d : Dev) : Dev :=
  let p := lget d.time.pins pin TevPin.reset
  if p.mode ≠ 1 then d
  else match p.due (d.time.ns now) with
    | none => d
    | some e => { d with time := d.time.modPin pin (fun p => p.fire e (d.clk now)) }
def execTevFire (pin now : Nat) (s : State) : Host.Outcome State Fault Refusal := s.onDev (tevFire pin now)

/-- The level of an OUTPUT pin at a clock: the OR of its pulses (R346). -/
def TevPin.high (p : TevPin) (clk : Nat) : Bool := p.mode == 1 && p.fired.any (fun f => decide (f.1 ≤ clk) && decide (clk < f.2))

/-- What a step does to the entries of a pin (R346): a one-shot passed by a forward step fires at once; a periodic entry fires next at
the smallest T + k × PERIOD after the stepped time that has not fired, so that a backward step repeats none. Answers the pin and the late entries. -/
def TevPin.stepped (p : TevPin) (old new clk : Nat) : TevPin × List TevEntry :=
  let late := p.entries.filter (fun e => e.period = 0 && decide (e.next ≤ new) && decide (old < e.next))
  let p := late.foldl (fun p e => p.fire e clk) p
  ({ p with entries := p.entries.map (fun e =>
      if e.period = 0 then e
      else
        let after := if new < e.start then e.start else e.start + ((new - e.start) / e.period + 1) * e.period
        { e with next := if after < e.next then e.next else after }) }, late)

/-- A step of the counter at the boundary clock (R332, R334, R354): the counter, TIME.STEPS, TIME_STEP, the first step of the source, the
PM bins, the TEV entries. What else sees the stepped value (gate lists, the recorder) follows at the same boundary. -/
def Dev.stepTime (d : Dev) (new : Nat) : Dev :=
  let old := d.time.base
  let diff : Int := (new : Int) / 2 ^ 32 - (old : Int) / 2 ^ 32
  let first := d.time.state = .unset
  let new := new % counterSpan
  let d := { d with time := { d.time with base := new, basePeriod := 0, steps := (d.time.steps + 1) % 2 ^ 32, stepTick := some d.upNext } }
  let d := (d.countDev .timeSteps).suspectBins
  let d := d.raise 0x304 (leInt 8 diff ++ le 6 d.now)
  let d := if first then d.timeState .locked else d
  (List.range 4).foldl (fun d i =>
    let r := (lget d.time.pins i TevPin.reset).stepped (old / 2 ^ 32) (new / 2 ^ 32) (d.clk 0)
    let d := { d with time := d.time.modPin i (fun _ => r.1) }
    r.2.foldl (fun d e =>
      (d.count 19 .timeTevLate (33 + i)).raise (0x30C + i)
        (le 1 e.entry ++ le 6 (e.start / 1000000000) ++ le 4 (e.start % 1000000000))) d) d

/-- Captures of a pin that are not yet delivered: its records in staging (R347). -/
def Dev.tevPending (d : Dev) (pin : Nat) : Nat := (d.ev.staging.filter (fun e => e.src == 0x308 + pin)).length

/-- An edge on a CAPTURE pin (R347): captured if it is selected and follows the edge before by at least 10 ns; lost if the FIFO is full.
The flag says that it was captured. -/
def Dev.tevEdge (d : Dev) (pin : Nat) (rising : Bool) (now : Nat) : Dev × Bool :=
  let p := lget d.time.pins pin TevPin.reset
  let t := d.clk now
  let far := p.lastEdge.elim true (fun l => decide (l * 8 + 100 ≤ t * 8))
  let d := { d with time := d.time.modPin pin (fun p => { p with lastEdge := some t }) }
  if p.mode ≠ 2 ∨ !bitOf p.edges (if rising then 0 else 1) ∨ !far then (d, false)
  else if 64 ≤ d.tevPending pin then (d.count 19 .timeTevCaptureLost (33 + pin), false)
  else
    let v := d.time.stamp now
    (d.raise (0x308 + pin)
      (le 1 (if rising then 1 else 2) ++ le 6 (secOf v) ++ le 4 (nsOf v) ++ le 2 (fracOf v / 65536)), true)

/-- TEV_SCHEDULE MODE (R352): every entry of the pin is cancelled. EDGE, bits 1:0, is used by CAPTURE alone (R7). -/
def tevMode (r : TevModeReq) (ref : CmdRef) (d : Dev) : Dev :=
  if 3 < r.pin ∨ 2 < r.mode then d.complete ref .invalid
  else
    ({ d with time := d.time.modPin r.pin (fun p => { p with mode := r.mode, edges := r.edges % 4, entries := [] }) }).complete ref .ok
def execTevScheduleMode (ctx : Nat) (r : TevModeReq) (s : State) : Host.Outcome State Fault Refusal :=
  s.onDev (·.mailbox ctx 0x0803 (tevMode r))

/-- TEV_SCHEDULE ADD (R346, R352). T_SEC is bits 47:0 of its field (R7). -/
def tevAdd (r : TevAddReq) (now : Nat) (ref : CmdRef) (d : Dev) : Dev :=
  let p := lget d.time.pins r.pin TevPin.reset
  let t := r.sec % 2 ^ 48 * 1000000000 + r.ns
  let bad := decide (3 < r.pin) || p.mode != 1 || decide (1000000000 ≤ r.ns) ||
    decide (r.width < 10) || decide (500000000 < r.width) ||
    (r.period != 0 && (decide (r.period < 2 * r.width) || decide (1000000000 < r.period))) ||
    decide (t * 2 ^ 32 < d.time.value now + 10000 * 2 ^ 32)
  if bad then d.complete ref .invalid
  else if 16 ≤ p.entries.length then d.complete ref .noResource
  else if d.time.state = .unset then d.complete ref .denied
  else
    let n := ((List.range 16).find? (fun i => !p.entries.any (fun e => e.entry == i))).getD 0
    let e : TevEntry := { entry := n, start := t, next := t, width := r.width, period := r.period,
                          left := if r.count = 0 then none else some r.count }
    ({ d with time := d.time.modPin r.pin (fun p => { p with entries := p.entries ++ [e] }) }).complete ref .ok (le 1 n)
def execTevScheduleAdd (ctx : Nat) (r : TevAddReq) (now : Nat) (s : State) : Host.Outcome State Fault Refusal :=
  s.onDev (·.mailbox ctx 0x0803 (tevAdd r now))

/-- TEV_SCHEDULE CANCEL_ALL (R352). -/
def tevCancel (pin : Nat) (ref : CmdRef) (d : Dev) : Dev :=
  if 3 < pin then d.complete ref .invalid
  else ({ d with time := d.time.modPin pin (fun p => { p with entries := [] }) }).complete ref .ok
def execTevScheduleCancelAll (ctx pin : Nat) (s : State) : Host.Outcome State Fault Refusal :=
  s.onDev (·.mailbox ctx 0x0803 (tevCancel pin))

/-! ### TIME_CONFIG and TIME_INCREMENT_SET (R350, R351) -/

/-- A PTP port of the variant: the service port, or an uplink sub-port that its mode has (R204). -/
def Dev.netPort (d : Dev) (p : Nat) : Bool :=
  p == 0xA4 || (decide (0x40 ≤ p) && decide (p < 0x40 + 4 * d.uplinkCount) && (p % 4 == 0 || d.uplinkMode ((p - 0x40) / 4) == some 1))

def Dev.modTime (d : Dev) (f : TimeUnit → TimeUnit) : Dev := { d with time := f d.time }
def Dev.timePend (d : Dev) (c : TimeChange) : Dev := { d with time := { d.time with pend := d.time.pend ++ [c] } }

/-- TIME_CONFIG CLOCK. -/
def timeClock (r : ClockReq) (ref : CmdRef) (d : Dev) : Dev :=
  if 2 < r.source ∨ 1 < r.profile ∨ r.ppsWidth = 0 ∨ 500000 < r.ppsWidth ∨ 124999 < r.phi0 then d.complete ref .invalid
  else if d.clock.everAttached ∧ (r.aligned ≠ d.time.set.aligned ∨ r.phi0 ≠ d.time.set.phi0) then d.complete ref .denied
  else d.timePend (.clock ref
    { source := r.source, profile := r.profile, aligned := r.aligned, ppsOut := r.ppsOut, holdLimit := r.holdLimit,
      ppsWidth := r.ppsWidth, phaseAlarm := r.phaseAlarm, phi0 := r.phi0, stepThreshold := r.stepThreshold })
def execTimeConfigClock (ctx : Nat) (r : ClockReq) (s : State) : Host.Outcome State Fault Refusal :=
  s.onDev (·.mailbox ctx 0x0801 (timeClock r))

/-- TIME_CONFIG PORT. -/
def timePort (r : TimePortReq) (ref : CmdRef) (d : Dev) : Dev :=
  if !d.netPort r.port then d.complete ref .invalid
  else d.timePend (.port ref r.port { enable := r.enable, oneStep := r.oneStep, rxLat := r.rxLat, txLat := r.txLat, rxStamp := none, txStamp := none })
def execTimeConfigPort (ctx : Nat) (r : TimePortReq) (s : State) : Host.Outcome State Fault Refusal :=
  s.onDev (·.mailbox ctx 0x0801 (timePort r))

/-- TIME_CONFIG TREE (R341). -/
def timeTree (r : TimeTreeReq) (ref : CmdRef) (d : Dev) : Dev :=
  if !d.treePresent r.tree ∨ 1000000 < r.asym.natAbs ∨ 100000 < r.fixed.natAbs then d.complete ref .invalid
  else d.timePend (.tree ref r.tree r.asym r.fixed)
def execTimeConfigTree (ctx : Nat) (r : TimeTreeReq) (s : State) : Host.Outcome State Fault Refusal :=
  s.onDev (·.mailbox ctx 0x0801 (timeTree r))

/-- TIME_CONFIG STATUS. -/
def timeStatusResp (d : Dev) : Bytes :=
  let t := d.time
  let held := t.state = .holdover ∨ t.state = .freeRun
  le 1 t.state.code ++ le 1 t.set.source ++ le 2 0 ++
    le 4 (if held then (d.now - t.holdSince) / Config.ticksPerSecond else 0) ++ fromResp t.latchC ++ le 8 (secOf t.latched) ++
    le 4 (nsOf t.latched) ++ le 4 (fracOf t.latched) ++ le 4 (phaseOf t.latched / 65536) ++ le 4 t.steps
def execTimeConfigStatus (ctx : Nat) (s : State) : Host.Outcome State Fault Refusal :=
  s.onDev (·.mailbox ctx 0x0801 (fun ref d => d.complete ref .ok (timeStatusResp d)))

/-- TIME_INCREMENT_SET INCREMENT: under SOURCE HOST only, in the next reference period. -/
def setIncrement (inc now : Nat) (ref : CmdRef) (d : Dev) : Dev :=
  if d.time.set.source ≠ 2 then d.complete ref .denied
  else if !incOk inc then d.complete ref .invalid
  else ({ d with time := d.time.setInc inc now }).complete ref .ok (fromResp 0)
def execTimeIncrementSetIncrement (ctx inc now : Nat) (s : State) : Host.Outcome State Fault Refusal :=
  s.onDev (·.mailbox ctx 0x0802 (setIncrement inc now))

/-- The counter after a step to `ns` from a value: under PPS_IN the step sets TSEC alone (R335), under HOST the whole counter. -/
def steppedTo (source v ns : Nat) : Nat := ns * 2 ^ 32 + (if source = 1 then v % (1000000000 * 2 ^ 32) else 0)

/-- The counter at a boundary after the steps that wait for it (R334). -/
def TimeUnit.afterSteps (t : TimeUnit) (v : Nat) : Nat :=
  t.pend.foldl (fun v c => match c with
    | .stepAbs _ s => steppedTo t.set.source v s
    | .stepRel _ ns => (((v : Int) + ns * 2 ^ 32) % counterSpan).toNat
    | _ => v) v

/-- TIME_INCREMENT_SET STEP_ABS: under HOST, or under PPS_IN with NS 0. The seconds are bits 47:0 of VALUE (R7). -/
def stepAbs (sec ns : Nat) (ref : CmdRef) (d : Dev) : Dev :=
  if d.time.set.source = 0 ∨ (d.time.set.source = 1 ∧ ns ≠ 0) then d.complete ref .denied
  else if 1000000000 ≤ ns then d.complete ref .invalid
  else d.timePend (.stepAbs (some ref) (sec % 2 ^ 48 * 1000000000 + ns))
def execTimeIncrementSetStepAbs (ctx sec ns : Nat) (s : State) : Host.Outcome State Fault Refusal :=
  s.onDev (·.mailbox ctx 0x0802 (stepAbs sec ns))

/-- TIME_INCREMENT_SET STEP_REL: under HOST. -/
def stepRel (offset : Int) (ref : CmdRef) (d : Dev) : Dev :=
  if d.time.set.source ≠ 2 then d.complete ref .denied
  else d.timePend (.stepRel (some ref) offset)
def execTimeIncrementSetStepRel (ctx : Nat) (offset : Int) (s : State) : Host.Outcome State Fault Refusal :=
  s.onDev (·.mailbox ctx 0x0802 (stepRel offset))

/-! ### Messages to terminals (R341 to R343) -/

/-- OFFSET in units of 2^−16 ns, rounded to nearest (R341). -/
def timeOffset (range : Nat) (asym fixed : Int) : Int :=
  let num : Int := (range : Int) * 2560 * (1000000000 + asym) * 1000 + fixed * 65536 * 1000000000
  (2 * num + 1000000000000) / 2000000000000

/-- The TIME_OFFSET message of a terminal for a range and an APPLY (R342, R343). -/
def Dev.timeOffsetMsg (d : Dev) (t id serial range apply notBefore : Nat) : LockMsg :=
  let a := tgetD d.time.terms t (0, 0)
  lockMsg id 0x30 2 [] (some apply) (beInt 8 (timeOffset range a.1 a.2)) .oneTerminal .timeOffset serial notBefore

/-- TIME_INFO (R342). -/
def timeInfoMsg (i : Int × Nat × Nat) (notBefore : Nat) : LockMsg :=
  lockMsg 0xFFFF 0x32 0 (beInt 2 i.1 ++ be 1 i.2.1 ++ be 1 i.2.2) none [] .plain .other 0 notBefore

/-! ### Network triggers (R348, R349, R353) -/

/-- The payload of NET_TRIGGER (R342): a CANCEL uses TRIG_ID alone (R7). -/
def netTrigBody (r : TrigReq) (cancel : Bool) : Bytes :=
  be 1 r.trigId ++ be 1 (if cancel then 0 else r.output) ++ be 1 (b2n cancel) ++ be 1 0 ++
    (if cancel then be 16 0 else be 6 (r.sec % 2 ^ 48) ++ be 4 r.ns ++ be 4 r.period ++ be 2 r.repeats)

/-- The named terminals of a mask. -/
def maskIds (mask : Nat) : List Nat := (List.range 256).filter (bitOf mask)

/-- NET_TRIGGER (R353). T_SEC is bits 47:0 of its field, and a CANCEL uses TRIG_ID and MASK alone (R7). T is tested against the counter at the next boundary, at which the command is applied. -/
def netTrigger (r : TrigReq) (cancel : Bool) (ref : CmdRef) (d : Dev) : Dev :=
  let ids := maskIds r.mask
  let serves := ids.all (fun i => ((d.tree r.tree).byId i).elim false (fun x => x.state = .inService))
  let early := decide ((r.sec % 2 ^ 48 * 1000000000 + r.ns) * 2 ^ 32 < d.time.afterSteps (d.time.atBoundary 0) + 4000000 * 2 ^ 32)
  let range := decide (255 < r.trigId) || (!cancel && (decide (7 < r.output) || decide (1000000000 ≤ r.ns) ||
    (r.period != 0 && (decide (r.period < 1000) || decide (1000000000 < r.period)))))
  if !d.treeUp r.tree || !serves || range || (!cancel && early) then d.complete ref .invalid
  else if d.time.state = .unset ∨ d.time.state = .freeRun then d.complete ref .denied
  else if ids = [] then d.complete ref .ok (fromResp d.now)
  else
    let t : NetTrig := { ref, tree := r.tree, body := netTrigBody r cancel, left := ids.map (fun i => (i, d.now + 1, false)), queued := 0 }
    { d with time := { d.time with trigs := d.time.trigs ++ [t] } }
def execNetTriggerSet (ctx : Nat) (r : TrigReq) (s : State) : Host.Outcome State Fault Refusal :=
  s.onDev (·.mailbox ctx 0x0804 (netTrigger r false))
def execNetTriggerCancel (ctx : Nat) (r : TrigReq) (s : State) : Host.Outcome State Fault Refusal :=
  s.onDev (·.mailbox ctx 0x0804 (netTrigger r true))

/-- Queue the trigger copies of one tree that are due in the frame of this boundary, in ascending id (R349). -/
def Dev.sendTriggers (d : Dev) (t : Nat) : Dev :=
  d.time.trigs.foldl (fun (d : Dev) g =>
    let due := if g.tree = t then g.left.filter (fun e => decide (e.2.1 ≤ d.now)) else []
    let msgs := due.map (fun e =>
      let serial := ((d.tree t).byId e.1).elim 0 (fun x => x.serial)
      { lockMsg e.1 0x31 2 g.body none [] .plain (.netTrigger e.2.2) serial d.now with ref := some g.ref })
    let trigs := d.time.trigs.map (fun (h : NetTrig) =>
      if h.ref = g.ref then { h with left := h.left.filter (fun e => !due.contains e), queued := h.queued + due.length } else h)
    (msgs.foldl (fun (d : Dev) m => d.modTree t (fun x => x.queueMsg m)) d).modTime (fun u => { u with trigs })) d

/-- A copy of a trigger leaves in the frame of this boundary (R349, R353): the first one is followed by a second 8 ticks later, and the last one to leave completes
the command. -/
def Dev.triggerSent (d : Dev) (m : LockMsg) (second : Bool) : Dev :=
  match d.time.trigs.find? (fun g => m.ref == some g.ref) with
  | none => d
  | some g =>
    let g := { g with queued := g.queued - 1, left := if second then g.left else g.left ++ [(m.dest, d.now + 8, true)] }
    if g.queued = 0 ∧ g.left.isEmpty then
      (d.modTime (fun u => { u with trigs := u.trigs.filter (fun h => h.ref != g.ref) })).complete g.ref .ok (fromResp d.now)
    else d.modTime (fun u => { u with trigs := u.trigs.map (fun h => if h.ref = g.ref then g else h) })

/-! ### The boundary (R334, R336, R337, R343, R350) -/

/-- TIME_OFFSET to each admitted terminal of a tree, one whose FROM is reached at this boundary among them (R343). -/
def Dev.sendOffsets (d : Dev) (t : Nat) : Dev :=
  (d.tree t).terms.foldl (fun d x =>
    match x.id with
    | some id => if x.serving d.now ∨ x.state = .dozing ∨ x.state = .quarantined then
        d.modTree t (fun y => y.queueMsg (d.timeOffsetMsg t id x.serial (x.rangeAt (d.now + 4)) (d.now + 4) d.now)) else d
    | none => d) d

/-- Apply one waiting change at the boundary. A step of several in one tick follows the one before it. -/
def Dev.applyTime (d : Dev) (c : TimeChange) : Dev :=
  match c with
  | .clock ref s =>
    -- the mode is set while the counter is LOCKED already: R337 counts from here
    let from_ := if s.aligned ∧ !d.time.set.aligned ∧ d.time.state = .locked then d.upNext else d.time.lockedTick
    ({ d with time := { d.time with set := s, lockedTick := from_ } }).complete ref .ok
  | .port ref p s =>
    let old := tgetD d.time.ports p s
    let s := { s with rxStamp := old.rxStamp, txStamp := old.txStamp, reqStamp := old.reqStamp, state := old.state }
    (({ d with time := { d.time with ports := tset d.time.ports p s } }).ptpState p (if !s.enable then 3 else if old.state = 3 then 1 else old.state)).complete ref .ok
  | .tree ref t a f =>
    let d := { d with time := { d.time with terms := tput d.time.terms t (0, 0) (a, f) } }
    (d.sendOffsets t).complete ref .ok
  | .stepAbs ref ns => (d.stepTime (steppedTo d.time.set.source d.time.base ns)).completeOpt ref .ok (fromResp d.now)
  | .stepRel ref ns => (d.stepTime (((d.time.base : Int) + ns * 2 ^ 32) % counterSpan).toNat).completeOpt ref .ok (fromResp d.now)

/-- The counter at the boundary that begins the tick: advanced by the ended tick, changes applied, TICK_TIME latched. -/
def Dev.timeBoundary (d : Dev) (extra : Nat) : Dev :=
  let pend := d.time.pend
  let d := { d with time := { d.time with base := d.time.atBoundary extra % counterSpan, basePeriod := 0, pend := [] } }
  let d := pend.foldl Dev.applyTime d
  let d := { d with time := { d.time with latchC := d.now, latched := d.time.base } }
  let out := d.time.set.aligned && d.clock.everAttached &&
    decide (d.time.set.phaseAlarm * 2 ^ 32 < phaseDist (phaseOf d.time.base) (d.time.set.phi0 * 2 ^ 32))
  if out = d.time.phaseOut then d
  else ({ d with time := { d.time with phaseOut := out } }).raise 0x305 (le 5 (phaseOf d.time.base / 65536)) 0 out

/-- TIME_OFFSET every 8,000 ticks and TIME_INFO every 8,000 ticks and at each change (R343). -/
def Dev.timeMessages (d : Dev) (t : Nat) : Dev :=
  let c := d.now
  let d := if c % 8000 = 0 then d.sendOffsets t else d
  let d := if c % 8000 = 0 ∨ d.time.info ≠ d.time.infoSent then d.modTree t (fun y => y.queueMsg (timeInfoMsg d.time.info c)) else d
  d.sendTriggers t

end Sys2Proof.Machine
end

