-- ==== Sys2Proof/Machine/Terminals.lean ====
section
/-!
DEFINITION. The terminal life cycle (chapter 05) as shared operations: ids and holds, withdrawal of grants, discovery outcomes, admission,
quarantine, loss, doze, and what happens at named ticks.
-/
namespace Sys2Proof.Machine

/-- The first tick whose manifest build has not begun: the build at boundary B is for B + 5 (R158). -/
def Dev.nextBuild (d : Dev) : Nat := d.now + (if d.clock.inBoundary then 5 else 6)

/-- The first frame whose messages are still to be chosen. -/
def Dev.nextFrame (d : Dev) : Nat := if d.clock.inBoundary then d.now else d.now + 1

/-! ### Protection ports as the life cycle sees them (R286, R288) -/

def Dev.port (d : Dev) (t : Nat) : Option Port := tget d.prot.ports t
def Dev.modPort (d : Dev) (t : Nat) (f : Port → Port) : Dev := { d with prot := { d.prot with ports := tmod d.prot.ports t f } }

/-- The other port lies on this device. -/
def Port.isLocal (p : Port) (d : Dev) : Bool := p.peerDev == d.dev.devAddr

/-- The port does not hold the lease of its tree: INIT, STANDBY or TAKING (R294). -/
def Dev.offLease (d : Dev) (t : Nat) : Bool := (d.port t).elim false (fun p => p.state ≠ .holder)

/-- What the standby holds of its tree: the mirror received, or the other port's own state on this device (R288). -/
def Dev.mirrorOf (d : Dev) (p : Port) : Mirror :=
  if p.isLocal d then
    let x := d.tree p.peerTree
    { at_ := d.now, terms := x.terms, manifests := x.keep.manifests, sched := x.disc.settings,
      keys := x.terms.filterMap (fun y => y.id.map (fun id => (id, d.keys (globalIndex p.peerTree id)))), kp := d.kp p.peerTree }
  else p.mirror.getD { at_ := 0, terms := [], manifests := [], sched := QwSet.reset, keys := [], kp := false }

/-! ### Grants and ids -/

/-- The FEC setting of a terminal for tick `x` (R103): that of its ADMIT or FEC_SET from the named tick on, else the one in force. -/
def Term.fecAt (y : Term) (x : Nat) : Bool :=
  if y.admitFrom.elim false (fun f => decide (f ≤ x)) then y.fecAtAdmit
  else match y.fecSet with
    | some (b, f) => if f ≤ x then b else y.fec
    | none => y.fec

/-- May a place of the terminal take a codeword with parity: FEC is on, or is to be after a FEC_SET in progress or the next admission? Its standing places are kept apart
and counted at that length, so that no change of the setting makes two of them meet (R149, R150; log entry 77). -/
def Term.fecNeed (y : Term) : Bool := y.fec || y.fecAtAdmit || y.fecSet.elim false (fun v => v.1)

/-- Does the terminal doze at this boundary or clock (R135): it is DOZING, or START of its confirmed doze is reached? -/
def Term.dozes (y : Term) (now : Nat) : Bool :=
  y.state == .dozing || (y.state == .inService && y.doze.elim false (fun z => z.confirmed && decide (z.start ≤ now) && z.endAt.isNone && z.goneFrom.isNone))

/-- An offer of doze is open until START of a confirmed doze (R134). -/
def Doze.isOffer (z : Doze) (now : Nat) : Bool := !z.confirmed || decide (now < z.start)

/-- Ticks an id is held: 60 s (R131). -/
def holdTicks : Nat := 480000

/-- A terminal as TERMINAL_ADMIT lists it (R141): LISTED, with its static id if it has one. -/
def Term.listed_ (serial : Nat) (staticId : Option Nat) (fec : Bool) (lostTime : Nat) : Term :=
  { serial, staticId, id := staticId, fecAtAdmit := fec, lostTime := if lostTime = 0 then 16000 else lostTime,
    state := .listed, range := 0, offset := 0, model := 0, caps := 0, adj := none, admitFrom := none, admission := false,
    rangingPlaces := [], missed := 0, aliveAt := 0, windows := 0, fec := fec, fecSet := none,
    policy := { enable := false, period := 1, idle := 1 }, doze := none, emptySince := none, bip8 := 0, darnBytes := 0,
    corrCw := 0, uncorrCw := 0, lastRei := none, resync := true, reasm := [], part := none, set := { weir := none, cads := [] },
    tables := [], tablesSent := 0, setReturned := false, removing := none }

/-- Has the head-end a standing table for the terminal: a set that GRANT_SET gave it, or a table sent before (R151, R532; log entry 48)? -/
def Term.hasTable (x : Term) : Bool := decide (0 < x.tablesSent) || x.set.weir.isSome || !x.set.cads.isEmpty

/-- Enter a state: WINDOWS counts afresh (R142). -/
def Term.enter (x : Term) (st : TermState) : Term := { x with state := st, windows := 0 }

/-- The note of a set out of force from tick `x` on (R532): an empty table that is not sent. -/
def Term.outOfForce (y : Term) (x : Nat) : StandTable := { version := y.tablesSent % 256, from_ := x, set := { weir := none, cads := [] }, sent := false }

/-- The tables that the ticks before `from_` go by once the terminal's doze is forgotten: the doze had granted none of its standing places (R135). -/
def Term.tablesBefore (y : Term) (from_ : Nat) : List StandTable :=
  let l := y.tables.filter (fun t => decide (t.from_ < from_))
  match y.doze.filter (fun z => z.confirmed) with
  | none => l
  | some z =>
    let back := match z.endAt.filter (fun e => decide (e < from_)) with
      | none => []
      | some e => ((l.filter (fun t => decide (t.from_ ≤ e))).getLast?.map (fun (t : StandTable) => { t with from_ := e })).toList ++ l.filter (fun t => decide (e < t.from_))
    l.filter (fun t => decide (t.from_ < z.start)) ++ (if z.start < from_ then [y.outOfForce z.start] else []) ++ back

/-- Withdraw every grant of a terminal from the first manifest not yet built (R126, R132): its ranging places and its doze go, and
its standing set is out of force (R532), which the head-end notes as an empty table from that tick. -/
def Term.withdrawGrants (x : Term) (from_ : Nat) : Term :=
  { x with rangingPlaces := [], doze := none, adj := none, setReturned := false, tables := x.tablesBefore from_ ++ [x.outOfForce from_] }

/-- Withdraw every grant of a terminal at its tree: its own, and a confirm place whose manifest is not yet built. -/
def Tree.withdrawGrants (x : Tree) (y : Term) (from_ : Nat) : Tree :=
  let x := x.modTerm y.serial (fun z => z.withdrawGrants from_)
  { x with keep := { x.keep with confirms := x.keep.confirms.filter (fun c => !(some c.1 == y.id && decide (from_ ≤ c.2))) } }

/-- Clear the backlog records of a terminal's queues (R126): it reports afresh later. -/
def Dev.clearBacklog (d : Dev) (t id : Nat) : Dev :=
  d.modTree t (fun x => { x with keep := { x.keep with
    gq := tmap x.keep.gq (fun q g =>
      if (tget d.pool.flows (q / 8)).elim false (fun f => f.dir == 1 && f.tree == t && f.id == id) then
        { g with reported := 0, granted := [] } else g),
    reports := x.keep.reports.filter (fun r => r.tid != id) } })

/-- Hold an id for a serial (R131). -/
def Tree.hold (x : Tree) (serial id until_ : Nat) : Tree :=
  { x with holds := x.holds.filter (fun h => h.id != id) ++ [{ serial, id, until_ }] }

/-- Withdraw the grants of a terminal and move it to a state, its id held (R126, R131). -/
def Dev.dropTo (d : Dev) (t : Nat) (x : Term) (st : TermState) : Dev :=
  let d := d.modTree t (fun y => (y.withdrawGrants x d.nextBuild).modTerm x.serial (fun z => z.enter st))
  match x.id with
  | none => d
  | some id => (d.clearBacklog t id).modTree t (fun y => y.hold x.serial id (d.now + holdTicks))

/-- Set or clear defect bits of a terminal's line. -/
def Dev.modTermLine (d : Dev) (t id : Nat) (f : TermLine → TermLine) : Dev :=
  d.modLine t (fun l => { l with terms := tset l.terms id (f (tgetD l.terms id TermLine.reset)) })

def Dev.termLine (d : Dev) (t id : Nat) : TermLine := tgetD (d.line t).terms id TermLine.reset

/-- Change one defect bit of a terminal and raise TERMINAL_DEFECT (R330); R322 item 2 masks LOSi and LOBi while DGi is set. -/
def Dev.setTermDefect (d : Dev) (t id bit : Nat) (on : Bool) (cause : Nat := 0) : Dev :=
  let l := d.termLine t id
  if bitOf l.defects bit = on then d
  else
    let d := d.modTermLine t id (fun l => { l with defects := if on then l.defects + 2 ^ bit else l.defects - 2 ^ bit })
    if bit ≤ 1 ∧ bitOf l.defects 3 then d
    else d.raise (8 * t + 1) (le 1 cause) bit on (globalIndex t id)

/-- Clear every defect of a terminal with a cause: 1 REMOVED, 2 DETACHED, 3 ROLE (R321, R322, R330). -/
def Dev.clearTermDefects (d : Dev) (t id cause : Nat) : Dev :=
  (List.range 8).foldl (fun d b => d.setTermDefect t id b false cause) d

/-- Change one defect bit of a tree and raise TREE_DEFECT (R330). -/
def Dev.setTreeDefect (d : Dev) (t bit : Nat) (on : Bool) (cause : Nat := 0) : Dev :=
  if bitOf (d.line t).defects bit = on then d
  else
    let d := d.modLine t (fun l => { l with defects := if on then l.defects + 2 ^ bit else l.defects - 2 ^ bit })
    d.raise (8 * t) (le 1 cause) bit on

/-! ### Discovery outcomes (R120, R123, R124) -/

/-- An id is not free for a serial: static for another, in use, or held for another (R124). -/
def Tree.idTaken (x : Tree) (serial id : Nat) : Bool :=
  x.terms.any (fun y => y.serial != serial && (y.staticId == some id || y.id == some id)) ||
    x.holds.any (fun h => h.id == id && h.serial != serial)

/-- The id a hail receives (R124). -/
def Tree.chooseId (x : Tree) (y : Term) : Option Nat :=
  match y.staticId with
  | some i => some i
  | none =>
    match y.id with
    | some i => some i
    | none =>
      match x.holds.find? (fun h => h.serial == y.serial) with
      | some h => some h.id
      | none => (List.range 256).find? (fun i => !x.idTaken y.serial i)

/-- Append to the discovery log, which keeps the last 256 outcomes (R143). -/
def Tree.logHail (x : Tree) (e : HailLog) : Tree :=
  let l := x.disc.log ++ [e]
  { x with disc := { x.disc with log := l.drop (l.length - 256) } }

/-- HAIL_DEFER with 10 s for frame `f` (R123, R125). -/
def hailDefer (serial nonce f : Nat) : LockMsg :=
  lockMsg 0xFFFE 0x11 0 (be 8 serial ++ be 4 nonce ++ be 2 10) none [] .plain .other 0 f

/-- RANGE_ASSIGN for frame `f` (R125). -/
def rangeAssign (h : Hail) (id f : Nat) : LockMsg :=
  lockMsg 0xFFFE 0x10 0 (be 8 h.serial ++ be 4 h.nonce ++ be 1 id ++ be 1 0 ++ be 4 (h.d - 512)) none [] .plain .other h.serial f

/-- One accepted hail of a window that began at Q, answered in frame `f` (R123). -/
def Dev.handleHail (d : Dev) (t q f : Nat) (dup first : Bool) (h : Hail) : Dev :=
  let entry (outcome id : Nat) : HailLog := { cycle := q, serial := h.serial, range := h.d - 512, outcome, id }
  let defer (d : Dev) (outcome : Nat) : Dev :=
    d.modTree t (fun x => (x.queueMsg (hailDefer h.serial h.nonce f)).logHail (entry outcome 0xFF))
  if dup then (if first then (defer d 3).discEvent t 6 none (le 8 h.serial) else defer d 3)
  else
    match (d.tree t).bySerial h.serial with
    | none => (defer d 2).discEvent t 5 none (le 8 h.serial)
    | some y =>
      match (d.tree t).chooseId y with
      | none => (defer d 4).discEvent t 7 none
      | some id =>
        let reentry := y.state = .inService || y.state = .dozing
        let d := d.eraseSession t id
        let d := d.clearBacklog t id
        let places := [f + 5, f + 13, f + 21]
        d.modTree t (fun x =>
          let x := (x.withdrawGrants y d.nextBuild).modTerm h.serial (fun y =>
            { y.enter .ranging with
              id := some id, range := h.d - 512, offset := 0, model := h.model, caps := h.caps, admitFrom := none,
              admission := true, rangingPlaces := places, missed := 0, emptySince := none, resync := true, reasm := [], part := none })
          let x := { x with holds := x.holds.filter (fun k => !(k.serial == h.serial && k.id == id)) }
          (x.queueMsg (rangeAssign h id f)).logHail (entry (if reentry then 1 else 0) id))

/-- QUIET_WINDOW_END (R120): the outcomes of a window that has ended are decided, hails in ascending position; frame Q + W + 1 carries
them and COLL_SEEN. -/
def quietWindowEnd (t : Nat) (d : Dev) : Dev :=
  match (d.tree t).disc.windows.find? (fun w => decide (w.q + w.w ≤ d.now)) with
  | none => d
  | some w =>
    let f := w.q + w.w + 1
    let d := d.modTree t (fun x => { x with disc := { x.disc with
      windows := x.disc.windows.filter (fun v => v.q != w.q),
      collSeen := if w.collided then some f else x.disc.collSeen } })
    let hs := sortBy (fun a b => decide (a.d ≤ b.d)) w.hails
    hs.foldl (fun d h =>
      let same := hs.filter (fun k => k.serial == h.serial)
      d.handleHail t w.q f (decide (1 < same.length)) (same.head? == some h) h) d

/-! ### Ranging, admission, drift, quarantine, loss -/

/-- A ranging barge of tick X was accepted with offset `o` (R126, R128): ADMIT with R + o is queued for frame X + 2; R + o is
in force from FROM. -/
def Dev.ranged (d : Dev) (t : Nat) (x : Term) (o : Int) : Dev :=
  let r := ((x.range : Int) + o).toNat
  let from_ := d.now + 6
  let id := x.id.getD 0
  let d := d.modTree t (fun y =>
    (y.modTerm x.serial (fun z => { z with offset := o, adj := some { offset := o, range := r, apply := from_, reset := true }, admitFrom := some from_, rangingPlaces := [], missed := 0 })).queueMsg
      (lockMsg id 0x12 2 (be 4 r ++ be 1 (b2n x.fecAtAdmit) ++ be 1 0) (some from_) [] .oneTerminal .admitMsg x.serial (d.now + 2)))
  let d := d.modTree t (fun y => y.queueMsg (d.timeOffsetMsg t id x.serial r from_ (d.now + 2)))
  d.raiseAt (d.now + 1) (8 * t + 6) 1 false (globalIndex t id) []

/-- A ranging place was missed (R126, R128): the third in a row returns the terminal to LISTED. -/
def Dev.rangingMissed (d : Dev) (t : Nat) (x : Term) : Dev :=
  if x.missed + 1 < 3 then d.modTerm t x.serial (fun y => { y with missed := y.missed + 1 })
  else
    let d := d.dropTo t x .listed
    (d.countTerm t x.id .rangeFail).discEvent t 2 x.id

/-- RANGE_ADJUST for an accepted barge of tick X with 8 < |o| ≤ 32 (R129). -/
def Dev.startAdjust (d : Dev) (t : Nat) (x : Term) (o : Int) : Dev :=
  let r := ((x.range : Int) + o).toNat
  let a : RangeAdj := { offset := o, range := r, apply := d.now + 8, reset := false }
  (d.modTree t (fun y => (y.modTerm x.serial (fun z => { z with adj := some a })).queueMsg
    (lockMsg (x.id.getD 0) 0x13 2 (be 4 r) (some a.apply) [] .oneTerminal .rangeAdjust x.serial (d.now + 2)) |>.queueMsg
    (d.timeOffsetMsg t (x.id.getD 0) x.serial r a.apply (d.now + 2)))).countTerm t x.id .driftAdj

/-- Quarantine for an accepted barge of tick X with |o| > 32 (R130). -/
def Dev.quarantine (d : Dev) (t : Nat) (x : Term) (o : Int) : Dev :=
  let r := ((x.range : Int) + o).toNat
  let from_ := d.now + 8
  let id := x.id.getD 0
  let d := d.modTree t (fun y =>
    (((y.withdrawGrants x d.nextBuild).modTerm x.serial (fun z =>
      { z.enter .quarantined with
        adj := some { offset := o, range := r, apply := from_, reset := true }, rangingPlaces := [from_, from_ + 8, from_ + 16], missed := 0,
        admission := false })).withdraw
      (fun m => m.serial == x.serial && (m.kind == .rangeAdjust || (m.kind == .timeOffset && x.adj.isSome && m.tick == x.adj.map (·.apply))))).queueMsg
      (lockMsg id 0x14 2 (be 4 r) (some from_) (be 1 1) .oneTerminal .quarantine x.serial (d.now + 2)))
  let d := d.modTree t (fun y => y.queueMsg (d.timeOffsetMsg t id x.serial r from_ (d.now + 2)))
  let d := d.clearBacklog t id
  (d.countTerm t x.id .quarantine).discEvent t 3 x.id

/-- A terminal becomes LOST (R126, R131). -/
def Dev.becomeLost (d : Dev) (t : Nat) (x : Term) : Dev := (d.dropTo t x .lost).discEvent t 4 x.id

/-- The lost time in force (R141): the larger of LOST_TIME and the tree's POLL. -/
def lostTimeOf (x : Tree) (y : Term) : Nat := if y.lostTime < x.keep.poll then x.keep.poll else y.lostTime

/-- TERMINAL_LOST (R126): every place of an IN_SERVICE terminal has been a miss for the lost time in force, counted in whole ticks
after `aliveAt`. -/
def terminalLost (t serial : Nat) (d : Dev) : Dev :=
  match (d.tree t).bySerial serial with
  | none => d
  | some x =>
    if x.state = .inService ∧ x.aliveAt + lostTimeOf (d.tree t) x < d.now then d.becomeLost t x else d

/-- ID_HOLD_EXPIRY (R131, R371): the hold of an id ends; a dynamic id returns to the free pool with its keys erased. -/
def idHoldExpiry (t id : Nat) (d : Dev) : Dev :=
  match (d.tree t).holds.find? (fun h => h.id == id) with
  | none => d
  | some h =>
    if d.now < h.until_ then d
    else
      let static := (d.tree t).terms.any (fun y => y.staticId == some id)
      let d := d.modTree t (fun x => { x with
        holds := x.holds.filter (fun k => k.id != id),
        terms := if static then x.terms
                 else x.terms.map (fun y => if y.id == some id then { y with id := none } else y) })
      if static then d else d.eraseAll t id
def execIdHoldExpiry (tree id : Nat) (s : State) : Host.Outcome State Fault Refusal := s.onDev (idHoldExpiry tree id)

/-- A terminal's admission restarts every count kept since admission (R533). -/
def Dev.restartCounts (d : Dev) (t : Nat) (x : Term) : Dev :=
  let d := d.modTerm t x.serial (fun y =>
    { y with bip8 := 0, darnBytes := 0, corrCw := 0, uncorrCw := 0, lastRei := none })
  x.id.elim d (fun id => d.clearTerm t id)

/-- States in which a terminal's defects are evaluated (R321). -/
def TermState.evaluated : TermState → Bool
  | .inService => true | .dozing => true | .quarantined => true | _ => false

/-- ADMIT_FROM (R126): IN_SERVICE; DRIFTi and DGi clear at readmission by ranging (R320). -/
def Dev.admitNow (d : Dev) (t : Nat) (x : Term) : Dev :=
  let d := d.modTerm t x.serial (fun y =>
    { y.enter .inService with admitFrom := none, fec := y.fecAtAdmit, aliveAt := d.now - 1, admission := false, emptySince := none })
  let d := x.id.elim d (fun id => ((d.setTermDefect t id 2 false).setTermDefect t id 3 false).modTermLine t id (fun l =>
    if x.state.evaluated then l else { l with darkRun := 0, missRun := 0, missDelim := false, losClear := 0, lobClear := 0 }))
  if x.admission then d.restartCounts t x else d

/-- What the head-end does for one terminal at the named ticks that are reached (R125, R129, R135). -/
def Dev.namedTick (d : Dev) (t : Nat) (x : Term) : Dev :=
  let d := if x.admitFrom.elim false (fun f => decide (f ≤ d.now)) then d.admitNow t x else d
  let d := match x.adj with
    | some a => if a.apply ≤ d.now then
        d.modTerm t x.serial (fun y => { y with offset := if a.reset then 0 else y.offset - a.offset, range := a.range, adj := none }) else d
    | none => d
  let d := match x.fecSet with
    | some (b, f) => if f ≤ d.now then d.modTerm t x.serial (fun y => { y with fec := b, fecSet := none }) else d
    | none => d
  match x.doze with
  | some z =>
    -- the doze stays known through tick END, which still holds its wake place (R135)
    let ended := z.endAt.elim false (fun e => decide (e ≤ d.now))
    let d := if x.state = .inService ∧ z.confirmed ∧ z.start ≤ d.now ∧ !ended ∧ z.goneFrom.isNone then d.modTerm t x.serial (fun y => y.enter .dozing)
      else if x.state = .dozing ∧ ended then d.modTerm t x.serial (fun y => { y.enter .inService with aliveAt := d.now - 1 })
      else d
    if z.endAt.elim false (fun e => decide (e < d.now)) then d.modTerm t x.serial (fun y => { y with doze := none }) else d
  | none => d

/-- NAMED_TICK_REACHED (R125): the actions of every terminal of the tree whose named tick is reached. -/
def namedTickReached (t : Nat) (d : Dev) : Dev :=
  (d.tree t).terms.foldl (fun d x => d.namedTick t x) d

/-! ### Commands of chapter 05 (R138 to R143) -/

/-- TREE_SEAL and TREE_UNSEAL (R136, R140): applied at the next boundary. -/
def treeSeal (t : Nat) (sealIt : Bool) (ref : CmdRef) (d : Dev) : Dev :=
  if !d.treeUp t then d.complete ref .invalid
  else d.modTree t (fun x => { x with sealPend := x.sealPend ++ [(ref, sealIt)] })
def execTreeSeal (ctx tree : Nat) (s : State) : Host.Outcome State Fault Refusal :=
  s.onDev (·.mailbox ctx 0x0204 (treeSeal tree true))
def execTreeUnseal (ctx tree : Nat) (s : State) : Host.Outcome State Fault Refusal :=
  s.onDev (·.mailbox ctx 0x0204 (treeSeal tree false))

/-- QUIET_WINDOW_SET (R139): the settings govern windows whose decision falls after the next boundary. -/
def quietWindowSet (r : QwSetReq) (ref : CmdRef) (d : Dev) : Dev :=
  if !d.treeUp r.tree || decide (1 < r.reach) || decide (1 < r.mode) || decide (r.period < 16) || decide (4096 < r.period) ||
      decide (r.period ≤ r.phase) then d.complete ref .invalid
  else
    (d.modTree r.tree (fun x => { x with disc := { x.disc with
      settingsPend := x.disc.settingsPend ++ [{ reach := r.reach, mode := r.mode, period := r.period, phase := r.phase }] } })).complete ref .ok
def execQuietWindowSet (ctx : Nat) (r : QwSetReq) (s : State) : Host.Outcome State Fault Refusal :=
  s.onDev (·.mailbox ctx 0x0205 (quietWindowSet r))

/-- TERMINAL_ADMIT (R141). -/
def terminalAdmit (r : AdmitReq) (ref : CmdRef) (d : Dev) : Dev :=
  let x := d.tree r.tree
  if !d.treeUp r.tree || (x.bySerial r.serial).isSome || (!r.dynamic && (decide (255 < r.id) || x.idTaken r.serial r.id)) ||
      (r.lostTime != 0 && (decide (r.lostTime < 8) || decide (1048576 < r.lostTime))) then d.complete ref .invalid
  else if 256 ≤ x.terms.length then d.complete ref .noResource
  else
    let y := Term.listed_ r.serial (if r.dynamic then none else some r.id) r.fec r.lostTime
    (d.modTree r.tree (fun x => { x with terms := x.terms ++ [y] })).complete ref .ok
def execTerminalAdmit (ctx : Nat) (r : AdmitReq) (s : State) : Host.Outcome State Fault Refusal :=
  s.onDev (·.mailbox ctx 0x0301 (terminalAdmit r))

/-- Is tick `x` START + mP of a doze, m ≥ 1 (R135)? -/
def Doze.onGrid (z : Doze) (x : Nat) : Bool := decide (z.start < x) && (x - z.start) % z.period == 0

/-- The wake tick on or behind a tick of the grid: behind the quiet window that the tick falls in (R135). -/
def Tree.behindWindow (x : Tree) (w : Nat) : Nat :=
  match x.disc.windows.find? (fun q => decide (q.q ≤ w) && decide (w < q.q + q.w)) with
  | some q => q.q + q.w
  | none => w

/-- Is `c` a wake tick of a doze (R135): on the grid and in no window, or the first tick after a window that holds a tick of the grid? -/
def Tree.wakeTick (x : Tree) (z : Doze) (c : Nat) : Bool :=
  x.behindWindow c == c &&
    (z.onGrid c || x.disc.windows.any (fun o => o.q + o.w == c && (List.range o.w).any (fun k => z.onGrid (o.q + k))))

/-- The first wake tick after tick `now` (R135). -/
def Tree.wakeAfter (x : Tree) (z : Doze) (now : Nat) : Nat :=
  let w := z.start + ((now - z.start) / z.period + 1) * z.period
  let moved := x.disc.windows.filterMap (fun o =>
    if now < o.q + o.w ∧ x.wakeTick z (o.q + o.w) then some (o.q + o.w) else none)
  minOf (x.behindWindow w) moved

/-- The first wake tick of a doze whose frame wake − 4 is still to come; `frame` is the first frame to come (R132, R135). -/
def Tree.wakeToName (x : Tree) (z : Doze) (frame : Nat) : Nat :=
  if frame + 4 ≤ z.nextWake then z.nextWake else x.wakeAfter z (frame + 3)

/-- TERMINAL_REMOVE (R132, R142). Without an id the listing goes at the next boundary; else REMOVE is queued, the grants are
withdrawn and the id is held; a dozing terminal's REMOVE waits for frame wake − 4, so what is known of its doze stays. A second one while the first waits is
invalid (log entry 86). -/
def terminalRemove (r : RemoveReq) (ref : CmdRef) (d : Dev) : Dev :=
  let t := r.name.tree
  if !d.treeUp t then d.complete ref .invalid
  else
    match (d.tree t).named r.name with
    | none => d.complete ref .invalid
    | some x =>
      if x.removing.isSome then d.complete ref .invalid
      else
        match x.id with
        | none => d.modTerm t x.serial (fun y => { y with removing := some ref })
        | some id =>
          let doze := if x.state = .dozing then x.doze else none
          let at_ := doze.elim (d.now + 1) (fun z => (d.tree t).wakeToName z d.nextFrame - 4)
          let m := lockMsg id 0x15 2 (be 2 r.holdoff ++ be 1 1 ++ be 1 0) none [] .plain .remove x.serial at_
          let d := d.modTree t (fun y =>
            (((y.withdrawGrants x d.nextBuild).modTerm x.serial (fun z =>
              { z with removing := some ref, doze := doze.map (fun v => { v with goneFrom := some d.nextBuild }) })).hold x.serial id
              (d.now + holdTicks)).queueMsg { m with ref := some ref })
          d.clearBacklog t id
def execTerminalRemove (ctx : Nat) (r : RemoveReq) (s : State) : Host.Outcome State Fault Refusal :=
  s.onDev (·.mailbox ctx 0x0302 (terminalRemove r))

/-- The TERMINAL_STATUS response (R142). -/
def terminalStatusResp (d : Dev) (t : Nat) (x : Term) : Bytes :=
  let held := (d.tree t).holds.any (fun h => h.serial == x.serial)
  let drift := x.id.elim false (fun id => bitOf (d.termLine t id).defects 2)
  le 1 x.state.code ++
    le 1 (b2n (x.adj.elim false (fun a => !a.reset)) + 2 * b2n drift + 4 * b2n x.fec + 8 * b2n held + 16 * b2n x.id.isNone) ++
    leInt 2 x.offset ++ le 4 x.range ++ le 8 x.serial ++ le 4 x.windows ++
    le 2 (if x.state = .dozing then x.doze.elim 0 (fun z => z.period) else 0) ++ le 1 (x.id.getD 0) ++ le 1 0

def terminalStatus (n : TermName) (ref : CmdRef) (d : Dev) : Dev :=
  if !d.treeUp n.tree then d.complete ref .invalid
  else
    match (d.tree n.tree).named n with
    | none => d.complete ref .invalid
    | some x => d.complete ref .ok (terminalStatusResp d n.tree x)
def execTerminalStatus (ctx : Nat) (n : TermName) (s : State) : Host.Outcome State Fault Refusal :=
  s.onDev (·.mailbox ctx 0x0303 (terminalStatus n))

/-- The body of TERMINAL_DOZE_POLICY (R142): PERIOD 1 to 4,096, IDLE 1 to 16,384 units of 64 ticks. -/
def dozePolicy (r : DozeReq) (ref : CmdRef) (d : Dev) : Dev :=
  let t := r.name.tree
  if !d.treeUp t then d.complete ref .invalid
  else
    match (d.tree t).named r.name with
    | none => d.complete ref .invalid
    | some x =>
      if r.enable && (r.period == 0 || decide (4096 < r.period) || r.idle == 0 || decide (16384 < r.idle)) then
        d.complete ref .invalid
      else
        (d.modTerm t x.serial (fun y => { y with policy := { enable := r.enable, period := r.period, idle := r.idle } })).complete ref .ok

/-- RANGE_REPORT (R143): up to 64 entries of the discovery log from FIRST. -/
def rangeReport (t first : Nat) (ref : CmdRef) (d : Dev) : Dev :=
  if !d.treeUp t then d.complete ref .invalid
  else
    let es := (((d.tree t).disc.log).drop first).take 64
    d.complete ref .ok (le 4 es.length ++ es.flatMap (fun e =>
      fromResp e.cycle ++ le 8 e.serial ++ le 4 e.range ++ le 1 e.outcome ++ le 1 e.id ++ le 2 0))
def execRangeReport (ctx tree first : Nat) (s : State) : Host.Outcome State Fault Refusal :=
  s.onDev (·.mailbox ctx 0x0305 (rangeReport tree first))

end Sys2Proof.Machine
end

