-- ==== Sys2Proof/Machine/Towpath.lean ====
section
/-!
DEFINITION. The Towpath fabric (chapter 16): units and their header, link training, HELLOs and tick offsets, LSAs and routing, credit and
the egress slot, bulk objects, and the commands TOWPATH_CONFIG and TOWPATH_TOPOLOGY.
-/
namespace Sys2Proof.Machine

/-- Clocks of 0.8 ns in one millisecond. -/
def clocksPerMs : Nat := 1000 * Config.clocksPerMicrosecond

def Dev.link (d : Dev) (k : Nat) : TowLink := lget d.tow.links k TowLink.reset
def Dev.modLink (d : Dev) (k : Nat) (f : TowLink → TowLink) : Dev :=
  { d with tow := { d.tow with links := lmod d.tow.links k TowLink.reset f } }
def TowLink.up (l : TowLink) : Bool := l.state = .up

/-! ### Units (R394, R395) -/

/-- Link class of a unit type (R395). -/
def linkClass : Nat → Nat
  | 0 => 3 | 1 => 2 | 2 => 0 | 7 => 4 | _ => 1

/-- The header without its HCRC: bits 127 to 16 (R394). -/
def TowUnit.head (u : TowUnit) (lseq : Nat) : Bytes :=
  let c := u.cls.isSome
  let flow := u.cls.elim 0 (fun p => p.1)
  let cls := u.cls.elim 0 (fun p => p.2)
  let w := (((((((u.dst % 64) * 64 + u.src % 64) * 16 + u.typ % 16) * 16 + u.hops % 16) * 2 + b2n c) * 8 + cls % 8) * 131072 +
    flow % 131072) * 32768 + u.payload.length % 32768
  be 7 w ++ be 3 lseq ++ be 4 0

/-- The unit as it stands on the line: header with HCRC, payload, CRC-32C. -/
def TowUnit.bytes (u : TowUnit) (lseq : Nat) : Bytes :=
  let h := u.head lseq
  let b := h ++ be 2 (crc16 h) ++ u.payload
  b ++ be 4 (crc32c b)

/-- Blocks of 256 bytes that a unit takes (R397). -/
def TowUnit.blocks (u : TowUnit) : Nat := ceilDiv (u.payload.length + 20) 256

/-! ### Credit at the receiver (R184, R397) -/

/-- Blocks of the link buffer behind the limit of each class: 32 KiB for class 0 and for class 1; of the rest, which classes 2 to 4 share, each advertises a
third (log entry 94). -/
def bufferBlocks : List Nat := [128, 128, 1280, 1280, 1280]

/-- The limits advertised: what has left the link buffer and the buffer of the class; those of classes 3 and 4 stay while back-pressure is in force. -/
def TowLink.advance (l : TowLink) (withhold : Bool) : TowLink :=
  { l with advert := (List.range 5).map (fun c =>
      if withhold ∧ 3 ≤ c then lget l.advert c 0 else (lget l.freed c 0 + lget bufferBlocks c 0) % 65536) }

/-- Back-pressure is in force (R184). -/
def Dev.backPressure (d : Dev) : Bool := decide (2 ≤ d.pool.basinState.code)

/-- A unit of `n` payload bytes and a class leaves the link buffer. -/
def Dev.towFree (d : Dev) (k c n : Nat) : Dev :=
  d.modLink k (fun l => ({ l with freed := lset l.freed c ((lget l.freed c 0 + ceilDiv (n + 20) 256) % 65536) }).advance d.backPressure)

/-- At a boundary the limits follow the basin state. -/
def Dev.creditBoundary (d : Dev) : Dev :=
  (List.range 8).foldl (fun d k => if (d.link k).up then d.modLink k (fun l => l.advance d.backPressure) else d) d

/-! ### Routing a unit (R402, R403) -/

/-- The link a unit for `dst` takes: NH[FLOW mod 2] with two next hops and CLS = 1, else NH0; the other one where that link is not
up. -/
def Dev.nextHop (d : Dev) (dst : Nat) (cls : Option (Nat × Nat)) : Option Nat :=
  match tget d.tow.routes dst with
  | none => none
  | some r =>
    let odd := cls.elim false (fun p => p.1 % 2 = 1)
    let order := match r.nh1 with
      | some k => if odd then [k, r.nh0] else [r.nh0, k]
      | none => [r.nh0]
    order.find? (fun k => (d.link k).up)

/-- Put a unit on its link's queue; one without a next hop is dropped and counted. A flow that moves to another link counts in
TOW.PATH_MOVE. -/
def Dev.routeUnit (d : Dev) (u : TowUnit) : Dev :=
  match d.nextHop u.dst u.cls with
  | none => d.countDev .towNorouteDrop
  | some k =>
    let d := match u.cls with
      | none => d
      | some (f, _) =>
        let key := u.dst * 131072 + f
        let moved := (tget d.tow.nhUsed key).elim false (fun o => o != k)
        let d := if moved then d.countDev .towPathMove else d
        { d with tow := { d.tow with nhUsed := tset d.tow.nhUsed key k } }
    d.modLink k (fun l => { l with txq := l.txq ++ [u] })

/-- Send a unit of this device; an isolated device sends none (R399). -/
def Dev.sendUnit (d : Dev) (dst typ : Nat) (cls : Option (Nat × Nat)) (payload : Bytes) : Dev :=
  if d.tow.isolated then d
  else d.routeUnit { dst, src := d.dev.devAddr, typ, hops := 8, cls, payload }

/-- Put a unit that is not routed on a link's queue. -/
def Dev.putOn (d : Dev) (k : Nat) (u : TowUnit) : Dev := d.modLink k (fun l => { l with txq := l.txq ++ [u] })

/-- A HELLO or LSA of this device. -/
def Dev.sendOn (d : Dev) (k typ : Nat) (payload : Bytes) : Dev := d.putOn k { dst := 0, src := d.dev.devAddr, typ, hops := 8, cls := none, payload }

/-! ### HELLO and LSA contents (R398, R400) -/

/-- A peer is reference-common: θ moved by less than 5 ns over 1,000 consecutive HELLOs (R404). -/
def TowLink.refCommon (l : TowLink) : Bool :=
  let least := l.theta.foldl (fun a x => if x < a then x else a) l.thetaPs
  let most := l.theta.foldl (fun a x => if a < x then x else a) l.thetaPs
  decide (l.theta.length = 1000) && decide (most - least < 5000)

/-- FLAGS of a HELLO or LSA. -/
def Dev.towFlags (d : Dev) : Nat :=
  b2n d.tow.isolated + 2 * b2n d.clock.everAttached + 4 * b2n (d.tow.links.any (fun l => l.up && l.refCommon))

/-- AGE_MS: milliseconds since a link was first UP, saturating. -/
def Dev.ageMs (d : Dev) (now : Nat) : Nat :=
  let a := d.tow.firstUp.elim 0 (fun f => (d.clk now - f) / clocksPerMs)
  if a < 2 ^ 32 then a else 2 ^ 32 - 1

/-- The HELLO payload of a link, stamped as it leaves (R398). -/
def Dev.helloPayload (d : Dev) (k now : Nat) : Bytes :=
  let e := (d.link k).echo.getD (0, 0, 0, 0)
  be 1 d.dev.devAddr ++ be 1 k ++ be 1 d.towFlags ++ be 1 0 ++ be 8 d.dev.unitId ++ be 4 (d.ageMs now) ++ be 6 d.now ++ be 4 now ++
    be 6 e.1 ++ be 4 e.2.1 ++ be 6 e.2.2.1 ++ be 4 e.2.2.2 ++ be 2 0

/-- The LSA payload of this device. -/
def Dev.lsaPayload (d : Dev) (now seq : Nat) : Bytes :=
  be 1 d.dev.devAddr ++ be 1 d.towFlags ++ be 2 seq ++ be 8 d.dev.unitId ++ be 4 (d.ageMs now) ++
    d.tow.links.flatMap (fun l => match l.peerDev with
      | some p => if l.up then be 1 p ++ be 1 l.cost else be 1 0xFF ++ be 1 l.cost
      | none => be 1 0xFF ++ be 1 l.cost)

/-- Flood an LSA (R400) on every up link; SEQ skips nothing and wraps. It waits in a pause (R460) and while core 0 is halted (R502). -/
def lsaFlood (now : Nat) (d : Dev) : Dev :=
  if d.tow.isolated ∨ d.host.idle ∨ d.coreHalted 0 then d
  else
    let seq := (d.tow.ownSeq + 1) % 65536
    let d := { d with tow := { d.tow with ownSeq := seq, lsaSent := d.clk now } }
    let p := d.lsaPayload now seq
    (List.range 8).foldl (fun d k => if (d.link k).up then d.sendOn k 4 p else d) d
/-- LSA_FLOOD: 1 s after the LSA before (R400). -/
def lsaPeriodic (now : Nat) (d : Dev) : Dev := if d.tow.lsaSent + 1000 * clocksPerMs ≤ d.clk now then lsaFlood now d else d
def execLsaFlood (now : Nat) (s : State) : Host.Outcome State Fault Refusal := s.onDev (lsaPeriodic now)

/-- HELLO_SEND (R398): every up link; TX_CYCLE and TX_TS are written as the unit leaves. -/
def helloSend (d : Dev) : Dev :=
  (List.range 8).foldl (fun d k => if (d.link k).up then d.sendOn k 3 [] else d) d
def execHelloSend (s : State) : Host.Outcome State Fault Refusal := s.onDev helloSend

/-! ### Link states (R393) -/

/-- The other devices that are reference-common and reachable, with their TICK_FIXED: a neighbour by its HELLOs; a device further away by the flags of its LSA,
behind a reference-common neighbour (log entry 24). -/
def Dev.refCommonDevs (d : Dev) : List (Nat × Bool) :=
  let near := d.tow.links.filterMap (fun l => if l.up ∧ l.refCommon then l.peerDev.map (fun p => (p, l.peerFixed)) else none)
  let far := d.tow.lsas.filterMap (fun e =>
    let via := (tget d.tow.routes e.1).elim false (fun r => (d.link r.nh0).up && (d.link r.nh0).refCommon)
    if e.1 ≠ d.dev.devAddr ∧ bitOf e.2.flags 2 ∧ via ∧ !near.any (fun n => n.1 == e.1) then some (e.1, bitOf e.2.flags 1) else none)
  near ++ far

/-- θ of a reachable device in ps (R404, R405): a neighbour's own; for a device further away the sum along the path, of which this device measures the first link
only: the rest is a free value of the path, which the LSAs held do not give (log entry 24). -/
def Dev.thetaOf (d : Dev) (dev : Nat) : Option Int :=
  match d.tow.links.find? (fun l => l.up && l.peerDev == some dev) with
  | some l => some l.thetaPs
  | none =>
    match tget d.tow.routes dev, tget d.tow.lsas dev with
    | some r, some x => if (d.link r.nh0).up then some ((d.link r.nh0).thetaPs + Config.pathTheta dev x.unitId x.seq) else none
    | _, _ => none

/-- Is a device tick-locked with this one now (R404)? A neighbour by its HELLOs; a device further away where it is reference-common and |θ| ≤ 32 ns. -/
def Dev.locksWith (d : Dev) (dev : Nat) : Bool :=
  dev != d.dev.devAddr &&
    (if d.tow.links.any (fun l => l.up && l.peerDev == some dev) then d.tow.links.any (fun l => l.up && l.peerDev == some dev && l.locked)
     else d.refCommonDevs.any (fun e => e.1 == dev) && (d.thetaOf dev).elim false (fun th => decide (th.natAbs ≤ 32000)))

/-- Devices that are tick-locked with this one (R404). -/
def Dev.tickLocked (d : Dev) (dev : Nat) : Bool := dev == d.dev.devAddr || d.tow.lockedDevs.contains dev

/-- A loss or gain of tick lock with any device raises TICK_LOCK (R405). -/
def Dev.lockCheck (d : Dev) : Dev :=
  let was := d.tow.lockedDevs
  let now := (List.range 64).filter d.locksWith
  (List.range 64).foldl (fun (d : Dev) x =>
    if was.contains x = now.contains x then d else d.raise 0x263 (le 1 x) 0 (now.contains x))
    { d with tow := { d.tow with lockedDevs := now } }

/-- Training begins afresh at a clock (R393). -/
def TowLink.restart (l : TowLink) (t : Nat) : TowLink :=
  { l with state := .training, since := t, attempt := 1, seenLanes := [], ackLanes := [], ack := false }

/-- A link stops carrying units: what it had queued moves to the other next hop (R402). -/
def Dev.linkDown (d : Dev) (k now : Nat) : Dev :=
  let q := (d.link k).txq.filter (fun u => u.typ != 3 && u.typ != 4)
  let d := d.modLink k (fun l => { l with txq := [], echo := none, theta := [], locked := false, peerIso := false,
                                          seenLanes := [], ackLanes := [], ack := false })
  let d := q.foldl Dev.routeUnit d
  lsaFlood now d.lockCheck

/-- A link leaves UP for TRAINING (R393). -/
def Dev.linkLost (d : Dev) (k now : Nat) : Dev :=
  let d := d.modLink k (fun l => l.restart (d.clk now))
  (d.raise (0x240 + 4 * k) (le 1 LinkState.training.code)).linkDown k now

/-- What each lane of a link sends once every 1 µs while it trains (R392), each byte most significant bit first (R12): the TRAIN unit of
the state. -/
def Dev.trainTx (d : Dev) (k lane : Nat) : Option (List Bool) :=
  let l := d.link k
  if l.state ≠ .training then none
  else
    let b := be 1 0xA5 ++ be 1 lane ++ be 1 k ++ be 1 d.dev.devAddr ++ be 1 (b2n l.ack) ++ be 1 0 ++ be 8 d.dev.unitId
    some (bytesBits (b ++ be 2 (crc16 b)))

/-- TRAIN_UNIT_RX (R392, R393). -/
def trainUnitRx (r : TrainRx) (d : Dev) : Dev :=
  let l := d.link r.link
  let u := packBits r.bits
  if 8 ≤ r.link ∨ l.state ≠ .training ∨ r.bits.length ≠ 128 ∨ beAt u 0 1 ≠ 0xA5 ∨ beAt u 14 2 ≠ crc16 (u.take 14) then d
  else
    let seen := if l.seenLanes.contains r.lane then l.seenLanes else r.lane :: l.seenLanes
    let ack := l.ack || (r.locked && decide (r.skew ≤ 64) && seen.contains 0 && seen.contains 1)
    let acks := if ack ∧ beAt u 4 1 = 1 ∧ !l.ackLanes.contains r.lane then r.lane :: l.ackLanes else l.ackLanes
    let d := d.modLink r.link (fun l =>
      { l with seenLanes := seen, ack, ackLanes := acks, peerLink := beAt u 2 1, peerDev := some (beAt u 3 1),
               peerUnit := beAt u 6 8 })
    if acks.contains 0 ∧ acks.contains 1 then
      let d := d.modLink r.link (fun l =>
        { l with state := .up, profiled := false, lastHello := d.clk r.now, lseqRx := [none, none, none, none, none], echo := none, theta := [],
                 limits := [0, 0, 0, 0, 0], sent := [0, 0, 0, 0, 0], freed := [0, 0, 0, 0, 0], advert := bufferBlocks,
                 tx := { l.tx with odd := false, w0 := [], w1 := [] } })
      let d := { d with tow := { d.tow with firstUp := some (d.tow.firstUp.getD (d.clk r.now)) } }
      let d := d.endOp (fun o => o = .wakeTowpath r.link)
      lsaFlood r.now (d.sendOn r.link 3 [])
    else d
def execTrainUnitRx (r : TrainRx) (s : State) : Host.Outcome State Fault Refusal := s.onDev (trainUnitRx r)

/-- TRAINING_TIMEOUT (R393): 100 ms without UP. -/
def trainingTimeout (k now : Nat) (d : Dev) : Dev :=
  let l := d.link k
  if l.state ≠ .training ∨ d.clk now < l.since + 100 * clocksPerMs then d
  else
    let a := l.attempt + 1
    let st := if a = 9 then LinkState.dormant else .backoff
    let d := d.modLink k (fun l => { l with state := st, attempt := a, since := d.clk now, seenLanes := [], ackLanes := [], ack := false })
    let d := d.endOp (fun o => o = .wakeTowpath k)
    let d := d.raise (0x240 + 4 * k) (le 1 st.code)
    if a = 9 then d.raise (0x241 + 4 * k) else d
def execTrainingTimeout (link now : Nat) (s : State) : Host.Outcome State Fault Refusal := s.onDev (trainingTimeout link now)

/-- BACKOFF_EXPIRY (R393): 2^(a−2) s; the lanes are lit, so no admission is needed. -/
def backoffExpiry (k now : Nat) (d : Dev) : Dev :=
  let l := d.link k
  if l.state = .backoff ∧ l.since + 2 ^ (l.attempt - 2) * 1000 * clocksPerMs ≤ d.clk now then
    d.modLink k (fun l => { l with state := .training, since := d.clk now })
  else d
def execBackoffExpiry (link now : Nat) (s : State) : Host.Outcome State Fault Refusal := s.onDev (backoffExpiry link now)

/-- Request the wake of a link's lanes (R393); it enters TRAINING at the boundary of admission. -/
def Dev.wakeLink (d : Dev) (k index : Nat) : Dev × Bool :=
  if (d.link k).wakeReq then (d, true)
  else
    let r := d.request (.wakeTowpath k) index none
    (if r.2 then r.1.modLink k (fun l => { l with wakeReq := true }) else r.1, r.2)

/-- DORMANT_WAKE (R393). -/
def dormantWake (k : Nat) (d : Dev) : Dev := if (d.link k).state = .dormant then (d.wakeLink k 9).1 else d
def execDormantWake (link : Nat) (s : State) : Host.Outcome State Fault Refusal := s.onDev (dormantWake link)

/-- HELLO_TIMEOUT (R393): four HELLOs missed. -/
def helloTimeout (k now : Nat) (d : Dev) : Dev :=
  if (d.link k).up ∧ (d.link k).lastHello + 4 * clocksPerMs ≤ d.clk now then d.linkLost k now else d
def execHelloTimeout (link now : Nat) (s : State) : Host.Outcome State Fault Refusal := s.onDev (helloTimeout link now)

/-- BLOCK_LOCK_LOSS (R393, R402). -/
def blockLockLoss (k now : Nat) (d : Dev) : Dev := if (d.link k).up then d.linkLost k now else d
def execBlockLockLoss (link now : Nat) (s : State) : Host.Outcome State Fault Refusal := s.onDev (blockLockLoss link now)

/-! ### Reception of units (R394, R399, R403) -/

/-- What every unit does on arrival: counts, the LSEQ gap of its class, isolation, transit. The flag says that the unit is for this
device. -/
def Dev.towAccept (d : Dev) (r : TowRx) (typ : Nat) : Dev × Bool :=
  let l := d.link r.link
  if 8 ≤ r.link ∨ !l.up then (d, false)
  else
    let c := linkClass typ
    let d := (d.count 17 .towRxUnits r.link).count 17 .towRxBytes r.link (r.payload.length + 20)
    let gap := (lget l.lseqRx c none).elim 0 (fun p => (r.lseq + 2 ^ 24 - (p + 1) % 2 ^ 24) % 2 ^ 24)
    let d := if gap = 0 then d else d.count 17 .towSeqGap r.link gap
    let d := (d.modLink r.link (fun l => { l with lseqRx := lset l.lseqRx c (some r.lseq) })).towFree r.link c r.payload.length
    if typ = 3 then (d, true)
    else if l.peerIso then (d, false)
    else if typ = 4 then (d, true)
    else if d.tow.isolated then (d, false)
    else if r.dst = d.dev.devAddr then (d, true)
    else if r.hops = 0 then ((d.countDev .towHopDrop).raiseFirst 0x264, false)
    else (d.routeUnit { dst := r.dst, src := r.src, typ, hops := r.hops - 1, cls := r.cls, payload := r.payload }, false)

/-- UNIT_CRC_DROP (R394, R395, R409). -/
def unitCrcDrop (link : Nat) (d : Dev) : Dev :=
  if 8 ≤ link ∨ !(d.link link).up then d else (d.count 17 .towCrcDrop link).raiseFirst (0x242 + 4 * link)
def execUnitCrcDrop (link : Nat) (s : State) : Host.Outcome State Fault Refusal := s.onDev (unitCrcDrop link)

/-- CREDIT_ADVERTISE_RX (R397): the cumulative limit of a class. -/
def creditRx (link cls limit : Nat) (d : Dev) : Dev :=
  if (d.link link).up ∧ link < 8 then d.modLink link (fun l => { l with limits := lset l.limits cls (limit % 65536) }) else d

/-- A time of R404 in picoseconds. -/
def psOf (cycle ts : Nat) : Int := (cycle : Int) * 125000000 + (ts : Int) * 800

/-- HELLO_RX (R398, R404): peer data, link delay and tick offset, tick lock. -/
def helloRx (r : TowRx) (d : Dev) : Dev :=
  let a := d.towAccept r 3
  let d := a.1
  if !a.2 then d
  else
    let p := r.payload
    let tx := (beAt p 16 6, beAt p 22 4)
    let hasEcho := decide (beAt p 36 6 ≠ 0 ∨ beAt p 42 4 ≠ 0)
    let t1 := psOf (beAt p 26 6) (beAt p 32 4)
    let t2 := psOf (beAt p 36 6) (beAt p 42 4)
    let t3 := psOf tx.1 tx.2
    let t4 := psOf d.now r.now
    let delay := ((t4 - t1) - (t3 - t2)) / 2
    let th := ((t2 - t1) - (t4 - t3)) / 2
    let d := d.modLink r.link (fun l =>
      let theta := if hasEcho then (th :: l.theta).take 1000 else l.theta
      { l with
        lastHello := d.clk r.now, peerDev := some (beAt p 0 1), peerLink := beAt p 1 1, peerIso := bitOf (beAt p 2 1) 0,
        peerFixed := bitOf (beAt p 2 1) 1, peerUnit := beAt p 4 8, peerAge := beAt p 12 4, peerCycle := tx.1,
        echo := some (tx.1, tx.2, d.now, r.now), delay := if hasEcho then delay else l.delay,
        thetaPs := if hasEcho then th else l.thetaPs, theta })
    let l := d.link r.link
    let lock := l.refCommon && decide (l.thetaPs.natAbs ≤ 32000)
    (d.modLink r.link (fun l => { l with locked := lock })).lockCheck
def execHelloRx (r : TowRx) (s : State) : Host.Outcome State Fault Refusal := s.onDev (helloRx r)

/-- A sequence or epoch is newer (R289, R400). -/
def newer (a b : Nat) : Bool :=
  let x := (a + 65536 - b % 65536) % 65536
  decide (1 ≤ x) && decide (x ≤ 32767)

/-- Isolate this device (R399): of what its links have queued only HELLOs are sent. -/
def Dev.isolate (d : Dev) : Dev :=
  { d with tow := { d.tow with
    isolated := true, links := d.tow.links.map (fun l => { l with txq := l.txq.filter (fun u => u.typ == 3) }) } }

/-- This device and another one with its address have met (R399): the later joiner isolates itself. -/
def Dev.addrClash (d : Dev) (x : Lsa) (now : Nat) : Dev :=
  let mine := d.ageMs now
  let gap := if mine < x.ageMs then x.ageMs - mine else mine - x.ageMs
  let later := if gap < 2 then decide (x.unitId < d.dev.unitId) else decide (mine < x.ageMs)
  if later then d.isolate else d

/-- LSA_RX (R399, R400): an LSA with a newer SEQ than the one held for its device is held and re-sent, in the name of its origin; two UNIT_IDs under one
address are a conflict, whatever their SEQ. -/
def lsaRx (r : TowRx) (d : Dev) : Dev :=
  let a := d.towAccept r 4
  let d := a.1
  if !a.2 then d
  else
    let p := r.payload
    let dev := beAt p 0 1
    let x : Lsa := { flags := beAt p 1 1, seq := beAt p 2 2, unitId := beAt p 4 8, ageMs := beAt p 12 4,
                     entries := (List.range 8).map (fun i => (beAt p (16 + 2 * i) 1, beAt p (17 + 2 * i) 1)), at_ := d.clk r.now }
    let own := dev == d.dev.devAddr
    if own ∧ x.unitId = d.dev.unitId then d
    else if d.tow.isolated ∧ !own then d
    else
      let old := tget d.tow.lsas dev
      let fresh := old.elim true (fun o => newer x.seq o.seq)
      let clash := own || old.elim false (fun o => o.unitId != x.unitId)
      let d := if fresh then { d with tow := { d.tow with lsas := tset d.tow.lsas dev x } } else d
      let d := if clash then
          { d with tow := { d.tow with conflicts := if d.tow.conflicts.contains dev then d.tow.conflicts else dev :: d.tow.conflicts } }
        else d
      let d := if own then (if old.isNone then d.raise 0x260 (le 1 dev) else d).addrClash x r.now else d
      if !fresh ∨ d.tow.isolated then d
      else
        let u : TowUnit := { dst := 0, src := r.src, typ := 4, hops := r.hops - 1, cls := none, payload := p }
        (List.range 8).foldl (fun d k => if k ≠ r.link ∧ (d.link k).up then d.putOn k u else d) d
def execLsaRx (r : TowRx) (s : State) : Host.Outcome State Fault Refusal := s.onDev (lsaRx r)

/-- LSA_EXPIRY (R400): an LSA not refreshed for 3.5 s goes, and its device is unreachable; its entry of the hardware table goes too (R409). -/
def lsaExpiry (now : Nat) (d : Dev) : Dev :=
  let old := d.tow.lsas.filter (fun e => decide (e.2.at_ + 3500 * clocksPerMs ≤ d.clk now))
  Dev.lockCheck <| old.foldl (fun d e =>
    let had := (tget d.tow.routes e.1).isSome
    let d := { d with tow := { d.tow with lsas := tdel d.tow.lsas e.1, routes := tdel d.tow.routes e.1,
                                          conflicts := d.tow.conflicts.filter (· != e.1) } }
    if had then (d.raise 0x261).raise 0x262 (le 1 e.1) 0 true else d) d
def execLsaExpiry (now : Nat) (s : State) : Host.Outcome State Fault Refusal := s.onDev (lsaExpiry now)

/-! ### Routes (R401) -/

/-- Directed edges (from, to, cost) that both ends report (R400). -/
def Dev.edges (d : Dev) : List (Nat × Nat × Nat) :=
  let me := d.dev.devAddr
  let own := d.tow.links.filterMap (fun l => if l.up then l.peerDev.map (fun p => (me, p, l.cost)) else none)
  let all := own ++ d.tow.lsas.flatMap (fun e =>
    if e.1 = me then [] else (e.2.entries.filter (fun x => x.1 != 0xFF)).map (fun x => (e.1, x.1, x.2)))
  all.filter (fun e => all.any (fun f => f.1 == e.2.1 && f.2.1 == e.1))

/-- Improve distances over every edge once. -/
def relaxEdges (es : List (Nat × Nat × Nat)) (t : Tbl Nat) : Tbl Nat :=
  es.foldl (fun t e => match tget t e.1 with
    | none => t
    | some a => if (tget t e.2.1).elim true (fun b => decide (a + e.2.2 < b)) then tset t e.2.1 (a + e.2.2) else t) t

/-- Distances from a device: 64 rounds settle at most 64 devices. -/
def distances (es : List (Nat × Nat × Nat)) (s : Nat) : Tbl Nat := (List.range 64).foldl (fun t _ => relaxEdges es t) [(s, 0)]

/-- The route to a destination (R401). -/
def Dev.routeTo (d : Dev) (es : List (Nat × Nat × Nat)) (dist : Nat → Tbl Nat) (dst : Nat) : Option Route :=
  let me := d.dev.devAddr
  match tget (dist me) dst with
  | none => none
  | some total =>
    let nbrs := (List.range 8).filterMap (fun k =>
      let l := d.link k
      l.peerDev.bind (fun n => if l.up ∧ es.any (fun e => e.1 == me && e.2.1 == n) then
        (tget (dist n) dst).map (fun x => (k, n, l.cost, x)) else none))
    let eq := nbrs.filter (fun e => decide (e.2.2.1 + e.2.2.2 = total))
    match eq with
    | [] => none
    | (k, _) :: rest =>
      let nh1 := match rest with
        | (k2, _) :: _ => some k2
        | [] => (nbrs.find? (fun e => e.1 != k && (tget (dist e.2.1) me).elim false (fun b => decide (e.2.2.2 < b + total)))).map (·.1)
      some { nh0 := k, nh1, dist := total }

/-- ROUTE_RECOMPUTE (R401, R409). -/
def routeRecompute (d : Dev) : Dev :=
  let es := d.edges
  let tbl := (List.range 64).map (fun s => (s, distances es s))
  let dist (s : Nat) : Tbl Nat := tgetD tbl s []
  let me := d.dev.devAddr
  let new := (List.range 64).filterMap (fun x => if x = me then none else (d.routeTo es dist x).map (fun r => (x, r)))
  let old := d.tow.routes
  let d := { d with tow := { d.tow with routes := new } }
  let d := if new = old then d else d.raise 0x261
  Dev.lockCheck <| (List.range 64).foldl (fun d x =>
    let a := (tget old x).isSome
    let b := (tget new x).isSome
    if a = b then d else d.raise 0x262 (le 1 x) 0 (!b)) d

/-! ### The egress slot (R396, R397) -/

/-- May a unit be sent within the class's credit? -/
def TowLink.credit (l : TowLink) (u : TowUnit) : Bool :=
  let c := linkClass u.typ
  decide ((lget l.limits c 0 + 65536 - (lget l.sent c 0 + u.blocks) % 65536) % 65536 < 32768)

/-- The unit that a link sends next: the lowest link class with a sendable head; within it R9 on SRC among the oldest units of each
source. -/
def TowLink.pick (l : TowLink) (c : Nat) : Option TowUnit :=
  let heads (cl : Nat) : List TowUnit :=
    l.txq.foldl (fun acc u =>
      if linkClass u.typ = cl ∧ !acc.any (fun v => v.src == u.src) then acc ++ [u] else acc) []
  (List.range 5).findSome? (fun cl => (tieOrder c (fun u => u.src) ((heads cl).filter l.credit)).head?)

/-! The coding of the lanes (R390, R394): 66-bit blocks of a two-bit header and 8 bytes, scrambled per lane, striped over the two lanes. -/

/-- A block: header 01 before data and 10 before control, then the bytes, each most significant bit first (R12). -/
def block66 (control : Bool) (b : Bytes) : List Bool := [control, !control] ++ bytesBits (fit 8 b)

/-- The data blocks of a unit and the terminate block with what is left, by its block type of Clause 49. -/
def unitBody : (fuel : Nat) → Bytes → List (List Bool)
  | 0, _ => []
  | n + 1, l =>
    if l.length < 8 then [block66 true (be 1 (lget [0x87, 0x99, 0xAA, 0xB4, 0xCC, 0xD2, 0xE1, 0xFF] l.length 0) ++ l)]
    else block66 false (l.take 8) :: unitBody n (l.drop 8)

/-- The blocks of a unit between its start and its terminate block. What the start block carries beside its type is free (log entry 109). -/
def unitBlocks (b : Bytes) : List (List Bool) := block66 true (be 1 0x78 ++ Config.startFill) :: unitBody (b.length / 8 + 1) b

/-- The self-synchronous scrambler x^58 + x^39 + 1 of Clause 49, over a register of the last 58 bits sent. -/
def scramble58 : List Bool → Nat → List Bool × Nat
  | [], s => ([], s)
  | x :: t, s =>
    let y := (x != bitOf s 38) != bitOf s 57
    let r := scramble58 t ((s * 2 + b2n y) % 2 ^ 58)
    (y :: r.1, r.2)

/-- Send a block on the lane whose turn it is; the header is not scrambled. -/
def TxLanes.send (x : TxLanes) (b : List Bool) : TxLanes :=
  let r := scramble58 (b.drop 2) (if x.odd then x.s1 else x.s0)
  if x.odd then { x with odd := false, s1 := r.2, w1 := x.w1 ++ b.take 2 ++ r.1 }
  else { x with odd := true, s0 := r.2, w0 := x.w0 ++ b.take 2 ++ r.1 }

/-- The lanes of a slot: some idle blocks since the last unit, how many and with which advertisements is free (R397, log entry 109), then the unit. -/
def TxLanes.slot (x : TxLanes) (idle : List Bytes) (unit : Bytes) : TxLanes :=
  (idle.map (fun b => block66 true (be 1 0x1E ++ b)) ++ unitBlocks unit).foldl TxLanes.send { x with w0 := [], w1 := [] }

/-- TOWPATH_LINK_EGRESS_SLOT (R396): the bits of the unit leave with each byte most significant bit first (R12), coded on the two lanes. -/
def linkSlot (k now : Nat) (d : Dev) : Dev :=
  let l := d.link k
  if !l.up then d
  else match l.pick d.now with
    | none => d
    | some u =>
      let c := linkClass u.typ
      let lseq := lget l.lseqTx c 0
      let v := if u.typ = 3 then { u with payload := d.helloPayload k now } else u
      let d := (d.count 17 .towTxUnits k).count 17 .towTxBytes k (v.payload.length + 20)
      d.modLink k (fun l =>
        { l with txq := l.txq.erase u, lseqTx := lset l.lseqTx c ((lseq + 1) % 2 ^ 24),
                 sent := lset l.sent c ((lget l.sent c 0 + v.blocks) % 65536), wire := bytesBits (v.bytes lseq),
                 tx := l.tx.slot (Config.idleBlocks k lseq now) (v.bytes lseq) })

/-! ### Bulk objects, VOID and MGMT (R367, R406) -/

/-- The VOID marker of an object (R367). -/
def voidMarker (object segment cause : Nat) : Bytes := be 8 object ++ be 4 segment ++ be 4 cause

/-- Change the reception of an object. -/
def Dev.modBulk (d : Dev) (src object : Nat) (f : BulkRx → BulkRx) : Dev :=
  let bulk := d.tow.bulk.map (fun (x : BulkRx) => if x.src = src ∧ x.object = object then f x else x)
  { d with tow := { d.tow with bulk } }

/-- Void an object: its segments go, its consumer gets the marker, and a VOID unit returns to the sender. -/
def Dev.voidObject (d : Dev) (b : BulkRx) (cause : Nat) : Dev :=
  let d := d.modBulk b.src b.object (fun x => { x with void := true, released := [] })
  let d := { d with tow := { d.tow with markers := d.tow.markers ++ [(b.consumer, b.src, voidMarker b.object b.next cause)] } }
  (d.raise 0x2C9 (le 6 b.object) cause).sendUnit b.src 8 none (voidMarker b.object b.next cause)

/-- The segments of an object: 4 KiB each, at most 65,536 (R367). -/
def bulkSegments (l : Bytes) : List (Nat × Bytes) :=
  (List.range (Nat.min 65536 (ceilDiv l.length 4096))).map (fun i => (i, slice l (4096 * i) 4096))

/-- The IV of a segment (R367). -/
def bulkIv (salt dev object segment : Nat) : Nat := Nat.xor salt (dev % 64) * 2 ^ 64 + object * 65536 + segment

/-- The payload of a segment as it leaves (R367, R406): OBJECT, SEGMENT, CONSUMER and 7 reserved bytes, the segment encrypted, its tag. -/
def bulkPayload (key : BitVec 256) (salt dev object consumer : Nat) (s : Nat × Bytes) : Bytes :=
  let head := be 6 object ++ be 2 s.1 ++ be 1 consumer ++ zeros 7
  let c := gcmSeal key.toNat (bulkIv salt dev object s.1) head s.2
  head ++ c.1 ++ be 16 c.2.toNat

/-- Send a bulk object to a device: consumer 0 takes mirror snapshots, 1 Adesa transfers (R406). Without a fabric key none goes, and a sender stops before OBJECT
2^48 − 1 (R367, log entry 113). -/
def Dev.sendBulk (d : Dev) (dst consumer now : Nat) (data : Bytes) : Dev :=
  match d.sec.fabricKey with
  | none => d
  | some key =>
    let object := d.sec.object
    if data.isEmpty ∨ 2 ^ 48 - 1 ≤ object then d
    else
      let link := (d.nextHop dst none).getD 8
      (bulkSegments data).foldl (fun (d : Dev) s =>
        (d.cipherUse 2 link s.2.length (d.clk now) false).sendUnit dst 7 none (bulkPayload key d.sec.fabricSalt d.dev.devAddr object consumer s))
        { d with sec := { d.sec with object := object + 1 } }

/-- BULK_SEGMENT_RX (R366, R367, R406): a segment whose tag verifies is released to its consumer, in order; a later one that fails voids the
object. A short segment, or number 65,535, is the last; whether a whole one is, the unit does not say (log entry 113). The fabric key has no SA number for TAG_FAIL: a
free value (log entry 102). -/
def bulkSegmentRx (r : TowRx) (d : Dev) : Dev :=
  let a := d.towAccept r 7
  let d := a.1
  if !a.2 then d
  else match d.sec.fabricKey with
    | none => d
    | some key =>
      let p := r.payload
      let object := beAt p 0 6
      let segment := beAt p 6 2
      let body := p.drop 16
      let n := body.length - 16
      let iv := bulkIv d.sec.fabricSalt r.src object segment
      let d := d.cipherUse 2 r.link p.length (d.clk r.now) true
      let plain := gcmOpen key.toNat iv (p.take 16) (body.take n) (BitVec.ofNat 128 (ofBE (body.drop n)))
      let old := d.tow.bulk.find? (fun b => b.src == r.src && b.object == object)
      let b : BulkRx := old.getD { src := r.src, object, consumer := beAt p 8 1, next := 0, last := 0, void := false, released := [] }
      let d := { d with tow := { d.tow with bulk := if old.isNone then d.tow.bulk ++ [b] else d.tow.bulk } }
      if b.void ∨ b.complete then d
      else match plain with
        | none =>
          let (v, d) := d.draw
          let d := d.raiseFirst 0x2C4 (le 2 (v % 2 ^ 16))
          if b.released.isEmpty then d.modBulk r.src object (fun x => { x with last := d.clk r.now }) else d.voidObject b 1
        | some t =>
          let complete := t.length < 4096 ∨ segment = 65535 ∨ Config.bulkLast r.src object segment
          if segment ≠ b.next then d
          else d.modBulk r.src object (fun x => { x with next := segment + 1, last := d.clk r.now, released := x.released ++ t, complete })
def execBulkSegmentRx (r : TowRx) (s : State) : Host.Outcome State Fault Refusal := s.onDev (bulkSegmentRx r)

/-- BULK_SEGMENT_TIMEOUT (R367): 10 ms after the segment before. -/
def bulkTimeout (src object now : Nat) (d : Dev) : Dev :=
  match d.tow.bulk.find? (fun b => b.src == src && b.object == object) with
  | none => d
  | some b => if !b.void ∧ !b.complete ∧ b.last + 10 * clocksPerMs ≤ d.clk now then d.voidObject b 2 else d
def execBulkSegmentTimeout (src object now : Nat) (s : State) : Host.Outcome State Fault Refusal :=
  s.onDev (bulkTimeout src object now)

/-- Adesa's transfers to other devices begin at a boundary; none while core 0 is halted or in a pause (R460, R502). -/
def Dev.bulkBoundary (d : Dev) : Dev :=
  if d.sec.fabricKey.isNone ∨ d.host.idle ∨ d.coreHalted 0 then d
  else (Config.adesaTransfers d.dev.devAddr d.now).foldl (fun d e => d.sendBulk (e.1 % 64) 1 0 e.2) d

/-- VOID_RX (R367): an object this device sent is void at a receiver. -/
def voidRx (r : TowRx) (d : Dev) : Dev :=
  let a := d.towAccept r 8
  if a.2 then { a.1 with tow := { a.1.tow with voided := a.1.tow.voided ++ [(r.src, beAt r.payload 0 8)] } } else a.1
def execVoidRx (r : TowRx) (s : State) : Host.Outcome State Fault Refusal := s.onDev (voidRx r)

/-- MGMT_UNIT_RX (R395): the payload goes to Adesa; it waits there while core 0 is halted or in a pause. -/
def mgmtUnitRx (r : TowRx) (d : Dev) : Dev :=
  let a := d.towAccept r 9
  if a.2 then { a.1 with tow := { a.1.tow with mgmt := a.1.tow.mgmt ++ [(r.src, r.payload)] } } else a.1
def execMgmtUnitRx (r : TowRx) (s : State) : Host.Outcome State Fault Refusal := s.onDev (mgmtUnitRx r)

/-! ### Commands (R407, R408) -/

/-- MODE of a link's profile entry: enabled (R391). -/
def Dev.towEnabled (d : Dev) (k : Nat) : Bool := d.profile.towpath.elim false (fun b => leAt b (16 + 24 * k) 1 == 0)

/-- TOWPATH_CONFIG LINK. -/
def towpathLink (r : TowLinkReq) (ref : CmdRef) (d : Dev) : Dev :=
  if 7 < r.link ∨ 255 < r.cost ∨ !d.towEnabled r.link then d.complete ref .invalid
  else
    let old := d.link r.link
    let d := if r.cost = 0 ∨ r.cost = old.cost then d else d.modLink r.link (fun l => { l with cost := r.cost })
    let d := if r.enable ∧ d.tow.enabledAt.isNone then { d with tow := { d.tow with enabledAt := some d.now } } else d
    let res : Dev × Bool :=
      if !r.enable then
        let d := { d with tow := { d.tow with quieted := d.tow.quieted.filter (· != r.link) } }
        if old.state = .disabled ∧ !old.wakeReq then (d, true)
        else
          let d := (d.withdrawOp (fun o => o = .wakeTowpath r.link)).endOp (fun o => o = .wakeTowpath r.link)
          let d := d.modLink r.link (fun l => { l with state := .disabled, wakeReq := false, attempt := 1 })
          (if old.up then d.linkDown r.link 0 else d, true)
      else if old.state = .disabled then
        (d.modLink r.link (fun l => { l with attempt := 1 })).wakeLink r.link ref.ctx
      else if r.retrain then
        if old.state = .dormant then (d.modLink r.link (fun l => { l with attempt := 1 })).wakeLink r.link ref.ctx
        else if old.up then (d.linkLost r.link 0, true)
        else (d.modLink r.link (fun l => l.restart (d.clk 0)), true)
      else (d, true)
    let d := if r.cost ≠ 0 ∧ r.cost ≠ old.cost ∧ old.up then lsaFlood 0 res.1 else res.1
    d.complete ref (if res.2 then .ok else .notAdmitted)
def execTowpathConfigLink (ctx : Nat) (r : TowLinkReq) (s : State) : Host.Outcome State Fault Refusal :=
  s.onDev (·.mailbox ctx 0x0A01 (towpathLink r))

/-- TOWPATH_CONFIG FABRIC: ALIGN is fixed from the first TREE_ATTACH; REJOIN is denied while the conflict persists (R399). -/
def towpathFabric (r : TowFabricReq) (ref : CmdRef) (d : Dev) : Dev :=
  if 10000 < r.wait then d.complete ref .invalid
  else if (d.clock.everAttached ∧ r.align ≠ d.tow.align) ∨
      (r.rejoin ∧ (tget d.tow.lsas d.dev.devAddr).isSome) then d.complete ref .denied
  else
    let d := { d with tow := { d.tow with align := r.align, alignWait := r.wait } }
    let d := if r.rejoin ∧ d.tow.isolated then lsaFlood 0 { d with tow := { d.tow with isolated := false } } else d
    d.complete ref .ok
def execTowpathConfigFabric (ctx : Nat) (r : TowFabricReq) (s : State) : Host.Outcome State Fault Refusal :=
  s.onDev (·.mailbox ctx 0x0A01 (towpathFabric r))

/-- TOWPATH_TOPOLOGY LINKS. -/
def topologyLinks (d : Dev) : Bytes :=
  d.tow.links.flatMap (fun l =>
    le 1 l.state.code ++ le 1 (l.peerDev.getD 0xFF) ++ le 1 l.peerLink ++ le 1 l.attempt ++ leInt 4 l.delay ++ leInt 4 l.thetaPs ++ le 4 0)
def execTowpathTopologyLinks (ctx : Nat) (s : State) : Host.Outcome State Fault Refusal :=
  s.onDev (·.mailbox ctx 0x0A02 (fun ref d => d.complete ref .ok (topologyLinks d)))

/-- TOWPATH_TOPOLOGY ROUTES. -/
def topologyRoutes (d : Dev) : Bytes :=
  (List.range 64).flatMap (fun x => match tget d.tow.routes x with
    | some r => le 1 r.nh0 ++ le 1 (r.nh1.getD 0xFF) ++ le 1 r.dist ++ le 1 1
    | none => le 1 0xFF ++ le 1 0xFF ++ le 1 0 ++ le 1 0)
def execTowpathTopologyRoutes (ctx : Nat) (s : State) : Host.Outcome State Fault Refusal :=
  s.onDev (·.mailbox ctx 0x0A02 (fun ref d => d.complete ref .ok (topologyRoutes d)))

/-- The tick reference (R405): the lowest reference-common, reachable device with TICK_FIXED, else the lowest such device of all, this one among them. -/
def Dev.tickRef (d : Dev) : Option Nat :=
  let c := d.refCommonDevs
  let least (l : List Nat) : Option Nat := (sortBy (fun a b => decide (a ≤ b)) l).head?
  match least ((c.filter (·.2)).map (·.1)) with
  | some x => some x
  | none => if c.isEmpty then none else least (d.dev.devAddr :: c.map (·.1))

/-- A mask of device addresses. -/
def devMask (p : Nat → Bool) : Nat := sumOf ((List.range 64).map (fun x => if p x then 2 ^ x else 0))

/-- TOWPATH_TOPOLOGY DEVICES. -/
def topologyDevices (d : Dev) : Bytes :=
  le 1 d.dev.devAddr ++ le 1 (d.tickRef.getD 0xFF) ++ le 1 (b2n d.tow.isolated + 2 * b2n d.tow.aligned) ++ le 1 0 ++ le 4 0 ++
    le 8 (devMask (fun x => (tget d.tow.routes x).isSome)) ++ le 8 (devMask (fun x => x != d.dev.devAddr && d.tickLocked x)) ++
    le 8 (devMask (fun x => d.tow.conflicts.contains x))
def execTowpathTopologyDevices (ctx : Nat) (s : State) : Host.Outcome State Fault Refusal :=
  s.onDev (·.mailbox ctx 0x0A02 (fun ref d => d.complete ref .ok (topologyDevices d)))

/-- The periods that bring the tick phase to φ0 at the next boundary, to the nearest period (R337). -/
def TimeUnit.alignPeriods (t : TimeUnit) : Nat :=
  let m := 125000 * 2 ^ 32
  let need := (t.set.phi0 * 2 ^ 32 + m - phaseOf (t.afterSteps (t.atBoundary 0))) % m
  (need + t.inc / 2) / t.inc % 25000

/-- The periods of 5 ns that bring θ to a whole number of ticks (R405), to the nearest period. -/
def thetaPeriods (th : Int) : Nat := (((-th) % 125000000 + 2500) / 5000).toNat % 25000

/-- The cycle number of a device whose θ against this one is `th` ps, where this one's is `c`, to the nearest tick. -/
def cycleAt (c : Nat) (th : Int) : Nat := (((c : Int) + (th + 62500000) / 125000000) % 2 ^ 48).toNat

/-- TICK_ALIGN (R13, R20, R337, R405): before the first attach the tick in progress is lengthened once. In phase-aligned mode that is the first tick whose start
follows the one in which the counter reached LOCKED, by the periods that bring φ to φ0; with ALIGN, towards a tick reference, by the periods of its θ. The cycle number
is loaded from the tick reference, in phase-aligned mode also later than the lengthening; without a reference Adesa may load one of its own, `load`. -/
def tickAlign (load : Option Nat) (d : Dev) : Dev :=
  let ref := if d.tow.align then d.tickRef.filter (fun x => x != d.dev.devAddr) else none
  let theta := ref.bind d.thetaOf
  let phase := d.time.set.aligned && d.time.state == .locked && d.time.lockedTick + 1 == d.up
  let lengthen := !d.clock.tickLengthened && (if d.time.set.aligned then phase else theta.isSome)
  let n := if d.time.set.aligned then d.time.alignPeriods else theta.elim 0 thetaPeriods
  let number := match theta with
    | some th => some (cycleAt (d.now + 1) (th + (if lengthen then (n : Int) * 5000 else 0)))
    | none => load
  let loads := !d.clock.cycleLoaded && (lengthen || (d.time.set.aligned && theta.isSome))
  if d.clock.everAttached ∨ (!lengthen ∧ !loads) then d
  else
    { d with
      clock := { d.clock with lengthenTo := if lengthen then some n else d.clock.lengthenTo, loadCycle := if loads then number else d.clock.loadCycle,
                              tickLengthened := d.clock.tickLengthened || lengthen }
      tow := { d.tow with aligned := d.tow.aligned || theta.isSome } }
def execTickAlign (given : Bool) (cycle : Nat) (s : State) : Host.Outcome State Fault Refusal :=
  s.onDev (tickAlign (if given then some cycle else none))

end Sys2Proof.Machine
end

