-- ==== Sys2Proof/Machine/Lockkeeper.lean ====
section
/-!
DEFINITION. The Lockkeeper (chapter 06): places, standing grants, reports and credits, the build of a manifest, the check and substitution at
the deadline, and GRANT_SET.
-/
namespace Sys2Proof.Machine

/-! ### Places (R144 to R149) -/

/-- Line bits of a codeword (R48). -/
def cwBits (fec : Bool) : Nat := if fec then 1984 else 1856
/-- Most codewords of a barge (R93). -/
def cwMax (fec : Bool) : Nat := if fec then 805 else 861
/-- Cost of a place (R144). -/
def placeCost (fec : Bool) (n : Nat) : Nat := 1096 + n * cwBits fec

/-- A place of one tick: kinds 0 to 4 as in R155, 5 WEIR, 6 CADENCE, 7 wake, 8 shadow. -/
structure PlaceAt where
  tid : Nat
  start : Nat
  ncw : Nat
  fec : Bool
  kind : Nat
deriving DecidableEq, Repr

/-- First bit and length of a place's span (R144). -/
def PlaceAt.lo (p : PlaceAt) : Nat := p.start - 320
def PlaceAt.len (p : PlaceAt) : Nat := placeCost p.fec p.ncw

/-- Two spans share a bit (R146). -/
def overlaps (a la b lb : Nat) : Bool := decide (a < b + lb) && decide (b < a + la)

/-- A span lies in the tick (R145). -/
def inTick (lo len : Nat) : Bool := decide (lo + len ≤ Config.bitsPerTick)

/-- The lowest first bit at which a span of `len` bits fits beside the spans given (R149, R164). -/
def lowestFit (spans : List (Nat × Nat)) (len : Nat) : Option Nat :=
  let cands := sortBy (fun a b => decide (a ≤ b)) (0 :: spans.map (fun s => s.1 + s.2))
  cands.find? (fun c => inTick c len && spans.all (fun s => !overlaps c len s.1 s.2))

/-- The longest free gap. -/
def largestGap (spans : List (Nat × Nat)) : Nat :=
  let cands := 0 :: spans.map (fun s => s.1 + s.2)
  cands.foldl (fun m c =>
    if spans.any (fun s => decide (s.1 ≤ c) && decide (c < s.1 + s.2)) then m
    else
      let e := minOf Config.bitsPerTick ((spans.filter (fun s => decide (c ≤ s.1))).map (·.1))
      if m < e - c then e - c else m) 0

/-- Is a standing place with period `n` and phase `p` due in tick `x` (R149)? -/
def dueIn (n p x : Nat) : Bool := ((x : Int) - p) % n == 0

/-- Can two standing places be due together (R149)? -/
def dueTogether (n1 p1 n2 p2 : Nat) : Bool := p1 % Nat.gcd n1 n2 == p2 % Nat.gcd n1 n2

/-- A standing place with its period and phase; a wake place has no phase that lasts, so it can be due with any (R149). -/
structure Standing where
  tid : Nat
  start : Nat
  ncw : Nat
  fec : Bool
  n : Nat
  phase : Nat
deriving DecidableEq, Repr

def Standing.lo (s : Standing) : Nat := s.start - 320
def Standing.len (s : Standing) : Nat := placeCost s.fec s.ncw

/-- The standing places of a set. -/
def setPlaces (tid : Nat) (fec : Bool) (s : StandSet) : List Standing :=
  (s.weir.elim [] (fun w => [{ tid, start := w.start, ncw := w.ncw, fec, n := 1, phase := 0 }])) ++
    s.cads.map (fun c => { tid, start := c.2.start, ncw := c.2.ncw, fec, n := c.2.n, phase := c.2.phase })

/-- A terminal's id for its standing places; a terminal without an id keeps its set, and 256 stands for it. -/
def Term.tid (y : Term) : Nat := y.id.getD 256

/-- The standing and wake places of a terminal, in force or not. -/
def Term.standing (y : Term) : List Standing :=
  setPlaces y.tid y.fecNeed y.set ++ y.doze.elim [] (fun z => [{ tid := y.tid, start := z.wakeB, ncw := 0, fec := y.fecNeed, n := 1, phase := 0 }])

/-- Every standing, shadow and wake place of a tree, in force or not (R150). -/
def Tree.standing (x : Tree) : List Standing :=
  x.terms.flatMap Term.standing ++
    x.keep.shadows.map (fun s => { tid := s.tid, start := s.start, ncw := s.ncw, fec := s.fec, n := s.n, phase := s.phase })

/-- The conservative sum of R150. -/
def standingSum (l : List Standing) : Nat := sumOf (l.map Standing.len)

/-- The lowest start bit for a new standing place beside others (R149). -/
def chooseStart (l : List Standing) (n phase len : Nat) : Option Nat :=
  (lowestFit ((l.filter (fun s => dueTogether n phase s.n s.phase)).map (fun s => (s.lo, s.len))) len).map (· + 320)

/-- May a pinned start bit be used (R149, R174)? -/
def startOk (l : List Standing) (n phase start len : Nat) : Bool :=
  decide (320 ≤ start) && inTick (start - 320) len &&
    (l.filter (fun s => dueTogether n phase s.n s.phase)).all (fun s => !overlaps (start - 320) len s.lo s.len)

/-- The standing table in force for tick `x` (R154): the latest one whose FROM has been reached. -/
def Term.tableAt (y : Term) (x : Nat) : StandSet :=
  match (y.tables.filter (fun t => decide (t.from_ ≤ x))).getLast? with
  | some t => t.set
  | none => { weir := none, cads := [] }

/-- Is the terminal dozing in tick `x` (R135)? -/
def Term.dozesAt (y : Term) (x : Nat) : Bool :=
  match y.doze with
  | none => false
  | some z => z.confirmed && decide (z.start ≤ x) && z.endAt.elim true (fun e => decide (x < e))

/-- Does tick `x` lie in an admitted quiet window of the tree (R117)? -/
def Tree.inWindow (t : Tree) (x : Nat) : Bool :=
  t.disc.windows.any (fun w => decide (w.q ≤ x) && decide (x < w.q + w.w))

/-- Is tick `x` a wake tick of a doze, tick END among them (R135)? -/
def Tree.wakesAt (t : Tree) (z : Doze) (x : Nat) : Bool :=
  (z.nextWake == x || (decide (z.nextWake < x) && t.wakeTick z x)) && z.endAt.elim true (fun e => decide (x ≤ e)) && z.goneFrom.elim true (fun g => decide (x < g))

/-- Has a terminal a wake place in tick `x` (R135)? -/
def Tree.wakePlaceAt (t : Tree) (y : Term) (x : Nat) : Bool := y.doze.elim false (fun z => z.confirmed && t.wakesAt z x)

/-- The place of a wake tick. -/
def Term.wakePlace (y : Term) (z : Doze) (x : Nat) : PlaceAt := { tid := y.tid, start := z.wakeB, ncw := 0, fec := y.fecAt x, kind := 7 }

/-- The unlisted places of a tree due in tick `x` (R149, R135, R152): standing, wake and shadow places, none in a quiet window. -/
def Tree.unlisted (t : Tree) (x : Nat) : List PlaceAt :=
  if t.inWindow x then []
  else
    t.terms.flatMap (fun y => y.id.elim [] (fun id =>
      (if t.wakePlaceAt y x then y.doze.elim [] (fun z => [y.wakePlace z x]) else []) ++
      if y.dozesAt x then []
      else
        let s := y.tableAt x
        (s.weir.elim [] (fun w => [{ tid := id, start := w.start, ncw := w.ncw, fec := y.fecAt x, kind := 5 }])) ++
          (s.cads.filter (fun c => dueIn c.2.n c.2.phase x)).map (fun c =>
            { tid := id, start := c.2.start, ncw := c.2.ncw, fec := y.fecAt x, kind := 6 }))) ++
      (t.keep.shadows.filter (fun s => decide (s.from_ ≤ x) && dueIn s.n s.phase x)).map (fun s =>
        { tid := s.tid, start := s.start, ncw := s.ncw, fec := s.fec, kind := 8 })

/-- The unlisted places that a build and a check keep free: those due, and the wake places of an offer that may still be confirmed (R134, R146). -/
def Tree.reserved (t : Tree) (x : Nat) : List PlaceAt :=
  t.unlisted x ++ if t.inWindow x then [] else
    t.terms.flatMap (fun y => (y.doze.filter (fun z => !z.confirmed && t.wakesAt z x)).elim [] (fun z => [y.wakePlace z x]))

/-- The FEC setting of the terminal that a place of tick `x` names. -/
def Tree.fecOf (t : Tree) (x id : Nat) : Bool := (t.byId id).elim true (fun y => y.fecAt x)

/-- The terminal counts as IN_SERVICE at tick `x` (R162, R165): it is, its queued ADMIT names a tick not after `x`, or its doze is to end by then (R135). -/
def Term.serviceAt (y : Term) (x : Nat) : Bool :=
  (y.state == .inService || y.admitFrom.elim false (fun f => decide (f ≤ x)) ||
    (y.state == .dozing && (y.doze.bind (fun z => z.endAt)).elim false (fun e => decide (e ≤ x)))) && !y.dozesAt x && y.removing.isNone

/-! ### Reports and credits (R159, R160) -/

def GrantQ.dflt : GrantQ :=
  { mode := 0, weight := 1, ar := 0, pr := 0, a := 0, p := 0, reported := 0, reportTick := 0, granted := [] }

/-- Codewords needed (R159). -/
def GrantQ.need (g : GrantQ) : Nat :=
  let inflight := 232 * sumOf ((g.granted.filter (fun e => decide (g.reportTick < e.1))).map (·.2))
  ceilDiv (g.reported - inflight) 232

/-- Codewords a credit allows. -/
def creditCw (a : Int) : Nat := ceilDiv a.toNat 232

/-- Take one report (R159). -/
def Keeper.takeReport (k : Keeper) (flows : Tbl Flow) (t : Nat) (r : QReport) : Keeper :=
  match r.queue with
  | some q => { k with gq := tupd k.gq q GrantQ.dflt (fun g => { g with reported := r.bytes, reportTick := r.tick }) }
  | none =>
    { k with gq := tmap k.gq (fun q g =>
        if (tget flows (q / 8)).elim false (fun f => f.dir == 1 && f.tree == t && f.id == r.tid) then
          { g with reported := 0, reportTick := r.tick } else g) }

/-- REPORT_TAKEN (R159): the reports that arrived at least 2 µs before the boundary. -/
def Keeper.takeReports (k : Keeper) (flows : Tbl Flow) (t now : Nat) : Keeper :=
  let due := k.reports.filter (fun r => decide (r.takeAt ≤ now))
  let k := due.foldl (fun k r => k.takeReport flows t r) k
  { k with reports := k.reports.filter (fun r => !decide (r.takeAt ≤ now)) }

def minInt (a b : Int) : Int := if a < b then a else b

/-- CREDIT_ADVANCE (R160). -/
def Keeper.credits (k : Keeper) : Keeper :=
  { k with gq := tmap k.gq (fun _ g =>
      if g.mode = 2 then { g with a := minInt (g.a + g.ar) (8 * g.ar), p := minInt (g.p + g.pr) (8 * g.pr) } else g) }

/-! ### Build (R161 to R164) -/

/-- What one terminal brings into a build. -/
structure BldTerm where
  tid : Nat
  fec : Bool
  poll : Bool
  shut : Bool
  cw : Nat
deriving DecidableEq, Repr

/-- A queue in a build: flow, class, terminal, its record, codewords granted and those granted in the assured pass. -/
structure BldQ where
  queue : Nat
  tid : Nat
  g : GrantQ
  got : Nat
  assured : Nat
deriving DecidableEq, Repr

structure Bld where
  space : Nat
  terms : Tbl BldTerm
  qs : List BldQ
  lost : List Nat
deriving DecidableEq, Repr

def BldQ.need (q : BldQ) : Nat := q.g.need - q.got

/-- Codewords that fit: the largest m not above n whose cost is within the space (R162). -/
def fitCw (n bits overhead space : Nat) : Nat :=
  if space < overhead + bits then 0
  else
    let m := (space - overhead) / bits
    if n < m then n else m

/-- give(q, n) of R162. -/
def Bld.give (b : Bld) (q : BldQ) (n : Nat) (assured : Bool) : Bld :=
  match tget b.terms q.tid with
  | none => b
  | some t =>
    if t.shut then b
    else
      let want := if cwMax t.fec - t.cw < n then cwMax t.fec - t.cw else n
      let head := if t.cw = 0 ∧ !t.poll then 1096 else 0
      let m := fitCw want (cwBits t.fec) head b.space
      let b := if m < want then { b with lost := if b.lost.contains q.queue then b.lost else b.lost ++ [q.queue] } else b
      if m = 0 then b
      else
        { b with
          space := b.space - (head + m * cwBits t.fec),
          terms := tset b.terms q.tid { t with cw := t.cw + m },
          qs := b.qs.map (fun x => if x.queue = q.queue then
            { x with got := x.got + m, assured := x.assured + (if assured then m else 0),
                     g := { x.g with a := if assured then x.g.a - 232 * m else x.g.a, p := x.g.p - 232 * m } } else x) }

/-- Turn over queues in order; each turn reads the queue as it stands. -/
def Bld.turns (b : Bld) (order : List Nat) (ask : BldQ → Nat) (assured : Bool) : Bld :=
  order.foldl (fun b qn =>
    match b.qs.find? (fun x => x.queue == qn) with
    | none => b
    | some q => if ask q = 0 then b else b.give q (ask q) assured) b

/-- Queue numbers of a build in R9 order of flow ID (R163), those that a test accepts.
Two queues of one flow go by class, reversed with the flows (DESIGN CHOICE, log entry 116). -/
def Bld.order (b : Bld) (tick : Nat) (p : BldQ → Bool) : List Nat :=
  (tieOrder tick (fun q => q.queue) (b.qs.filter p)).map (·.queue)

/-- Could an eligible queue be given a codeword in the space that remains (R162)? -/
def Bld.spaceFor (b : Bld) (q : BldQ) : Bool :=
  match tget b.terms q.tid with
  | none => false
  | some t => !t.shut && decide (t.cw < cwMax t.fec) && decide ((if t.cw = 0 ∧ !t.poll then 1096 else 0) + cwBits t.fec ≤ b.space)

/-- Rounds of a pass while space remains and some queue is eligible (R162): space that holds no codeword of an eligible queue is none (R163 counts a loss in the
round that takes the last codeword only). -/
def Bld.rounds (tick : Nat) (elig : BldQ → Bool) (ask : BldQ → Nat) : (fuel : Nat) → Bld → Bld
  | 0, b => b
  | f + 1, b =>
    if !(b.qs.filter elig).any (fun q => decide (0 < ask q) && b.spaceFor q) then b
    else Bld.rounds tick elig ask f (b.turns (b.order tick elig) ask false)

def min3 (a b c : Nat) : Nat := minOf a [b, c]

/-- The three passes (R162). -/
def Bld.passes (tick : Nat) (b : Bld) : Bld :=
  let b := (rangeFrom 1 7).foldl (fun b k =>
    b.turns (b.order tick (fun q => q.g.mode == 2 && q.queue % 8 == k && decide (0 < q.need)))
      (fun q => min3 q.need (creditCw q.g.a) (creditCw q.g.p)) true) b
  let b := Bld.rounds tick (fun q => q.g.mode == 2 && decide (0 < q.need) && decide (0 < q.g.p))
    (fun q => min3 q.g.weight q.need (creditCw q.g.p)) 900 b
  Bld.rounds tick (fun q => q.g.mode != 2 && decide (0 < q.need)) (fun q => minOf q.g.weight [q.need]) 900 b

/-- The listed barge of a terminal (R164): named after its largest share, the lower queue number among equals. -/
def Bld.barge (b : Bld) (t : BldTerm) : Grant :=
  let mine := b.qs.filter (fun q => q.tid == t.tid && decide (0 < q.got))
  let top := mine.foldl (fun m q => match m with
    | none => some q
    | some (x : BldQ) => if x.got < q.got ∨ (x.got = q.got ∧ q.queue < x.queue) then some q else some x) none
  match top with
  | none => { tid := t.tid, start := 0, ncw := 0, kind := 4, flow := 0, cls := 0, shares := [] }
  | some q =>
    { tid := t.tid, start := 0, ncw := t.cw, kind := if q.g.mode = 2 then 0 else 1, flow := q.queue / 8,
      cls := q.queue % 8, shares := mine.map (fun q => (q.queue, q.got, q.assured)) }

/-- Take `k` codewords off the latest shares (R164).
The codewords removed come off the highest queue numbers first, peak ones before assured ones (DESIGN CHOICE, log entry 116). -/
def trimShares : List (Nat × Nat × Nat) → Nat → List (Nat × Nat × Nat)
  | l, k =>
    (l.reverse.foldl (fun (acc : List (Nat × Nat × Nat) × Nat) s =>
      let cut := if s.2.1 < acc.2 then s.2.1 else acc.2
      let left := s.2.1 - cut
      let ass := if left < s.2.2 then left else s.2.2
      (if left = 0 then acc.1 else (s.1, left, ass) :: acc.1, acc.2 - cut)) ([], k)).1

/-- Placement (R164): each place at the lowest B at which it fits, cut or withdrawn where none does. Answers the grants placed and the
codewords trimmed by terminal. -/
def placeAll (fecOf : Nat → Bool) : List Grant → List (Nat × Nat) → List Grant → List (Nat × Nat) → List Grant × List (Nat × Nat)
  | [], _, done, trim => (done, trim)
  | g :: rest, spans, done, trim =>
    let fec := fecOf g.tid
    match lowestFit spans (placeCost fec g.ncw) with
    | some lo =>
      placeAll fecOf rest ((lo, placeCost fec g.ncw) :: spans) (done ++ [{ g with start := lo + 320 }]) trim
    | none =>
      let gap := largestGap spans
      if gap < 1096 then placeAll fecOf rest spans done ((g.tid, g.ncw) :: trim)
      else
        let n := (gap - 1096) / cwBits fec
        let g' := { g with ncw := n, shares := trimShares g.shares (g.ncw - n) }
        match lowestFit spans (placeCost fec n) with
        | some lo =>
          placeAll fecOf rest ((lo, placeCost fec n) :: spans) (done ++ [{ g' with start := lo + 320 }]) ((g.tid, g.ncw - n) :: trim)
        | none => placeAll fecOf rest spans done ((g.tid, g.ncw) :: trim)

/-- The result of a build: the manifest, the terminals that lost a tie, and trimmed codewords by terminal. -/
structure Built where
  manifest : Manifest
  lost : List Nat
  trimmed : List (Nat × Nat)
deriving DecidableEq, Repr

/-- build(tree, x) of R162 in building tick `tick`.
Listed places of START to START + 4 built before the confirm place has come stand (DESIGN CHOICE, log entry 115). -/
def Tree.build (t : Tree) (flows : Tbl Flow) (tnum tick x : Nat) : Built :=
  if t.inWindow x then { manifest := { target := x, grants := [], missed := false }, lost := [], trimmed := [] }
  else
    let un := t.reserved x
    let ranging := (t.terms.filter (fun y =>
      (y.state == .ranging || y.state == .quarantined) && y.rangingPlaces.contains x && y.id.isSome)).map (fun y => y.tid)
    let confirm := ((t.keep.confirms.filter (fun c => c.2 == x)).map (·.1)).filter (fun i =>
      (t.byId i).elim false (fun y => y.serviceAt x && y.doze.isSome))
    let rc := ranging.map (fun i => (i, 2)) ++ confirm.map (fun i => (i, 3))
    let service := t.terms.filter (fun y => y.id.isSome && y.serviceAt x)
    let holds (id : Nat) : Bool := (t.unlisted x).any (fun p => p.tid == id && p.kind != 8) || rc.any (fun p => p.1 == id)
    let polled := (service.filter (fun y => x % t.keep.poll == y.tid % t.keep.poll && !holds y.tid)).map (·.tid)
    let space := Config.bitsPerTick - sumOf (un.map PlaceAt.len) - 1096 * rc.length - 1096 * polled.length
    let bterms := service.foldl (fun tb y => tset tb y.tid
      { tid := y.tid, fec := y.fecAt x, poll := polled.contains y.tid, shut := rc.any (fun p => p.1 == y.tid), cw := 0 }) []
    let qs := t.keep.gq.filterMap (fun e =>
      match tget flows (e.1 / 8) with
      | some f => if f.dir = 1 ∧ f.tree = tnum ∧ (tget bterms f.id).isSome then
          some { queue := e.1, tid := f.id, g := e.2, got := 0, assured := 0 } else none
      | none => none)
    let b := Bld.passes tick { space, terms := bterms, qs, lost := [] }
    let fixed := (sortBy (fun (a c : Nat × Nat) => decide (a.1 ≤ c.1)) rc).map (fun p =>
      ({ tid := p.1, start := 0, ncw := 0, kind := p.2, flow := 0, cls := 0, shares := [] } : Grant))
    let barges := (b.terms.filter (fun e => decide (0 < e.2.cw) || e.2.poll)).map (fun e => b.barge e.2)
    let sorted := sortBy (fun a c => decide (c.ncw < a.ncw) || (a.ncw == c.ncw && decide (a.tid ≤ c.tid))) barges
    let all := (fixed ++ sorted).take (512 - un.length)
    let r := placeAll (t.fecOf x) all (un.map (fun p => (p.lo, p.len))) [] []
    let grants := sortBy (fun (a c : Grant) => decide (a.start ≤ c.start)) r.1
    { manifest := { target := x, grants, missed := false },
      lost := b.lost.filterMap (fun q => (b.qs.find? (fun z => z.queue == q)).map (·.tid)), trimmed := r.2 }

/-- Charge a manifest to the backlog records and credits (R159, R160, R166). -/
def Keeper.charge (k : Keeper) (m : Manifest) : Keeper :=
  { k with gq := m.grants.foldl (fun gq g => g.shares.foldl (fun gq s =>
      tupd gq s.1 GrantQ.dflt (fun r =>
        { r with granted := (r.granted ++ [(m.target, s.2.1)]).filter (fun e => decide (r.reportTick < e.1)),
                 a := if r.mode = 2 then r.a - 232 * (s.2.2 : Int) else r.a,
                 p := if r.mode = 2 then r.p - 232 * (s.2.1 : Int) else r.p })) gq) k.gq }

/-! ### Check, deadline and substitution (R165, R166) -/

/-- Is the terminal in the state its place requires at `x` (R165)? -/
def grantStateOk (t : Tree) (x : Nat) (g : Grant) : Bool :=
  match t.byId g.tid with
  | none => false
  | some y => if g.kind = 2 then y.state == .ranging || y.state == .quarantined else y.serviceAt x

/-- COLLISION_CHECK (R165): the entries that stand, in order, and the number removed. -/
def checkGrants (fecOf : Nat → Bool) (limit : Nat) (stateOk : Grant → Bool) : List Grant → List (Nat × Nat) → List Nat → List Grant × Nat
  | [], _, _ => ([], 0)
  | g :: rest, spans, tids =>
    let fec := fecOf g.tid
    let len := placeCost fec g.ncw
    let ok := decide (320 ≤ g.start) && inTick (g.start - 320) len && spans.all (fun s => !overlaps (g.start - 320) len s.1 s.2) &&
      decide (tids.length < limit) && decide (g.ncw ≤ cwMax fec) && stateOk g && !tids.contains g.tid
    if ok then
      let r := checkGrants fecOf limit stateOk rest ((g.start - 320, len) :: spans) (g.tid :: tids)
      (g :: r.1, r.2)
    else
      let r := checkGrants fecOf limit stateOk rest spans tids
      (r.1, r.2 + 1)

/-- The grants of the manifest sent for tick `x`. -/
def Tree.grantsOf (t : Tree) (x : Nat) : List Grant := (tget t.keep.manifests x).elim [] (fun m => m.grants)

/-- The check of one manifest for tick `x` beside the unlisted places of the tree. -/
def Tree.check (t : Tree) (x : Nat) (stateOk : Grant → Bool) (gs : List Grant) : List Grant × Nat :=
  let un := t.reserved x
  checkGrants (t.fecOf x) (512 - un.length) stateOk gs (un.map (fun p => (p.lo, p.len))) []

/-- The substitute for a missed build (R166): what the check would take away is not in it. -/
def Tree.substitute (t : Tree) (x : Nat) : Manifest :=
  if t.inWindow x then { target := x, grants := [], missed := true }
  else
    { target := x, grants := (t.check x (grantStateOk t x) ((t.grantsOf (x - 1)).filter (fun g => g.kind != 2 && g.kind != 3))).1, missed := true }

/-- An open offer of doze is cancelled, once (R134): it counts, and a DOZE_OFFER that still waits is withdrawn. -/
def Dev.cancelDoze (d : Dev) (t : Nat) (x : Term) : Dev :=
  if !(((d.tree t).bySerial x.serial).bind (fun y => y.doze)).elim false (fun z => z.isOffer d.now) then d
  else
    (d.modTree t (fun y => (y.modTerm x.serial (fun z => { z with doze := none })).withdraw
      (fun m => m.kind == .dozeOffer && m.serial == x.serial))).countTerm t x.id .dozeDecline

/-- Is tick `c` the tick of the confirm place of an offer, START − 1 (R134)? -/
def Term.confirmsAt (x : Term) (c : Nat) : Bool := x.doze.elim false (fun z => z.start == c + 1)

/-- What a missed build leaves to do (R166): the ranging places planned for it, and those taken out of the manifest before it, are planned again in the first tick
whose build has not begun; a confirm place planned for it cancels its doze (log entry 79). -/
def Dev.missedPlaces (d : Dev) (t x : Nat) : Dev :=
  let again := d.now + 6
  let taken (z : Term) : Bool := (z.state == .ranging || z.state == .quarantined) && !(d.tree t).inWindow x &&
    ((d.tree t).grantsOf (x - 1)).any (fun g => g.kind == 2 && some g.tid == z.id)
  let confirms := ((d.tree t).keep.confirms.filter (fun c => c.2 == x)).map (·.1)
  let d := d.modTree t (fun y => { y with
    terms := y.terms.map (fun z =>
      if z.rangingPlaces.contains x then { z with rangingPlaces := z.rangingPlaces.map (fun p => if p = x then again else p) }
      else if taken z ∧ !z.rangingPlaces.contains again then { z with rangingPlaces := z.rangingPlaces ++ [again] }
      else z),
    keep := { y.keep with confirms := y.keep.confirms.filter (fun c => c.2 != x) } })
  confirms.foldl (fun d id =>
    match (d.tree t).byId id with
    | none => d
    | some z => if z.confirmsAt x then d.cancelDoze t z else d) d

/-- The holder of a group on two devices mirrors its tree to the standby by the end of the tick of a build (R288): the units' content is free, each within
the length of a unit (R394). -/
def Dev.sendMirror (d : Dev) (t : Nat) : Dev :=
  match d.port t with
  | none => d
  | some p =>
    if p.state ≠ .holder || p.isLocal d then d
    else
      let units := ((Config.mirrorUnits d.dev.devAddr t d.now).map (fun b => b.take 16384)).filter (fun b => !b.isEmpty)
      let d := units.foldl (fun (d : Dev) b => d.sendUnit p.peerDev 6 none b) d
      d.sendBulk p.peerDev 0 125000 (Config.mirrorSnapshot d.dev.devAddr t d.now)

/-- The manifest of one tree at 100 µs: its build, or the substitute where the build missed its deadline; checked, charged and
released (R165, R166). The state that a place of a build requires is tested as it stood at the boundary of the build, so that a change after it removes nothing
(log entry 49).
One CHECK_DROP without an index comes for a manifest, however many entries go (DESIGN CHOICE, log entry 116). -/
def Dev.manifestTree (d : Dev) (t : Nat) (missed : Bool) : Dev :=
  match (d.tree t).keep.building with
  | none => d
  | some m0 =>
    let x := m0.target
    let tr := d.tree t
    let m := if missed then tr.substitute x else m0
    let r := tr.check x (fun g => if missed then grantStateOk tr x g else tr.keep.stateOk.contains (g.tid, g.kind)) m.grants
    let m := { m with grants := r.1 }
    let run := tr.keep.missRun
    let d := d.modTree t (fun y => { y with keep := { (y.keep.charge m) with
      manifests := tset (y.keep.manifests.filter (fun e => decide (d.now ≤ e.1 + 1))) x m, building := none, missRun := if missed then run + 1 else 0 } })
    let d := if missed then (if run = 0 then d.schedEvent t 1 none else d).countTree t .lkMiss
             else if run ≠ 0 then d.schedEvent t 2 none (le 4 run) else d
    let d := if missed then d.missedPlaces t x else d
    let d := d.sendMirror t
    if r.2 = 0 then d else (d.schedEvent t 3 none).countTree t .lkCheckDrop r.2

/-- MANIFEST_DEADLINE (R166): `missed` names the trees whose build missed its deadline. -/
def manifestDeadline (missed : List Nat) (d : Dev) : Dev :=
  (tkeys d.trees).foldl (fun d t => d.manifestTree t (missed.contains t)) d
def execManifestDeadline (missed : List Nat) (s : State) : Host.Outcome State Fault Refusal := s.onDev (manifestDeadline missed)

/-- A ranging place planned for a tick of a quiet window moves to the first tick after it (R119). -/
def Tree.moveRanging (y : Tree) (x : Nat) : Tree :=
  match y.disc.windows.find? (fun w => decide (w.q ≤ x) && decide (x < w.q + w.w)) with
  | none => y
  | some w =>
    { y with
      terms := y.terms.map (fun z =>
        { z with
          rangingPlaces := z.rangingPlaces.map (fun p => if p = x then w.q + w.w else p) }) }

/-- The places of the manifest just built whose terminals are in the state required (R165), as (TID, KIND). -/
def Tree.noteStates (y : Tree) : Tree :=
  let ok := y.keep.building.elim [] (fun m => (m.grants.filter (grantStateOk y m.target)).map (fun g => (g.tid, g.kind)))
  { y with keep := { y.keep with stateOk := ok } }

/-- MANIFEST_BUILD of one tree at boundary C (R158 to R162): reports, credits, then the build for C + 5. -/
def Dev.buildTree (d : Dev) (t : Nat) : Dev :=
  if !d.treeUp t then d
  else
    let c := d.now
    let x := c + 5
    let d := d.modTree t (fun y => { y with keep := (y.keep.takeReports d.pool.flows t c).credits })
    let d := d.modTree t (fun y => y.moveRanging x)
    let b := (d.tree t).build d.pool.flows t c x
    let d := d.modTree t (fun y => { y with keep := { y.keep with building := some b.manifest } })
    let d := b.lost.foldl (fun d id => d.countTerm t (some id) .lkTieLoss) d
    b.trimmed.foldl (fun d e => if e.2 = 0 then d else d.countTerm t (some e.1) .lkTrim e.2) d

/-! ### Standing changes and GRANT_SET (R151, R173, R174) -/

/-- The STANDING_TABLE message of a terminal (R154). -/
def standingMsg (y : Term) (version from_ notBefore rank : Nat) (set : StandSet) : LockMsg :=
  let entry (kind slot n phase ncw start flow : Nat) : Bytes :=
    be 1 kind ++ be 1 slot ++ be 2 n ++ be 2 phase ++ be 2 ncw ++ be 4 start ++ be 4 flow
  let es := set.weir.elim [] (fun w => [entry 0 0 1 0 w.ncw w.start 0xFFFFFFFF]) ++
    set.cads.map (fun c => entry 1 c.1 c.2.n c.2.phase c.2.ncw c.2.start (c.2.hint.getD 0xFFFFFFFF))
  let m := lockMsg y.tid 0x20 2 (be 1 version ++ be 1 es.length) (some from_) es.flatten .shared .standing y.serial notBefore
  { m with rank }

/-- The tables that the tick before this one or a later one may still use: the one then in force and those after it. -/
def keepTables (c : Nat) (l : List StandTable) : List StandTable :=
  (l.filter (fun t => decide (t.from_ + 2 ≤ c))).getLast?.toList ++ l.filter (fun t => !decide (t.from_ + 2 ≤ c))

/-- Put a terminal's set in force from C + 5 (R151): the new table, its message for frame C + 1, and shadow places for the old places
that the new set no longer has. -/
def Dev.putInForce (d : Dev) (t : Nat) (serial : Nat) (old new : StandSet) (ref : Option CmdRef) (resp : Bytes) : Dev :=
  let c := d.now
  match (d.tree t).bySerial serial with
  | none => d
  | some y =>
    let v := y.tablesSent % 256
    let places := setPlaces y.tid (y.fecAt (c + 5))
    let gone := (places old).filter (fun p => !(places new).contains p)
    let sh := gone.map (fun p => ({ tid := p.tid, start := p.start, ncw := p.ncw, fec := p.fec, n := p.n, phase := p.phase, from_ := c + 5, dark := 0 } : Shadow))
    let m := { standingMsg y v (c + 5) (c + 1) 2 new with ref, resp }
    d.modTree t (fun x =>
      let x := x.modTerm serial (fun y =>
        { y with set := new, tablesSent := y.tablesSent + 1, setReturned := true,
                 tables := keepTables c y.tables ++ [{ version := v, from_ := c + 5, set := new, sent := true }] })
      ({ x with keep := { x.keep with shadows := x.keep.shadows ++ sh } }).queueMsg m)

/-- Bits that the assured test of R174 adds for REPORTED queues. -/
def Dev.assuredBits (d : Dev) (t : Nat) (gq : Tbl GrantQ) (poll : Nat) : Nat :=
  let tr := d.tree t
  let rs := gq.filter (fun e => e.2.mode == 2 && decide (0 < e.2.ar))
  let idOf (q : Nat) : Nat := (tget d.pool.flows (q / 8)).elim 0 (fun f => f.id)
  let fecOf (q : Nat) : Bool := (tr.byId (idOf q)).elim true Term.fecNeed
  (ceilDiv 256 poll + 8) * 1096 + 1096 * (rs.map (fun e => idOf e.1)).eraseDups.length +
    sumOf (rs.map (fun e => ceilDiv e.2.ar 232 * cwBits (fecOf e.1)))

/-- R150 and the assured test over a set of standing places. -/
def Dev.loadOk (d : Dev) (t : Nat) (l : List Standing) (gq : Tbl GrantQ) (poll : Nat) : Bool :=
  decide (standingSum l ≤ 1200000) && decide (l.length ≤ 384) &&
    decide (standingSum l + d.assuredBits t gq poll ≤ Config.bitsPerTick)

/-- Do the standing and wake places of a terminal keep apart from all others and within the limits (R149, R150)? -/
def Dev.standingFits (d : Dev) (t : Nat) (y : Term) : Bool :=
  let tr := d.tree t
  let others := { tr with terms := tr.terms.filter (fun z => z.serial != y.serial) }.standing
  y.standing.all (fun s => startOk (y.standing.filter (fun p => p != s) ++ others) s.n s.phase s.start s.len) && d.loadOk t tr.standing tr.keep.gq tr.keep.poll

/-- The response of GRANT_SET (R174). -/
def grantResp (from_ start : Nat) : Bytes := fromResp from_ ++ le 4 start ++ le 4 0

/-- Apply a standing change to a terminal (R149 to R151, R173, R174): `place` gives the wanted place, none to remove; `update` puts a place
with its start bit into the set, or takes it out.
The own old place of a set in force counts as a place that a pinned START may not overlap (DESIGN CHOICE, log entry 116). -/
def Dev.standingChange (d : Dev) (ref : CmdRef) (t id : Nat) (old : StandSet → Option (Nat × Nat × Nat × Nat))
    (want : Option (Nat × Nat × Nat × Option Nat)) (update : StandSet → Option Nat → StandSet) : Dev :=
  match (d.tree t).byId id with
  | none => d.complete ref .invalid
  | some y =>
    let tr := d.tree t
    let force := y.serving d.now || y.state == .dozing
    let own : List Standing := (old y.set).elim [] (fun p => [{ tid := id, start := p.1, ncw := p.2.1, fec := y.fecNeed, n := p.2.2.1, phase := p.2.2.2 }])
    let others := if y.setReturned then tr.standing else tr.standing.filter (fun s => !own.contains s)
    let finish (start : Nat) (set : StandSet) : Dev :=
      if force then d.putInForce t y.serial y.set set (some ref) (grantResp (d.now + 5) start)
      -- out of force, but its table is sent already for the entry to come: a new one follows it
      else if y.setReturned then (d.putInForce t y.serial y.set set none []).complete ref .ok (grantResp d.now start)
      else (d.modTerm t y.serial (fun z => { z with set })).complete ref .ok (grantResp d.now start)
    match want with
    | none => finish 0 (update y.set none)
    | some (ncw, n, phase, pin) =>
      let len := placeCost y.fecNeed ncw
      let new (b : Nat) : Standing := { tid := id, start := b, ncw, fec := y.fecNeed, n, phase }
      match pin with
      | some b =>
        if !startOk others n phase b len then d.complete ref .invalid
        else if !d.loadOk t (new b :: others) tr.keep.gq tr.keep.poll then d.complete ref .noResource
        else finish b (update y.set (some b))
      | none =>
        if !d.loadOk t (new 320 :: others) tr.keep.gq tr.keep.poll then d.complete ref .noResource
        else
          match chooseStart others n phase len with
          | none => d.complete ref .noResource
          | some b => finish b (update y.set (some b))

/-- GRANT_SET WEIR at its boundary: NCW 1 to 8, or 0 to remove (R173). -/
def Dev.applyWeir (d : Dev) (ref : CmdRef) (r : WeirReq) : Dev :=
  if !d.treeUp r.tree || decide (8 < r.ncw) then d.complete ref .invalid
  else
    d.standingChange ref r.tree r.id (fun s => s.weir.map (fun w => (w.start, w.ncw, 1, 0)))
      (if r.ncw = 0 then none else some (r.ncw, 1, 0, r.start))
      (fun s b => { s with weir := b.map (fun b => { ncw := r.ncw, start := b }) })

/-- GRANT_SET CADENCE at its boundary (R173). -/
def Dev.applyCadence (d : Dev) (ref : CmdRef) (r : CadenceReq) : Dev :=
  if !d.treeUp r.tree || decide (3 < r.slot) || decide (805 < r.ncw) ||
      (r.ncw != 0 && (decide (r.n < 2) || decide (256 < r.n) || decide (r.n ≤ r.phase) ||
        r.hint.elim false (fun f => decide (131071 < f)))) then d.complete ref .invalid
  else
    d.standingChange ref r.tree r.id (fun s => (tget s.cads r.slot).map (fun c => (c.start, c.ncw, c.n, c.phase)))
      (if r.ncw = 0 then none else some (r.ncw, r.n, r.phase, r.start))
      (fun s b => { s with cads := match b with
        | some b => tset s.cads r.slot { n := r.n, phase := r.phase, ncw := r.ncw, start := b, hint := r.hint }
        | none => tdel s.cads r.slot })

/-- A flow that GRANT_SET may name: DIR 1, for a terminal of the tree (R174). -/
def Dev.grantFlowOk (d : Dev) (t f : Nat) : Bool :=
  (tget d.pool.flows f).elim false (fun x => x.dir == 1 && x.tree == t)

/-- GRANT_SET REPORTED, BEST and DEFAULT at their boundary (R160, R173, R174): mode 2, 1 or 0. -/
def Dev.applyQueueGrant (d : Dev) (ref : CmdRef) (mode : Nat) (r : QueueGrantReq) : Dev :=
  let bad := !d.treeUp r.tree || !d.grantFlowOk r.tree r.flow || r.cls == 0 || decide (7 < r.cls) ||
    (mode != 0 && (r.weight == 0 || decide (255 < r.weight))) ||
    (mode == 2 && (decide (186992 < r.ar) || decide (186992 < r.pr) || decide (r.pr < r.ar) || r.pr == 0))
  if bad then d.complete ref .invalid
  else
    let q := r.flow * 8 + r.cls
    let tr := d.tree r.tree
    let old := tgetD tr.keep.gq q GrantQ.dflt
    let new : GrantQ := match mode with
      | 2 =>
        if old.mode = 2 then
          { old with weight := r.weight, ar := r.ar, pr := r.pr, a := minInt old.a (8 * r.ar), p := minInt old.p (8 * r.pr) }
        else { old with mode := 2, weight := r.weight, ar := r.ar, pr := r.pr, a := 0, p := 0 }
      | 1 => { old with mode := 1, weight := r.weight, ar := 0, pr := 0, a := 0, p := 0 }
      | _ => { old with mode := 0, weight := 1, ar := 0, pr := 0, a := 0, p := 0 }
    let gq := tset tr.keep.gq q new
    if mode = 2 ∧ !d.loadOk r.tree tr.standing gq tr.keep.poll then d.complete ref .noResource
    else
      (d.modTree r.tree (fun x => { x with keep := { x.keep with gq } })).complete ref .ok (grantResp d.now 0)

/-- GRANT_SET TREE_PARAMS at its boundary: POLL 1 to 64, 0 selects 8 (R173). -/
def Dev.applyTreeParams (d : Dev) (ref : CmdRef) (t poll : Nat) : Dev :=
  if !d.treeUp t || decide (64 < poll) then d.complete ref .invalid
  else
    let p := if poll = 0 then 8 else poll
    let tr := d.tree t
    if !d.loadOk t tr.standing tr.keep.gq p then d.complete ref .noResource
    else (d.modTree t (fun x => { x with keep := { x.keep with poll := p } })).complete ref .ok (grantResp d.now 0)

/-- A configuration change waits for its boundary (R21). -/
def Dev.later (d : Dev) (c : CfgChange) : Dev := { d with cfg := d.cfg ++ [c] }

def execGrantSetWeir (ctx : Nat) (r : WeirReq) (s : State) : Host.Outcome State Fault Refusal :=
  s.onDev (·.mailbox ctx 0x0403 (fun ref d => d.later (.weir ref r)))
def execGrantSetCadence (ctx : Nat) (r : CadenceReq) (s : State) : Host.Outcome State Fault Refusal :=
  s.onDev (·.mailbox ctx 0x0403 (fun ref d => d.later (.cadence ref r)))
def execGrantSetReported (ctx : Nat) (r : QueueGrantReq) (s : State) : Host.Outcome State Fault Refusal :=
  s.onDev (·.mailbox ctx 0x0403 (fun ref d => d.later (.reported ref r)))
def execGrantSetBest (ctx : Nat) (r : QueueGrantReq) (s : State) : Host.Outcome State Fault Refusal :=
  s.onDev (·.mailbox ctx 0x0403 (fun ref d => d.later (.best ref r)))
def execGrantSetDefault (ctx : Nat) (r : QueueGrantReq) (s : State) : Host.Outcome State Fault Refusal :=
  s.onDev (·.mailbox ctx 0x0403 (fun ref d => d.later (.dfltGrant ref r)))
def execGrantSetTreeParams (ctx tree poll : Nat) (s : State) : Host.Outcome State Fault Refusal :=
  s.onDev (·.mailbox ctx 0x0403 (fun ref d => d.later (.treeParams ref tree poll)))

end Sys2Proof.Machine
end

