-- ==== Sys2Proof/Machine/Barges.lean ====
section
/-!
DEFINITION. Burst reception (chapters 04 and 05): the hunt at a granted place, the barge span, the queue report, the upstream stream and
its reassembly, what an accepted or missed barge does to its terminal, hails, and the standby's hunt (R302).
-/
namespace Sys2Proof.Machine

/-! ### Candidates and headers (R94, R96, R107) -/

/-- The delimiter (R94). -/
def delimiter : Nat := 0x7E3B9C15A4D862F0

/-- Bits in which 64 line bits differ from the delimiter; none where the line ends before. -/
def delimErrors (l : List Bool) : Option Nat :=
  let w := l.take 64
  if w.length < 64 then none else some (List.zipWith (fun a b => b2n (a != b)) w (natBits 64 delimiter)).sum

/-- The line from a position on; the first bit of `bits` stands at `first`. Positions before it are not on the line read. -/
def lineAt (first : Nat) (bits : List Bool) (p : Nat) : List Bool := if p < first then [] else bits.drop (p - first)

/-- Energy at one of some positions: in the 64 bits from it on (R106, R108; log entry 78). -/
def energyIn (first : Nat) (bits : List Bool) (ps : List Nat) : Bool := ps.any (fun p => energyHere (lineAt first bits p))

/-- What a receiver holds after the 16 header bytes: the bytes, the run count, the descrambler and the rest of the line. -/
structure HeadRead where
  bytes : Bytes
  run : Run
  scr : Nat
  rest : List Bool
  read : Nat
deriving DecidableEq, Repr

/-- Read a header after a delimiter (R107 step 3); none where HCRC does not fit. -/
def readHead (seed : Nat) (l : List Bool) : Option HeadRead :=
  let b := ballastRx 128 Run.start l
  let s := scramble seed b.1
  let h := packBits s.1
  if h.length = 16 ∧ crc16 (h.take 14) = beAt h 14 2 then
    some { bytes := h, run := b.2.1, scr := s.2, rest := b.2.2.1, read := b.2.2.2 }
  else none

/-- The first of some positions that is a candidate with a fitting HCRC (R107 steps 2 to 4). -/
def huntAt (first : Nat) (bits : List Bool) (seed : Nat) : List Nat → Option (Nat × HeadRead)
  | [] => none
  | p :: t =>
    let l := lineAt first bits p
    match delimErrors l with
    | some e =>
      if e ≤ 3 then
        match readHead seed (l.drop 64) with
        | some h => some (p, h)
        | none => huntAt first bits seed t
      else huntAt first bits seed t
    | none => huntAt first bits seed t

/-- The 33 positions of the window around an expected position. -/
def window (e : Int) : List Nat :=
  ((List.range 33).map (fun (i : Nat) => e - 16 + (i : Int))).filterMap (fun p => if p < 0 then none else some p.toNat)

/-! ### The span (R48, R49, R105, R109) -/

/-- What the codewords of a span gave: those read whole, how many were dropped for ballast and how many the line cut, and the receiver
after them. -/
structure SpanRead where
  cws : List Bytes
  dropped : Nat
  short : Nat
  run : Run
  scr : Nat
  rest : List Bool
  sent : Nat
deriving DecidableEq, Repr

/-- Read up to `n` codewords, with the test of R48 before each. -/
def readCws (fec : Bool) (span : Nat) : (n : Nat) → Run → Nat → List Bool → Nat → SpanRead
  | 0, r, sc, l, sent => { cws := [], dropped := 0, short := 0, run := r, scr := sc, rest := l, sent }
  | n + 1, r, sc, l, sent =>
    if span < sent + cwBits fec + 48 then { cws := [], dropped := n + 1, short := 0, run := r, scr := sc, rest := l, sent }
    else
      let b := ballastRx (cwBits fec) r l
      if b.1.length < cwBits fec then { cws := [], dropped := 0, short := n + 1, run := b.2.1, scr := sc, rest := [], sent }
      else
        let s := scramble sc b.1
        let t := readCws fec span n b.2.1 s.2 b.2.2.1 (sent + b.2.2.2)
        { t with cws := packBits s.1 :: t.cws }

/-- Ballast bits of a span that were not complementary, its header and its trailer among them (R43). -/
def SpanRead.viol (s : SpanRead) : Nat := (ballastRx 8 s.run s.rest).2.1.viol

/-- The trailer against the parity of the line bits read (R105): differing bits; none where the trailer is not on the line. The range ends with the last line bit
of the last codeword, a ballast bit that this codeword forces included (log entry 84). -/
def bipErrors (line : List Bool) (s : SpanRead) : Option Nat :=
  let b := ballastRx 8 s.run s.rest
  if b.1.length < 8 then none
  else some (onesOf (Nat.xor (ofBits (scramble s.scr b.1).1) (bip8 (line.take s.sent))))

/-- A codeword's data and corrected bytes; none where it is uncorrectable (R66, R103). -/
def decodeCw (fec : Bool) (cw : Bytes) : Option (Bytes × Nat) := if fec then rsDecode cw else some (cw, 0)

/-! ### The upstream stream (R78 to R81, R100) -/

/-- A parcel header (R78). -/
structure ParcelHead where
  flow : Nat
  len : Nat
  first : Bool
  last : Bool
  kp : Bool
  twin : Bool
deriving DecidableEq, Repr

/-- Read a parcel header; none at a header error. -/
def parcelHead (b : Bytes) : Option ParcelHead :=
  let x := ofBE (b.take 8)
  let len := field x 33 14
  if len = 0 ∨ crc16 (b.take 6) ≠ field x 0 16 then none
  else some { flow := field x 47 17, len, first := bitOf x 32, last := bitOf x 31, kp := bitOf x 30, twin := bitOf x 29 }

/-- A fragment with its body, or the beginning of it, and the count j of R361. -/
structure FragRead where
  head : ParcelHead
  body : Bytes
  j : Nat
deriving DecidableEq, Repr

/-- How a stretch of the stream ends: at a header position, within a body, or at a header error. -/
inductive StreamEnd where
  | clean
  | within (f : FragRead)
  | bad
deriving DecidableEq, Repr

/-- Delineate from a header position at byte `pos` of the payload (R81). -/
def delineate : (fuel pos j : Nat) → Bytes → List FragRead × StreamEnd
  | 0, _, _, _ => ([], .clean)
  | f + 1, pos, j, l =>
    if l.isEmpty then ([], .clean)
    else
      let room := 232 - pos % 232
      if room < 8 ∨ (l.take 8).all (· == 0) then delineate f (pos + room) j (l.drop room)
      else
        match parcelHead l with
        | none => ([], .bad)
        | some h =>
          let j' := if h.first then j + 1 else j
          let fr : FragRead := { head := h, body := (l.drop 8).take h.len, j }
          if l.length < 8 + h.len then ([], .within fr)
          else
            let r := delineate f (pos + 8 + h.len) j' (l.drop (8 + h.len))
            (fr :: r.1, r.2)

/-! ### Reassembly (R102) -/

/-- A flow bound to a terminal for upstream (R89, R98, R102): DIR 1, this terminal as listed now, and its FLOW_BIND has gone. -/
def Dev.flowOf (d : Dev) (t : Nat) (x : Term) (flow : Nat) : Bool :=
  (tget d.pool.flows flow).elim false (fun f => f.dir == 1 && f.tree == t && some f.id == x.id && f.serial == x.serial && f.bound.isSome)

/-- A whole parcel goes on to the cipher. -/
def Dev.toCipher (d : Dev) (ready : Nat) (u : CipherUnit) : Dev :=
  let d := d.cipherUse 0 u.tree u.body.length ready false
  { d with sec := ({ d.sec with cipherIn := cipherInsert d.now { ready, u } d.sec.cipherIn }).enterAll }

/-- Take one fragment of a terminal's stream. -/
def Dev.takeFrag (d : Dev) (t : Nat) (x : Term) (ready : Nat) (f : PartFrag) : Dev :=
  let id := x.id.getD 0
  if !d.flowOf t x f.flow then d.countTerm t x.id .flowForeign
  else
    let cur := (d.tree t).bySerial x.serial
    let open_ := (cur.elim [] (fun y => y.reasm)).find? (fun r => r.flow == f.flow)
    let unit_ (body : Bytes) (cycle ctr : Nat) (kp twin : Bool) : CipherUnit :=
      { tree := t, tid := id, flow := f.flow, kp, twin, body, cycle, ctr }
    let drop (d : Dev) : Dev := d.modTerm t x.serial (fun y => { y with reasm := y.reasm.filter (fun r => r.flow != f.flow) })
    if f.first then
      let d : Dev := if open_.isSome then (drop d).countTerm t x.id .reasmOrphan else d
      if f.last then d.toCipher ready (unit_ f.body f.cycle f.ctr f.kp f.twin)
      else if 8 ≤ (((d.tree t).bySerial x.serial).elim [] (fun y => y.reasm)).length then d.countTerm t x.id .reasmOrphan
      else d.modTerm t x.serial (fun y =>
        { y with reasm := y.reasm ++ [{ flow := f.flow, kp := f.kp, twin := f.twin, body := f.body, cycle := f.cycle, ctr := f.ctr }] })
    else
      match open_ with
      | none => d.countTerm t x.id .reasmOrphan
      | some r =>
        if f.last then (drop d).toCipher ready (unit_ (r.body ++ f.body) r.cycle r.ctr r.kp r.twin)
        else d.modTerm t x.serial (fun y =>
          { y with reasm := y.reasm.map (fun q => if q.flow = f.flow then { q with body := q.body ++ f.body } else q) })

/-- After an uncorrectable codeword or a header error (R102): resynchronise at the next FIRSTPOS, incomplete parcels go. -/
def Dev.loseStream (d : Dev) (t serial : Nat) : Dev :=
  d.modTerm t serial (fun y => { y with resync := true, reasm := [], part := none })

/-- Take the payload of an accepted barge: `good` are the bytes of its codewords up to the first uncorrectable one, `whole` says that
there is none; `k` is the rank of its place (R361), `ready` the clock of its header, which stands for the clock in which
its parcels reach the cipher (log entry 93). -/
def Dev.takePayload (d : Dev) (t : Nat) (x : Term) (firstPos k ready : Nat) (good : Bytes) (whole : Bool) : Dev :=
  let mk (f : FragRead) : PartFrag :=
    { flow := f.head.flow, need := f.head.len - f.body.length, first := f.head.first, last := f.head.last, kp := f.head.kp,
      twin := f.head.twin, body := f.body, cycle := d.now, ctr := k * 8192 + f.j }
  let rest (d : Dev) (pos : Nat) : Dev :=
    let r := delineate (good.length + 1) pos 0 (good.drop pos)
    let d := r.1.foldl (fun d f => d.takeFrag t x ready (mk f)) d
    match r.2 with
    | .bad => d.loseStream t x.serial
    | .clean => if whole then d.modTerm t x.serial (fun y => { y with resync := false, part := none }) else d.loseStream t x.serial
    | .within f =>
      if whole then d.modTerm t x.serial (fun y => { y with resync := false, part := some (mk f) }) else d.loseStream t x.serial
  if x.resync then
    if firstPos = 0xFFFF ∨ good.length ≤ firstPos then (if whole then d else d.loseStream t x.serial) else rest d firstPos
  else
    match x.part with
    | none => rest d 0
    | some f =>
      if good.length < f.need then
        if whole then d.modTerm t x.serial (fun y => { y with part := some { f with need := f.need - good.length, body := f.body ++ good } })
        else d.loseStream t x.serial
      else
        let d := d.takeFrag t x ready { f with body := f.body ++ good.take f.need, need := 0 }
        rest d f.need

/-! ### Places -/

/-- The place granted to a terminal at a start bit of this tick: listed, or standing, wake or shadow. -/
def Tree.placeNow (x : Tree) (c tid start : Nat) : Option PlaceAt :=
  let listed := ((tget x.keep.manifests c).elim [] (fun m => m.grants)).find? (fun g => g.tid == tid && g.start == start)
  match listed with
  | some g => some { tid, start, ncw := g.ncw, fec := x.fecOf c tid, kind := g.kind }
  | none => (x.unlisted c).find? (fun p => p.tid == tid && p.start == start)

/-- The rank of a data place by start bit among the terminal's data places of the tick (R361). -/
def Tree.placeRank (x : Tree) (c tid start : Nat) : Nat :=
  let listed := (((tget x.keep.manifests c).elim [] (fun m => m.grants)).filter (fun g => g.tid == tid && decide (g.kind ≤ 1))).map (·.start)
  let un := ((x.unlisted c).filter (fun p => p.tid == tid && (p.kind == 5 || p.kind == 6))).map (·.start)
  ((listed ++ un).filter (fun b => decide (b < start))).length

/-- Count a place of a terminal for its defects (R320, R321): result 0 accepted, 1 dark, 2 delineation miss. -/
def Dev.placeResult (d : Dev) (t id result : Nat) : Dev :=
  (d.modTermLine t id (fun l => { l with tick :=
    { placed := l.tick.placed + 1, accepted := l.tick.accepted + b2n (result == 0), dark := l.tick.dark + b2n (result == 1),
      delim := l.tick.delim + b2n (result == 2) } })).modLine t (fun l => { l with counted := true })

/-- Add to the block in progress (R318). -/
def ErrSource.add (s : ErrSource) (errors bits : Nat) : ErrSource :=
  { s with cur := { errors := s.cur.errors + errors, bits := s.cur.bits + bits } }

/-! ### Doze (R134, R135) -/

/-- A wake barge was accepted with or without an empty report (R135). -/
def Dev.wakeBarge (d : Dev) (t : Nat) (x : Term) (empty : Bool) : Dev :=
  match x.doze with
  | none => d
  | some z =>
    if z.endAt.elim false (fun e => decide (e ≤ d.now)) then d
    else if empty then
      d.modTerm t x.serial (fun y => { y with doze := some { z with missed := 0, nextWake := (d.tree t).wakeAfter z d.now } })
    else
      -- grants resume from the first manifest built after this barge, and no wake place is left; a DOZE_END that waits has nothing to end
      let z := { z with missed := 0, endAt := some d.nextBuild, goneFrom := some (d.now + 1) }
      d.modTree t (fun y => (y.modTerm x.serial (fun v => { v.enter .inService with doze := some z, aliveAt := d.now })).withdraw
        (fun m => m.kind == .dozeEnd && m.serial == x.serial))

/-- A wake place was missed; the third in a row makes the terminal LOST (R126). -/
def Dev.wakeMissed (d : Dev) (t : Nat) (x : Term) : Dev :=
  match x.doze with
  | none => d
  | some z =>
    if z.endAt.elim false (fun e => decide (e ≤ d.now)) then d
    else if 3 ≤ z.missed + 1 then d.becomeLost t x
    else d.modTerm t x.serial (fun y =>
      { y with doze := some { z with missed := z.missed + 1, nextWake := (d.tree t).wakeAfter z d.now } })

/-! ### Results of a place -/

/-- A missed place (R108, R126): `dark` or delineation miss. With a missed payload the stream is taken up again at the next FIRSTPOS (R100). -/
def Dev.placeMissed (d : Dev) (t : Nat) (x : Term) (pl : PlaceAt) (dark : Bool) : Dev :=
  let id := x.id.getD 0
  let d := d.placeResult t id (if dark then 1 else 2)
  let d := if 0 < pl.ncw then d.modTerm t x.serial (fun y => { y with resync := true, part := none }) else d
  match pl.kind with
  | 2 => d.rangingMissed t x
  | 3 => if x.confirmsAt d.now then d.cancelDoze t x else d
  | 7 => d.wakeMissed t x
  | _ => d

/-- A shadow place that is due in this tick (R152). -/
def Dev.shadowPlace (d : Dev) (t tid start : Nat) (energy : Bool) : Dev :=
  let mine (s : Shadow) : Bool := s.tid == tid && s.start == start && decide (s.from_ ≤ d.now) && dueIn s.n s.phase d.now
  if energy then
    let d := d.modTree t (fun x => { x with keep := { x.keep with
      shadows := x.keep.shadows.map (fun s => if mine s then { s with dark := 0 } else s) } })
    let d : Dev := match (d.tree t).byId tid with
      | none => d
      | some y =>
        match (y.tables.filter (fun tb => tb.sent)).getLast? with
        | none => d
        | some tb => d.modTree t (fun x => x.queueMsg { standingMsg y tb.version tb.from_ (d.now + 1) 4 tb.set with rule := .plain })
    (d.countTerm t (some tid) .standingStale).schedEvent t 5 (some tid)
  else
    let shadows (x : Tree) : List Shadow :=
      (x.keep.shadows.map (fun (s : Shadow) => if mine s then { s with dark := s.dark + 1 } else s)).filter (fun s => decide (s.dark < 4))
    d.modTree t (fun x => { x with keep := { x.keep with shadows := shadows x } })

/-- The queue report of an accepted barge (R98, R159); `pos` is the position after the header. An all-zero QREP with MORE 0 is the empty report of R127
(log entry 81). -/
def Dev.queueReport (d : Dev) (t : Nat) (x : Term) (qrep : Nat) (more : Bool) (pos : Nat) : Dev :=
  let id := x.id.getD 0
  let takeAt := if pos ≤ Config.bitsPerTick - 25600 then d.now + 1 else d.now + 2
  let flow := field qrep 15 17
  let cls := field qrep 12 3
  let backlog := field qrep 0 12
  let put (q : Option Nat) : Dev := d.modTree t (fun y => { y with keep := { y.keep with
    reports := y.keep.reports ++ [{ tid := id, queue := q, bytes := backlog * 64, tick := d.now, takeAt }] } })
  if qrep = 0 ∧ !more then put none
  else if !d.flowOf t x flow ∨ cls = 0 then d.countTerm t x.id .qrepForeign
  else if backlog = 0 ∧ !more then put none
  else put (some (flow * 8 + cls))

/-- Does the report state that every upstream queue is empty (R98)? -/
def emptyReport (qrep : Nat) (more : Bool) : Bool := field qrep 0 12 == 0 && !more

/-- REI of an accepted barge (R99, R318): errors and far-end bits since the one before. -/
def Dev.takeRei (d : Dev) (t : Nat) (x : Term) (rei : Nat) : Dev :=
  let id := x.id.getD 0
  let d : Dev := match x.lastRei with
    | none => d
    | some (v, tick) =>
      let diff := (rei + 65536 - v) % 65536
      let ticks := d.now - tick
      let d := if 2048 ≤ ticks then d.countTerm t x.id .reiGap else d
      d.modTermLine t id (fun l =>
        { l with farEnd := l.farEnd.add diff (1600000 * ticks),
                 pm := { l.pm with far := { l.pm.far with errors := l.pm.far.errors + diff, bits := l.pm.far.bits + 1600000 * ticks } } })
  d.modTerm t x.serial (fun y => { y with lastRei := some (rei, d.now) })

/-- The dying gasp bit (R97, R320). -/
def Dev.takeDg (d : Dev) (t id : Nat) (dg : Bool) : Dev :=
  if dg then d.modTermLine t id (fun l => { l with dgSeen := some d.now }) else d

/-- BIP-8 of an accepted barge (R105, R318). -/
def Dev.takeBip (d : Dev) (t : Nat) (x : Term) (errors bits : Nat) : Dev :=
  let id := x.id.getD 0
  let d := d.modTerm t x.serial (fun y => { y with bip8 := (y.bip8 + errors) % 2 ^ 32 })
  let d := d.modTermLine t id (fun l =>
    { l with path := l.path.add errors bits,
             pm := { l.pm with near := { l.pm.near with errors := l.pm.near.errors + errors, bits := l.pm.near.bits + bits } } })
  d.modLine t (fun l =>
    { l with path := l.path.add errors bits,
             pm := { l.pm with near := { l.pm.near with errors := l.pm.near.errors + errors, bits := l.pm.near.bits + bits } } })

/-- Darning counts (R104). -/
def Dev.takeDarn (d : Dev) (t : Nat) (x : Term) (bytes corr uncorr : Nat) : Dev :=
  let add (d : Dev) (st : Stat) (n : Nat) : Dev := if n = 0 then d else d.countTerm t x.id st n
  let d := d.modTerm t x.serial (fun y =>
    { y with darnBytes := (y.darnBytes + bytes) % 2 ^ 32, corrCw := (y.corrCw + corr) % 2 ^ 32,
             uncorrCw := (y.uncorrCw + uncorr) % 2 ^ 32 })
  add (add (add d .darnBytes bytes) .corrCw corr) .uncorrCw uncorr

/-- Is the epoch of a barge handled normally (R289)? -/
def Dev.epochOk (d : Dev) (t epoch : Nat) : Bool :=
  let x := d.tree t
  epoch == x.epoch ||
    (epoch == x.prevEpoch && (tget d.prot.ports t).elim false (fun p => p.prevUntil.elim false (fun u => decide (d.now < u))))

/-- The offset of an accepted barge (R108, R126, R129, R130).
An accepted barge of a DOZING terminal moves its offset and starts no adjustment and no quarantine (DESIGN CHOICE, log entry 115). -/
def Dev.takeOffset (d : Dev) (t : Nat) (x : Term) (kind : Nat) (o : Int) : Dev :=
  if kind = 2 then d.ranged t x o
  else
    let d := d.modTerm t x.serial (fun y => { y with offset := o })
    let a := o.natAbs
    if x.state ≠ .inService then d
    else if 32 < a then d.quarantine t x o
    else if 8 < a ∧ x.adj.isNone then d.startAdjust t x o
    else d

/-- What a new holder and a drill note of an accepted barge (R301, R303, R305): a drill hears the terminals in MOVE_AT to MOVE_AT + 63. -/
def Dev.portAccepted (d : Dev) (t id : Nat) (o : Int) : Dev :=
  let f (p : Port) : Port :=
    { p with
      mean := p.mean.map (fun m => if d.now < m.1 then (m.1, m.2.1 + o, m.2.2 + 1) else m),
      waiting := p.waiting.filter (· != id),
      drill := p.drill.map (fun r =>
        if d.now < r.moveAt then r
        else { r with
          heard := if r.heard.contains id || decide (r.moveAt + 64 ≤ d.now) then r.heard else r.heard ++ [id],
          maxOffset := if r.maxOffset < o.natAbs then o.natAbs else r.maxOffset }) }
  { d with prot := { d.prot with ports := tmod d.prot.ports t f } }

/-- Ballast violations of a receiver (R43, R63). -/
def Dev.ballastViol (d : Dev) (t n : Nat) : Dev :=
  (List.range n).foldl (fun d _ => (d.countTree t .ballastViol).lineEvent t 1 none) d

/-- An accepted barge (R107 to R109): its header fields, then its span. A stale epoch or a wrong FEC bit discards the payload (R103, R289) and adds nothing to the
darning counts (log entry 82); its BIP-8 is checked over the span that the header's FEC bit gives (R105, R318; log entry 83); a stale barge leaves the tracked offset as it was.
A report discarded as foreign whose BACKLOG and MORE are 0 counts as an empty report (DESIGN CHOICE, log entry 115). -/
def Dev.accepted (d : Dev) (t : Nat) (x : Term) (pl : PlaceAt) (p : Nat) (h : HeadRead) (line : List Bool) (cut : Bool) : Dev :=
  let id := x.id.getD 0
  let b1 := leAt h.bytes 1 1
  let fec := bitOf b1 5
  let more := bitOf b1 4
  let qrep := beAt h.bytes 6 4
  let mism := pl.kind != 2 && (fec != pl.fec)
  let stale := !d.epochOk t (beAt h.bytes 2 2)
  let o : Int := (p : Int) - ((pl.start + 512 : Nat) : Int)
  let rank := (d.tree t).placeRank d.now id pl.start
  let d := d.placeResult t id 0
  let d := d.takeDg t id (bitOf b1 3)
  let d := d.modTermLine t id (fun l => { l with lastBarge := some d.now })
  let d := d.takeRei t x (beAt h.bytes 4 2)
  let d := if stale then d.countTerm t x.id .epochStale else d.queueReport t x qrep more (p + 64 + h.read)
  let d := if mism then d.countTerm t x.id .bargeFecMismatch else d
  -- the span, as the header's FEC bit says it is coded
  let s := readCws fec (200 + pl.ncw * cwBits fec) pl.ncw h.run h.scr h.rest h.read
  let d := d.ballastViol t s.viol
  let d := (List.range s.dropped).foldl (fun d _ => (d.countTerm t x.id .bargeCwDrop).lineEvent t 4 x.id) d
  let d := if cut && decide (0 < s.short) then (d.countTerm t x.id .bargeCut).lineEvent t 10 x.id else d
  let d : Dev := match (if s.short = 0 then bipErrors line s else none) with
    | some e => d.takeBip t x e s.sent
    | none => d
  let d : Dev :=
    if stale ∨ mism then d.loseStream t x.serial
    else
      let dec := s.cws.map (decodeCw fec)
      let good := dec.takeWhile (·.isSome)
      let ok := dec.filterMap (fun c => c)
      let d := d.takeDarn t x (sumOf (ok.map (·.2))) (ok.filter (fun c => decide (0 < c.2))).length (dec.length - ok.length + s.short)
      d.takePayload t x (beAt h.bytes 10 2) rank (d.clk ((p + 64) * 25 / 256)) (good.flatMap (fun c => (c.map (·.1)).getD [])) (good.length == dec.length && s.short == 0)
  -- the terminal
  let d := d.modTerm t x.serial (fun y =>
    { y with aliveAt := d.now,
             emptySince := if emptyReport qrep more then (if y.emptySince.isSome then y.emptySince else some d.now) else none })
  let d := d.portAccepted t id o
  let d := if stale then d else d.takeOffset t x pl.kind o
  match pl.kind with
  | 3 => if !x.confirmsAt d.now then d
    else if emptyReport qrep more ∧ !stale then
      d.modTerm t x.serial (fun y => { y with doze := y.doze.map (fun z => { z with confirmed := true }) })
    else d.cancelDoze t x
  | 7 => d.wakeBarge t x (emptyReport qrep more || stale)
  | _ => d

/-! ### The standby (R110, R302) -/

/-- What the standby of a group holds of its tree: the mirror, or the holder's own state where both ports lie on this device (R288). -/
def Dev.mirrorTree (d : Dev) (p : Port) : Option Tree :=
  if p.peerDev = d.dev.devAddr then some (d.tree p.peerTree)
  else p.mirror.bind (fun m =>
    if (tget m.manifests d.now).isSome then
      some { Tree.reset with terms := m.terms, keep := { Keeper.reset with manifests := m.manifests } }
    else none)

/-- Every granted place of a tick: those of its manifest and those that are not listed. -/
def Tree.placesOf (x : Tree) (c : Nat) : List PlaceAt :=
  (x.grantsOf c).map (fun g => { tid := g.tid, start := g.start, ncw := g.ncw, fec := x.fecOf c g.tid, kind := g.kind }) ++ x.unlisted c

/-- The bit positions of an acquisition hunt (R302): from the end of the previous place's span to the start of the next. -/
def Tree.gapAround (x : Tree) (c : Nat) (p : PlaceAt) : List Nat :=
  let ps := x.placesOf c
  let lo := maxOf 0 ((ps.filter (fun q => decide (q.lo < p.lo))).map (fun q => q.lo + q.len))
  let hi := minOf Config.bitsPerTick ((ps.filter (fun q => decide (p.lo < q.lo))).map (·.lo))
  rangeFrom lo (hi + 1 - lo)

/-- The standby hunts a mirrored place: it tracks the terminal's offset and its BIP-8, nothing else. -/
def Dev.standbyHunt (d : Dev) (t : Nat) (p : Port) (r : BargeRx) : Dev :=
  match d.mirrorTree p with
  | none => d
  | some m =>
    match m.placeNow d.now r.tid r.start with
    | none => d
    | some pl =>
      let ps := match tget p.offsets r.tid with
        | some o => window ((pl.start : Int) + 512 + o)
        | none => m.gapAround d.now pl
      match huntAt r.first r.bits (bargeSeed d.now r.tid) ps with
      | none => d
      | some (q, h) =>
        if leAt h.bytes 0 1 ≠ r.tid then d.ballastViol t h.run.viol
        else
          let line := (lineAt r.first r.bits q).drop 64
          let s := readCws pl.fec (200 + pl.ncw * cwBits pl.fec) pl.ncw h.run h.scr h.rest h.read
          let e := bipErrors line s
          let d := d.ballastViol t s.viol
          let f (x : Port) : Port :=
            { x with offsets := tset x.offsets r.tid ((q : Int) - ((pl.start + 512 : Nat) : Int)), err := e.elim x.err (fun e => x.err.add e s.sent) }
          { d with prot := { d.prot with ports := tmod d.prot.ports t f } }

/-- The reference place of a CALIBRATE drill (R305): its terminal and start bit at the new holder, in tick MOVE_AT + 1. -/
def Dev.calPlace (d : Dev) (t : Nat) : Option (Nat × Nat) :=
  (tget d.prot.ports t).bind (fun p => p.drill.bind (fun r =>
    if r.op = .calibrate ∧ r.ref.isNone ∧ d.now = r.moveAt + 1 ∧ p.state = .holder then some (minOf 256 r.ids, 800000) else none))

/-- The new holder hunts every bit position for the reference barge and keeps the offset it measures. -/
def Dev.calHunt (d : Dev) (t : Nat) (r : BargeRx) : Dev :=
  match huntAt r.first r.bits (bargeSeed d.now r.tid) (rangeFrom r.first (r.bits.length - 63)) with
  | none => d
  | some (q, h) =>
    if leAt h.bytes 0 1 ≠ r.tid then d.ballastViol t h.run.viol
    else
      let d := d.ballastViol t (readCws false 200 0 h.run h.scr h.rest h.read).viol
      let o : Int := (q : Int) - 800512
      let f (x : Port) : Port :=
        { x with drill := x.drill.map (fun y => { y with e := some o, heard := [r.tid], maxOffset := o.natAbs }) }
      { d with prot := { d.prot with ports := tmod d.prot.ports t f } }

/-- What the hunt of a granted place ends in (R107, R108). -/
inductive Hunt where
  | dark
  | delim
  | mismatch (h : HeadRead)
  | found (p : Nat) (h : HeadRead)
deriving DecidableEq, Repr

/-- The hunt of a place of terminal `tid` with the tracked offset `o` in tick `c` (R107). -/
def hunt (first : Nat) (bits : List Bool) (c tid start : Nat) (o : Int) : Hunt :=
  let ps := window ((start : Int) + 512 + o)
  match huntAt first bits (bargeSeed c tid) ps with
  | some (p, h) => if leAt h.bytes 0 1 = tid then .found p h else .mismatch h
  | none => if energyIn first bits ps then .delim else .dark

/-- Count a miss and raise its line event (R107, R108, R114). A TID mismatch counts as that alone (log entry 85); the ballast violations of a header that was read
count in any case (R43). -/
def Dev.countMiss (d : Dev) (t : Nat) (id : Option Nat) : Hunt → Dev
  | .dark => (d.countTerm t id .bargeMissDark).lineEvent t 7 id
  | .delim => (d.countTerm t id .bargeMissDelim).lineEvent t 8 id
  | .mismatch h => ((d.ballastViol t h.run.viol).countTerm t id .bargeTidMismatch).lineEvent t 9 id
  | .found _ h => d.ballastViol t h.run.viol

/-- The opening E − 16 of the next granted place's window after a place (R109), counted from the boundary of tick `c`. -/
def Tree.nextOpening (x : Tree) (c start : Nat) : Option Nat :=
  let offset (tid kind : Nat) : Int := if kind = 2 then 0 else (x.byId tid).elim 0 (fun y => y.offset)
  let places := (x.grantsOf c).map (fun g => (g.start, offset g.tid g.kind)) ++ (x.unlisted c).map (fun p => (p.start, offset p.tid p.kind))
  let later := (places.filter (fun p => decide (start < p.1))).map (fun p => ((p.1 : Int) + 496 + p.2).toNat)
  match later with
  | [] => none
  | a :: l => some (minOf a l)

/-- The bits of a stretch that lie in the span of a place (R144). -/
def PlaceAt.bitsOf (p : PlaceAt) (first : Nat) (bits : List Bool) : List Bool :=
  (bits.drop (p.lo - first)).take (p.lo + p.len - Nat.max p.lo first)

/-- BARGE_RECEIVE (R107): a granted place of this tick is hunted and its barge taken; the next place's window ends it (R109). A place that is not granted has no
effect. A place of a terminal removed since is hunted without a tracked offset, and its barge is not taken (log entry 80). -/
def bargeReceive (r : BargeRx) (d : Dev) : Dev :=
  let t := r.tree
  let d := d.modLine t (fun l => { l with energy := l.energy || anyEnergy r.bits })
  let standby : Option Port := (tget d.prot.ports t).filter (fun p => p.state ≠ .holder)
  match standby with
  | some p => d.standbyHunt t p r
  | none =>
    if !d.treeUp t ∨ !(d.tree t).lit then d
    else if d.calPlace t = some (r.tid, r.start) then d.calHunt t r
    else
      match (d.tree t).placeNow d.now r.tid r.start with
      | none => d
      | some pl =>
        if pl.kind = 8 then d.shadowPlace t r.tid r.start (anyEnergy (pl.bitsOf r.first r.bits))
        else
          let opening := (d.tree t).nextOpening d.now pl.start
          let bits := opening.elim r.bits (fun w => r.bits.take (w - r.first))
          match (d.tree t).byId r.tid with
          | none =>
            (d.countMiss t (some r.tid) (hunt r.first bits d.now r.tid pl.start 0)).modLine t (fun l => { l with counted := true })
          | some x =>
            let o := if pl.kind = 2 then 0 else x.offset
            match hunt r.first bits d.now r.tid pl.start o with
            | .found p h =>
              d.accepted t x pl p h ((lineAt r.first bits p).drop 64) (opening.elim false (fun w => decide (w ≤ r.first + r.bits.length)))
            | m => (d.countMiss t x.id m).placeMissed t x pl (decide (m = .dark))

/-- REASM_TIMEOUT (R102): the incomplete parcels of a terminal whose last fragment has not arrived within 16 ticks go, once tick X + 16 is over (R84; log
entry 87). -/
def reasmTimeout (t id : Nat) (d : Dev) : Dev :=
  match (d.tree t).byId id with
  | none => d
  | some x =>
    let late := x.reasm.filter (fun r => decide (r.cycle + 16 < d.now))
    let d := d.modTerm t x.serial (fun y => { y with reasm := y.reasm.filter (fun r => !decide (r.cycle + 16 < d.now)) })
    if late.length = 0 then d else d.countTerm t x.id .reasmTimeout late.length
def execReasmTimeout (tree id : Nat) (s : State) : Host.Outcome State Fault Refusal := s.onDev (reasmTimeout tree id)

/-! ### Hails (R111 to R113) -/

/-- Does a header have the fixed values of a hail (R111)? -/
def hailHead (h : Bytes) : Bool :=
  leAt h 0 1 == 0xFF && bitOf (leAt h 1 1) 7 && !bitOf (leAt h 1 1) 5 && beAt h 4 2 == 0 && beAt h 6 4 == 0 && beAt h 10 2 == 0xFFFF &&
    beAt h 12 2 % 1024 == 0

/-- What the receiver makes of one delimiter candidate of a quiet window (R113). -/
inductive HailEnd where
  | accepted (h : Hail)
  | collided
  | noHeader
deriving DecidableEq, Repr

/-- One candidate at position `p` of the burst `e`: the hail that it carries, a collision where a step after the first fails, or nothing where HCRC does not fit. The
second part counts ballast violations. -/
def readHail (w : QwOpen) (r : HailRx) (e : Burst) (p : Nat) : HailEnd × Nat :=
  match readHead (bargeSeed w.q 0xFF) ((lineAt r.first r.bits p).drop 64) with
  | none => (.noHeader, 0)
  | some h =>
    let b := ballastRx 256 h.run h.rest
    let body := packBits (scramble h.scr b.1).1
    let ok := body.length = 32 ∧ hailHead h.bytes ∧ crc32c (body.take 28) = beAt body 28 4 ∧ p + 496 ≤ e.last ∧ e.last ≤ p + 527 ∧
      e.last < w.w * Config.bitsPerTick
    (if ok then .accepted { d := p, last := e.last, serial := beAt body 0 8, model := beAt body 8 4, caps := beAt body 12 2, nonce := beAt body 16 4 }
     else .collided, b.2.1.viol)

/-- The candidates of a burst, in ascending position (R113). -/
def hailCandidates (r : HailRx) (e : Burst) : List Nat :=
  (rangeFrom e.first (e.last + 1 - e.first)).filter (fun p => (delimErrors (lineAt r.first r.bits p)).elim false (fun n => decide (n ≤ 3)))

/-- Two hails overlap in the spans d to d + 511. -/
def hailsOverlap (a b : Nat) : Bool := decide (a < b + 512) && decide (b < a + 512)

/-- Change a quiet window that is open. -/
def Dev.modWindow (d : Dev) (t q : Nat) (f : QwOpen → QwOpen) : Dev :=
  d.modTree t (fun x => { x with disc := { x.disc with windows := x.disc.windows.map (fun v => if v.q = q then f v else v) } })

/-- A collision of the window that began at `q`. -/
def Dev.hailCollision (d : Dev) (t q : Nat) : Dev := (d.modWindow t q (fun w => { w with collided := true })).countTree t .hailCollide

/-- An accepted hail: kept, or discarded with those that it overlaps (R113). -/
def Dev.keepHail (d : Dev) (t q : Nat) (h : Hail) : Dev :=
  match (d.tree t).disc.windows.find? (fun w => w.q == q) with
  | none => d
  | some w =>
    let hits := w.hails.filter (fun k => hailsOverlap k.d h.d)
    let d := d.countTree t .hailAccept
    if hits.isEmpty && !w.spoiled.any (fun k => hailsOverlap k h.d) then d.modWindow t q (fun w => { w with hails := w.hails ++ [h] })
    else
      (d.modWindow t q (fun w => { w with
        hails := w.hails.filter (fun k => !hailsOverlap k.d h.d), spoiled := h.d :: (hits.map (·.d) ++ w.spoiled) })).hailCollision t q

/-- One burst of energy in a quiet window: its candidates are judged in ascending position; energy without an accepted hail is a collision (once, log entry 88), and
TREE_BRST is pulsed 112 bit times after its end (R52). -/
def Dev.hailBurst (d : Dev) (t : Nat) (w : QwOpen) (r : HailRx) (e : Burst) : Dev :=
  let ends := (hailCandidates r e).map (readHail w r e)
  let d := d.ballastViol t (sumOf (ends.map (·.2)))
  let d := ends.foldl (fun d c => match c.1 with
    | .accepted h => d.keepHail t w.q h
    | .collided => d.hailCollision t w.q
    | .noHeader => d) d
  let d := if ends.all (fun c => decide (c.1 = .noHeader)) then d.hailCollision t w.q else d
  let p := e.last + 112
  d.modTree t (fun x => { x with lanes := { x.lanes with brst := x.lanes.brst ++
    (if p < w.w * Config.bitsPerTick then [(w.q + p / Config.bitsPerTick, p % Config.bitsPerTick)] else []) } })

/-- HAIL_RECEIVE (R113): line bits of the tree's quiet window. -/
def hailReceive (r : HailRx) (d : Dev) : Dev :=
  let t := r.tree
  match (d.tree t).disc.windows.find? (fun w => decide (w.q ≤ d.now) && decide (d.now ≤ w.q + w.w)) with
  | none => d
  | some w =>
    let d := d.modLine t (fun l => { l with energy := l.energy || anyEnergy r.bits })
    (bursts r.first r.bits).foldl (fun d e => d.hailBurst t w r e) d
def execHailReceive (r : HailRx) (s : State) : Host.Outcome State Fault Refusal := s.onDev (hailReceive r)

end Sys2Proof.Machine
end

