-- ==== Sys2Proof/Machine/Counters.lean ====
section
/-!
DEFINITION. Counters and snapshots (chapter 20): the snapshot latch, clears and reprogramming at a boundary, dumps, BAR2 windows and the
commands COUNTER_DUMP_SET and COUNTER_SELECT.
-/
namespace Sys2Proof.Machine

/-! ### At the boundary (R21 steps 1 and 2, R473, R475) -/

/-- SNAPSHOT_LATCH (R473): snapshot C latches every counter. `present` says of a group and an instance whether its object is present and in use: one that is not
reads zero (R477). -/
def CounterUnit.latch (c : CounterUnit) (cycle : Nat) (present : Nat → Nat → Bool) : CounterUnit :=
  let here (e : Nat × Nat) : Bool := present (e.1 / 16777216 / 1024) (e.1 % 16777216)
  { c with snap := c.live.filter here, snapProgs := c.progs, snapC := cycle,
           snapDelta := c.delta.filter here, snapCleared := c.cleared, snapWrapped := c.wrapped }

/-- What a dump of the snapshot leaves for the next one: the counts, wraps and clears since the snapshot (R474, R487). -/
def CounterUnit.sinceSnap (c : CounterUnit) : CounterUnit :=
  let delta := c.delta.map (fun e => (e.1, e.2 - tgetD c.snapDelta e.1 0))
  { c with delta := delta.filter (fun e => e.2 != 0), cleared := c.cleared.take (c.cleared.length - c.snapCleared.length),
           wrapped := c.wrapped.take (c.wrapped.length - c.snapWrapped.length) }

/-- Does a key of the store belong to instances `first` to `first + count − 1` of group `g`? -/
def keyIn (g first count key : Nat) : Bool :=
  key / 16777216 / 1024 == g && decide (first ≤ key % 16777216) && decide (key % 16777216 < first + count)

/-- Clear instances of a group (R475, R489). Group PROG clears values and keeps the programming. -/
def CounterUnit.clear (c : CounterUnit) (g first count : Nat) : CounterUnit :=
  if g = 21 then
    { c with progs := c.progs.map (fun p =>
        if first ≤ p.1 ∧ p.1 < first + count then (p.1, { p.2 with value := 0 }) else p) }
  else
    { c with live := c.live.filter (fun e => !keyIn g first count e.1),
             cleared := if ctrWidth g = 40 then (g, first, count) :: c.cleared else c.cleared }

/-- Bind or unbind a queue counter block (R478): its counters start at zero. -/
def CounterUnit.bind (c : CounterUnit) (block : Nat) (first : Option Nat) : CounterUnit :=
  let c := c.clear 5 (block * 64) 64
  match first with
  | some f => { c with blocks := tset c.blocks block f }
  | none => { c with blocks := tdel c.blocks block }

/-- Apply one change of the first kind and complete its command. -/
def Dev.applyClear (d : Dev) : ClearReq → Dev
  | .clear ref g first count =>
    let d := { d with ctr := d.ctr.clear g first count }
    let d := if g = 8 then { d with sched := { d.sched with
      hists := tmap d.sched.hists (fun k h => if first ≤ k ∧ k < first + count then { h with full := [] } else h) } } else d
    d.complete ref .ok (fromResp d.now)
  | .block ref b first => ({ d with ctr := d.ctr.bind b first }).complete ref .ok (fromResp d.now)

/-- Apply one reprogramming (R480): the counter restarts at 0 and GEN rises by 1. -/
def Dev.applyProg (d : Dev) (r : ProgReq) : Dev :=
  let gen := ((tget d.ctr.progs r.counter).elim 0 (fun p => p.gen) + 1) % 65536
  let d := { d with ctr := { d.ctr with progs := tset (progsAdd d.ctr.progs 21 Stat.progGen.code r.counter 1) r.counter { r.prog with value := 0, gen } } }
  d.complete r.ref .ok (fromResp d.now ++ le 2 gen)

/-- COUNTER_CLEAR_APPLY (R475): at most 16 changes of the first kind and 1,024 reprogrammings, the rest wait. -/
def Dev.applyCounters (d : Dev) : Dev :=
  let clears := d.ctr.clears
  let progs := d.ctr.reprograms
  let d := { d with ctr := { d.ctr with clears := clears.drop 16, reprograms := progs.drop 1024 } }
  let d := (clears.take 16).foldl Dev.applyClear d
  (progs.take 1024).foldl Dev.applyProg d

/-- COUNTER_DUMP_SET at its boundary (R488): enabling resets DUMP_HEAD, DUMP_TAIL and SEQ. -/
def Dev.applyDumpSet (d : Dev) (p : CmdRef × DumpSet) : Dev :=
  let c := d.ctr
  let c := if p.2.enable then
      { c with dump := p.2, dumpHead := 0, dumpTail := 0, dumpSeq := 0, dumpPrev := 0, dumpSkip := 0, job := none,
               delta := [], cleared := [], wrapped := [], snapDelta := [], snapCleared := [], snapWrapped := [] }
    else { c with dump := p.2, job := none }
  ({ d with ctr := c }).complete p.1 .ok (fromResp d.now)

/-- COUNTER_DUMP_START (R484): at C mod PERIOD = 0 a dump of snapshot C starts, or is skipped and counted while the ring is full or
the dump before it is being written. -/
def Dev.dumpStart (d : Dev) : Dev :=
  let c := d.ctr
  if !c.dump.enable || c.dump.period = 0 || d.now % c.dump.period ≠ 0 then d
  else if c.job.isSome || (c.dumpHead + 1) % c.dump.slots = c.dumpTail % c.dump.slots then
    ({ d with ctr := { c with dumpSkip := c.dumpSkip + 1 } }).countDev .dumpSkipped
  else
    let job : DumpJob :=
      { cycle := d.now, prev := c.dumpPrev, seq := c.dumpSeq + 1, skipped := c.dumpSkip, values := c.snap,
        delta := c.snapDelta, cleared := c.snapCleared, wrapped := c.snapWrapped, progs := c.snapProgs, head := c.dumpHead,
        settings := c.dump }
    { d with ctr := { c.sinceSnap with job := some job, dumpSeq := c.dumpSeq + 1, dumpPrev := d.now, dumpSkip := 0 } }

/-! ### Dumps (R484 to R487) -/

/-- One word of a record: the value in the snapshot, or for a 40-bit counter the delta with WRAP and CLEARED (R487). -/
def DumpJob.word (j : DumpJob) (g code inst : Nat) : Nat :=
  let key := ctrKey g code inst
  if g = 21 then
    (tget j.progs inst).elim 0 (fun p => if code = Stat.progGen.code then p.gen else p.value)
  else if ctrWidth g = 40 then
    tgetD j.delta key 0 % 2 ^ 40 + 2 ^ 40 * b2n (j.wrapped.contains key) +
      2 ^ 41 * b2n (j.cleared.any (fun r => keyIn r.1 r.2.1 r.2.2 key))
  else tgetD j.values key 0

/-- One record (R486). -/
def DumpJob.record (j : DumpJob) (g inst : Nat) : Bytes :=
  le 1 g ++ le 1 (nstat g) ++ le 2 (if g = 21 then j.word 21 Stat.progGen.code inst else 0) ++ le 4 inst ++
    le 6 j.cycle ++ le 2 0 ++ (instanceWords g).flatMap (fun code => le 8 (j.word g code inst))

/-- The instances of a selection, in order (R484). -/
def selected (sel : List (Nat × Nat × Nat)) : List (Nat × Nat) :=
  sel.flatMap (fun e => (rangeFrom e.2.1 e.2.2).map (fun i => (e.1, i)))

/-- The whole records that fit in `room` bytes, how many they are, and whether some did not fit. -/
def DumpJob.records (j : DumpJob) : (room : Nat) → List (Nat × Nat) → Bytes × Nat × Bool
  | _, [] => ([], 0, false)
  | room, (g, i) :: t =>
    let b := j.record g i
    if room < b.length then ([], 0, true)
    else
      let r := j.records (room - b.length) t
      (b ++ r.1, r.2.1 + 1, r.2.2)

/-- COUNTER_DUMP_DONE (R484, R486): the slot is written, at most 500,000 bytes a tick, DONE last, and DUMP_HEAD advances. -/
def dumpDone (d : Dev) (mem : List Host.Cell) : Dev × List Host.Cell :=
  match d.ctr.job with
  | none => (d, mem)
  | some j =>
    if d.host.d3 then (d, mem) else
    let r := j.records (j.settings.slotSize - 64) (selected j.settings.select)
    if d.now < j.cycle + (63 + r.1.length) / 500000 then (d, mem) else
    let base := j.settings.base + j.head * j.settings.slotSize
    let head := le 4 0x504D5544 ++ le 2 1 ++ le 2 (b2n r.2.2) ++ le 8 j.seq ++ fromResp j.cycle ++ le 8 j.prev ++
      le 4 j.skipped ++ le 4 r.2.1 ++ le 8 (64 + r.1.length) ++ le 8 0
    let mem := memWrite mem base head
    let mem := memWrite mem (base + 64) r.1
    let mem := memWrite mem (base + 56) (fromResp j.cycle)
    let d := { d with ctr := { d.ctr with job := none, dumpHead := (j.head + 1) % j.settings.slots } }
    (if r.2.2 then d.countDev .dumpTrunc else d, mem)
def execCounterDumpDone (s : State) : Host.Outcome State Fault Refusal := s.onBoth dumpDone

/-! ### BAR2 (R481 to R483): what a window shows; no command of the table reads it -/

/-- The stride of a group in a window (R481). -/
def winStride (g : Nat) : Nat := 8 * (instanceWords g).length
/-- The number of instances a window shows (R481). -/
def winCount (g first : Nat) : Nat :=
  let n := 65472 / winStride g
  let l := groupSize g - first
  if n < l then n else l

/-- The aligned 8-byte value at offset `off` of window `w` (R481): zero where the window is unbound or its group is not permitted
(R483). -/
def CounterUnit.bar2 (c : CounterUnit) (w off : Nat) : Nat :=
  match tget c.windows w with
  | none => 0
  | some (g, first) =>
    if !bitOf c.permit g then 0
    else if off = 0 then c.snapC
    else if off = 8 then g + 256 * nstat g + 2 ^ 32 * first
    else if off = 16 then winCount g first + 2 ^ 32 * winStride g
    else if off < 64 then 0
    else
      let i := (off - 64) / winStride g
      let code := lget (instanceWords g) ((off - 64) % winStride g / 8) 0
      if winCount g first ≤ i then 0
      else if g = 21 then
        (tget c.snapProgs (first + i)).elim 0 (fun p => if code = Stat.progGen.code then p.gen else p.value)
      else tgetD c.snap (ctrKey g code (first + i)) 0

/-! ### Commands (R488, R489) -/

/-- Are the fields of COUNTER_DUMP_SET in range (R488)? Without ENABLE the operation uses no other field (R7). -/
def dumpReqValid (r : DumpReq) : Bool :=
  !r.enable || decide (1 ≤ r.select.length) && decide (r.select.length ≤ 64) && decide (2 ≤ r.slots) && decide (r.slots ≤ 256) &&
    decide (8 ≤ r.period) && decide (r.period ≤ 65536) && r.base % 65536 == 0 && decide (65536 ≤ r.slotSize) &&
    decide (r.slotSize ≤ 268435456) && r.slotSize % 65536 == 0 &&
    r.select.all (fun e => decide (e.1 ≤ 21) && decide (e.2.1 + e.2.2 ≤ groupSize e.1))

def counterDumpSet (r : DumpReq) (ref : CmdRef) (d : Dev) : Dev :=
  if !dumpReqValid r then d.complete ref .invalid
  else
    let set : DumpSet :=
      { enable := r.enable, slots := r.slots, period := r.period, base := r.base, slotSize := r.slotSize, select := r.select }
    { d with ctr := { d.ctr with dumpPend := d.ctr.dumpPend ++ [(ref, set)] } }
def execCounterDumpSet (ctx : Nat) (r : DumpReq) (s : State) : Host.Outcome State Fault Refusal :=
  s.onDev (·.mailbox ctx 0x0D01 (counterDumpSet r))

/-- The instance range a condition takes; none where the instance is ignored (R479). -/
def conditionRange : Nat → Option Nat
  | 1 => some 1048576 | 2 => some 1048576 | 3 => some 256 | 6 => some 8 | 8 => some 2 | 9 => some 24 | _ => none

/-- Are the fields of PROGRAM in range (R479, R489)? For group QUEUE the instances are queue numbers. -/
def programReqValid (r : ProgramReq) : Bool :=
  decide (r.mode ≤ 2) && decide (r.counter ≤ 4095) &&
    (r.mode == 0 ||
     (r.kind == 1 && r.mode == 1 && decide (r.group ≤ 21) && decide (r.stat < nstat r.group) && decide (r.first ≤ r.last) &&
        decide (r.last < if r.group = 5 then 1048576 else groupSize r.group)) ||
     (r.kind == 2 && decide (1 ≤ r.group) && decide (r.group ≤ 9) &&
        (conditionRange r.group).elim true (fun n => decide (r.first ≤ r.last) && decide (r.last < n))))

/-- COUNTER_SELECT PROGRAM: takes effect at the boundary that applies it (R475, R480). -/
def selectProgram (r : ProgramReq) (ref : CmdRef) (d : Dev) : Dev :=
  if !programReqValid r then d.complete ref .invalid
  else
    let prog : Prog :=
      { mode := r.mode, kind := r.kind, group := r.group, stat := r.stat, first := r.first, last := r.last, value := 0,
        gen := 0 }
    { d with ctr := { d.ctr with reprograms := d.ctr.reprograms ++ [{ ref, counter := r.counter, prog }] } }
def execCounterSelectProgram (ctx : Nat) (r : ProgramReq) (s : State) : Host.Outcome State Fault Refusal :=
  s.onDev (·.mailbox ctx 0x0D02 (selectProgram r))

/-- COUNTER_SELECT CLEAR. -/
def selectClear (r : ClearGroupReq) (ref : CmdRef) (d : Dev) : Dev :=
  if 21 < r.group ∨ groupSize r.group < r.first + r.count then d.complete ref .invalid
  else { d with ctr := { d.ctr with clears := d.ctr.clears ++ [.clear ref r.group r.first r.count] } }
def execCounterSelectClear (ctx : Nat) (r : ClearGroupReq) (s : State) : Host.Outcome State Fault Refusal :=
  s.onDev (·.mailbox ctx 0x0D02 (selectClear r))

/-- The bindings of the blocks once every waiting QUEUE_BLOCK has been applied. -/
def CounterUnit.futureBlocks (c : CounterUnit) : Tbl Nat :=
  c.clears.foldl (fun t r => match r with
    | .block _ b (some f) => tset t b f
    | .block _ b none => tdel t b
    | .clear _ _ _ _ => t) c.blocks

/-- COUNTER_SELECT QUEUE_BLOCK: FIRST is a multiple of 64, or 0xFFFF_FFFF to unbind; the queues overlap no other block's. -/
def selectQueueBlock (r : QueueBlockReq) (ref : CmdRef) (d : Dev) : Dev :=
  let unbind := decide (r.first = 0xFFFFFFFF)
  let bad := decide (255 < r.block) ||
    (!unbind && (decide (r.first % 64 ≠ 0) || decide (1048576 < r.first + 64) ||
      d.ctr.futureBlocks.any (fun b => b.1 != r.block && b.2 == r.first)))
  if bad then d.complete ref .invalid
  else
    let first := if unbind then none else some r.first
    { d with ctr := { d.ctr with clears := d.ctr.clears ++ [.block ref r.block first] } }
def execCounterSelectQueueBlock (ctx : Nat) (r : QueueBlockReq) (s : State) : Host.Outcome State Fault Refusal :=
  s.onDev (·.mailbox ctx 0x0D02 (selectQueueBlock r))

/-- COUNTER_SELECT WINDOW, with immediate effect (R481). -/
def selectWindow (r : WindowReq) (ref : CmdRef) (d : Dev) : Dev :=
  if 127 < r.window ∨ 21 < r.group ∨ groupSize r.group ≤ r.first then d.complete ref .invalid
  else ({ d with ctr := { d.ctr with windows := tset d.ctr.windows r.window (r.group, r.first) } }).complete ref .ok
def execCounterSelectWindow (ctx : Nat) (r : WindowReq) (s : State) : Host.Outcome State Fault Refusal :=
  s.onDev (·.mailbox ctx 0x0D02 (selectWindow r))

/-- COUNTER_SELECT CATALOG: NSTAT, WIDTH and the names in the die's order. -/
def catalogResp (g : Nat) : Bytes :=
  le 1 (nstat g) ++ le 1 (ctrWidth g) ++ le 2 0 ++ (catalog g).flatMap (fun c => ascii 32 (statName c))
def execCounterSelectCatalog (ctx group : Nat) (s : State) : Host.Outcome State Fault Refusal :=
  s.onDev (·.mailbox ctx 0x0D02 (fun ref d =>
    if 21 < group then d.complete ref .invalid else d.complete ref .ok (catalogResp group)))

end Sys2Proof.Machine
end

