-- ==== Sys2Proof/Machine/Defects.lean ====
section
/-!
DEFINITION. Line defects and performance monitoring (chapter 13): error blocks, SD and SF, LOS and the terminal defects at a boundary, PM
seconds and bins, PM_READ.
-/
namespace Sys2Proof.Machine

/-! ### Blocks and ratios (R318, R319) -/

/-- The tree defects of a port are evaluated on a holder or on an unprotected tree (R322 item 3). -/
def Dev.evalsTree (d : Dev) (t : Nat) : Bool := (tget d.prot.ports t).elim true (fun p => p.state = .holder)

/-- End the block in progress; 120 ended blocks are kept. -/
def ErrSource.roll (s : ErrSource) : ErrSource := { cur := .zero, past := (s.cur :: s.past).take 120 }

/-- Errors and covered bits of the last `n` ended blocks. -/
def ErrSource.window (s : ErrSource) (n : Nat) : Nat × Nat :=
  let w := s.past.take n
  (sumOf (w.map (fun b => b.errors)), sumOf (w.map (fun b => b.bits)))

/-- The next state of SD or SF with exponent `e` (R319): a window without covered bits changes nothing. -/
def ErrSource.judge (s : ErrSource) (thr : Thresholds) (e : Nat) (set : Bool) : Bool :=
  if set then
    let w := s.window thr.clearBlocks
    !(decide (0 < w.2) && decide (w.1 * 10 ^ e < w.2))
  else
    let w := s.window thr.setBlocks
    decide (0 < w.2) && decide (w.2 ≤ w.1 * 10 ^ e)

/-- The block of one terminal ends. -/
def Dev.termBlock (d : Dev) (t : Nat) (thr : Thresholds) (x : Term) : Dev :=
  match x.id with
  | none => d
  | some id =>
    let d := d.modTermLine t id (fun l => { l with path := l.path.roll, farEnd := l.farEnd.roll })
    if !x.state.evaluated then d
    else
      let los := bitOf (d.line t).defects 8
      let l := d.termLine t id
      let judge (d : Dev) (bit e : Nat) (s : ErrSource) : Dev := d.setTermDefect t id bit (s.judge thr e (bitOf l.defects bit))
      let d := if los then d else judge (judge d 4 thr.sdExp l.path) 5 thr.sfExp l.path
      judge (judge d 6 thr.sdExp l.farEnd) 7 thr.sfExp l.farEnd

/-- The block of one tree ends; a waiting threshold write takes effect (R328). While LOS is set, SD and SF keep their state (R322 item 1). -/
def Dev.treeBlock (d : Dev) (t : Nat) : Dev :=
  let d := d.modLine t (fun l => { l with thr := l.thrPend.getD l.thr, thrPend := none, path := l.path.roll })
  let l := d.line t
  let judge (d : Dev) (bit e : Nat) : Dev := d.setTreeDefect t bit (l.path.judge l.thr e (bitOf l.defects bit))
  let d := if d.evalsTree t && !bitOf l.defects 8 then judge (judge d 9 l.thr.sdExp) 10 l.thr.sfExp else d
  let d := (d.tree t).terms.foldl (fun d x => d.termBlock t l.thr x) d
  let f (p : Port) : Port :=
    { p with err := p.err.roll, witnessSf := p.err.roll.judge l.thr l.thr.sfExp p.witnessSf }
  { d with prot := { d.prot with ports := tmod d.prot.ports t f } }

/-- The block that ends at this boundary, on every attached tree (R318). -/
def Dev.endBlocks (d : Dev) : Dev :=
  let d := ((tkeys d.trees).filter (fun t => d.treeUp t)).foldl (fun d t => d.treeBlock t) d
  { d with clock := { d.clock with blockDue := false, blockDone := some d.now } }

/-- At a boundary the block that ERROR_BLOCK_END has ended is judged, before the other defects and the lease logic (R322). -/
def Dev.blocksBoundary (d : Dev) : Dev :=
  if !d.clock.blockDue then d
  else if d.now % 4000 = 0 then d.endBlocks
  else { d with clock := { d.clock with blockDue := false } }

/-! ### Defects at a boundary (R320 to R322) -/

/-- The defect runs of a terminal after a tick that held `tick` (R320). -/
def TermLine.afterTick (l : TermLine) : TermLine :=
  let k := l.tick
  if k.placed = 0 then l
  else
    let allMiss := k.accepted == 0
    { l with
      darkRun := if k.dark = k.placed then l.darkRun + 1 else 0,
      missRun := if allMiss then l.missRun + 1 else 0,
      missDelim := allMiss && (l.missDelim || decide (0 < k.delim)),
      losClear := if k.dark = 0 then l.losClear + 1 else 0,
      lobClear := if k.accepted = k.placed then l.lobClear + 1 else 0 }

/-- LOSi, LOBi, DRIFTi and DGi of one terminal at a boundary; `los` says that LOS of its tree is set. Entry to LISTED clears every defect (R321); a quarantine
sets DRIFTi at the boundary after it (R320, R322). -/
def Dev.termDefects (d : Dev) (t : Nat) (los : Bool) (x : Term) : Dev :=
  match x.id with
  | none => d
  | some id =>
    let evald := x.state.evaluated
    let d := if x.state = .listed then d.clearTermDefects t id 1 else if x.state = .quarantined then d.setTermDefect t id 2 true else d
    let d := if evald && !los then d.modTermLine t id (fun l => { l.afterTick with tick := .zero })
             else d.modTermLine t id (fun l => { l with tick := .zero })
    let l := d.termLine t id
    let d : Dev :=
      if evald && !los then
        let d := if 8 ≤ l.darkRun then d.setTermDefect t id 0 true else if 8000 ≤ l.losClear then d.setTermDefect t id 0 false else d
        if 8 ≤ l.missRun ∧ l.missDelim then d.setTermDefect t id 1 true else if 8000 ≤ l.lobClear then d.setTermDefect t id 1 false else d
      else d
    match (if evald then l.dgSeen else none) with
      | none => d
      | some g =>
        if l.lastBarge.elim false (fun b => decide (g + 8000 ≤ b)) then
          (d.setTermDefect t id 3 false).modTermLine t id (fun l => { l with dgSeen := none })
        else if g + 1 = d.now then d.setTermDefect t id 3 true
        else d

/-- The loss defects in force in the tick that ends, noted for the seconds of the tree and its terminals (R325). -/
def Dev.noteLoss (d : Dev) (t : Nat) : Dev :=
  d.modLine t (fun l =>
    let los := bitOf l.defects 8
    let note (b : Bool) (e : PmEntity) : PmEntity := { e with near := { e.near with loss := e.near.loss || b } }
    { l with
      pm := note los l.pm,
      terms := tmap l.terms (fun _ y => { y with pm := note (los || bitOf y.defects 0 || bitOf y.defects 1 || bitOf y.defects 2) y.pm }) })

/-- The tree defects of a port that becomes standby clear with cause ROLE (R322 item 3), at a boundary: the one at which it becomes standby, or the next. -/
def Dev.roleStandby (d : Dev) (t : Nat) : Dev :=
  if d.clock.inBoundary then [8, 9, 10].foldl (fun d b => d.setTreeDefect t b false 3) d else d

/-- DEFECT_EVALUATION (R322) of one tree at boundary C, from the results of tick C − 1; `energy` says that its receive lane showed energy in
that tick. -/
def Dev.defectsBoundary (d : Dev) (t : Nat) (energy : Bool) : Dev :=
  let x := d.tree t
  let c := d.now - 1
  let d := d.noteLoss t
  let holds := ((tget x.keep.manifests c).elim [] (fun m => m.grants)) != [] || (x.unlisted c).any (fun p => p.kind != 8)
  let l := d.line t
  let counted := (l.counted || holds) && !x.inWindow c
  let silent := !(energy || l.energy)
  let d := d.modLine t (fun l => { l with counted := false, energy := false })
  let was := bitOf l.defects 8
  let d : Dev :=
    if !d.evalsTree t then (if (tget d.prot.ports t).elim false (fun p => p.state = .standby) then d.roleStandby t else d)
    else
      let d := if counted then d.modLine t (fun l =>
          { l with silentRun := if silent then l.silentRun + 1 else 0, clearRun := if silent then 0 else l.clearRun + 1 }) else d
      let l := d.line t
      if 2 ≤ l.silentRun then d.setTreeDefect t 8 true
      else if bitOf l.defects 8 ∧ 80000 ≤ l.clearRun then
        (d.setTreeDefect t 8 false).modLine t (fun l => { l with
          terms := tmap l.terms (fun _ y => { y with darkRun := 0, missRun := 0, missDelim := false, losClear := 0, lobClear := 0 }) })
      else d
  -- at the boundary at which LOS clears the runs restart: the tick before it is not one of them
  let los := was || bitOf (d.line t).defects 8
  (d.tree t).terms.foldl (fun d x => d.termDefects t los x) d

/-- The runs and windows of a port that becomes holder start empty (R322 item 3). -/
def Dev.roleHolder (d : Dev) (t : Nat) : Dev :=
  d.modLine t (fun l => { l with silentRun := 0, clearRun := 0, path := .reset, counted := false, energy := false })

/-! ### PM seconds and bins (R325 to R327) -/

/-- Seconds of a bin. -/
def PmEntity.binLen (e : PmEntity) : Nat := if e.dayBins then 86400 else 900
/-- Closed bins kept. -/
def PmEntity.kept (e : PmEntity) : Nat := if e.dayBins then 7 else 96

/-- A second of one direction ends (R325, R326): the line after it, and the second that leaves. Only at the far end is a second without covered bits never SES (log
entry 110). -/
def PmLine.endSecond (p : PmLine) (far classified : Bool) (sesExp bin : Nat) : PmLine × Option PmSecond :=
  let ses := classified && (p.loss || ((!far || decide (0 < p.bits)) && decide (p.bits ≤ p.errors * 10 ^ sesExp)))
  let es := classified && (ses || decide (0 < p.errors))
  let all : List PmSecond := { es, ses, uas := p.unavail && classified, bin } :: p.line
  let line := all.take 10
  let leaving := (all.drop 10).head?
  let full := decide (line.length = 10)
  let (line, unavail) :=
    if !p.unavail && full && line.all (fun s => s.ses) then (line.map (fun s => { s with uas := true }), true)
    else if p.unavail && full && !line.any (fun s => s.ses) then (line.map (fun s => { s with uas := false }), false)
    else (line, p.unavail)
  ({ errors := 0, bits := 0, loss := false, line, unavail }, leaving)

/-- Count a settled second in its bin, near end or far end. -/
def PmBin.settle (b : PmBin) (far : Bool) (s : PmSecond) : PmBin :=
  let u := b2n s.uas
  let e := if s.uas then 0 else b2n s.es
  let v := if s.uas then 0 else b2n s.ses
  if far then { b with uasFe := b.uasFe + u, esFe := b.esFe + e, sesFe := b.sesFe + v }
  else { b with uas := b.uas + u, es := b.es + e, ses := b.ses + v }

/-- Count a settled second wherever its bin stands. -/
def PmEntity.settle (e : PmEntity) (far : Bool) (s : Option PmSecond) : PmEntity :=
  match s with
  | none => e
  | some s =>
    let f (b : PmBin) : PmBin := if b.start = s.bin then b.settle far s else b
    { e with open_ := e.open_.map f, closing := e.closing.map f }

/-- A new bin at boundary `c`. -/
def PmBin.new (c tod steps : Nat) (valid : Bool) : PmBin :=
  { start := c, startSec := if valid then tod else 0, seconds := 0, es := 0, ses := 0, uas := 0, esFe := 0, sesFe := 0, uasFe := 0,
    suspect := !valid, steps, ended := none }

/-- Does the open bin end at this PM-second boundary (R327)? -/
def PmBin.ends (b : PmBin) (len tod : Nat) (valid : Bool) : Bool :=
  if valid then
    let s := if b.startSec = 0 then tod - b.seconds else b.startSec
    decide ((s / len + 1) * len ≤ tod)
  else decide (len ≤ b.seconds)

/-- The end of a PM second at boundary `c` for one entity. A second that ends with no bin open belongs to none: no bin starts at `c` + 1. -/
def PmEntity.endSecond (e : PmEntity) (nearOn farOn : Bool) (sesExp c tod steps : Nat) (valid : Bool) : PmEntity :=
  let bin := e.open_.elim (c + 1) (fun b => b.start)
  let n := e.near.endSecond false nearOn sesExp bin
  let f := e.far.endSecond true farOn sesExp bin
  let e := ({ e with near := n.1, far := f.1 }.settle false n.2).settle true f.2
  let old := e.closing.filter (fun b => b.ended.elim false (fun x => decide (x + 80000 ≤ c)))
  let e := { e with closing := e.closing.filter (fun b => !b.ended.elim false (fun x => decide (x + 80000 ≤ c))),
                    closed := (old.reverse ++ e.closed).take e.kept }
  match e.open_ with
  | none => { e with open_ := some (PmBin.new c tod steps valid) }
  | some b =>
    let b := { b with seconds := b.seconds + 1, suspect := b.suspect || !valid || b.steps != steps }
    if b.ends e.binLen tod valid then
      let b := { b with ended := some c, suspect := b.suspect || b.seconds != e.binLen }
      { e with open_ := some (PmBin.new c tod steps valid), closing := e.closing ++ [b] }
    else { e with open_ := some b }

/-- Time of day in seconds (R71) at the latch of this boundary. -/
def Dev.todSec (d : Dev) : Nat := secOf d.time.latched

/-- The PM second of one tree and its terminals ends. -/
def Dev.pmTree (d : Dev) (t : Nat) : Dev :=
  let l := d.line t
  let e := l.thr.sesExp
  let tod := d.todSec
  let ok := d.time.todValid
  let d := d.modLine t (fun l => { l with pm := l.pm.endSecond true false e d.now tod d.time.steps ok })
  (d.tree t).terms.foldl (fun d x =>
    match x.id with
    | none => d
    | some id =>
      let on := x.state.evaluated || decide (x.state = .lost)
      d.modTermLine t id (fun l => { l with pm := l.pm.endSecond on on e d.now tod d.time.steps ok })) d

/-- PM_SECOND_END (R325): at a boundary with C mod 8,000 = 0, on every attached tree. -/
def pmSecondEnd (d : Dev) : Dev :=
  if d.now % 8000 ≠ 0 then d
  else ((tkeys d.trees).filter (fun t => d.treeUp t)).foldl (fun d t => d.pmTree t) d
def execPmSecondEnd (s : State) : Host.Outcome State Fault Refusal := s.onDev pmSecondEnd

/-! ### PM_READ (R328, R329) -/

/-- The entity a request names; none for a detached tree or an unlisted terminal. -/
def Dev.pmEntity (d : Dev) (terminal : Bool) (t id : Nat) : Option PmEntity :=
  if !d.treeUp t then none
  else if terminal then
    if ((d.tree t).byId id).isSome then some (d.termLine t id).pm else none
  else some (d.line t).pm

/-- DEFECTS of R323: a terminal's also shows those of its tree. -/
def Dev.defectsOf (d : Dev) (terminal : Bool) (t id : Nat) : Nat :=
  (d.line t).defects + (if terminal then (d.termLine t id).defects else 0)

/-- A bin record. -/
def PmBin.bytes (b : PmBin) (isOpen : Bool) : Bytes :=
  fromResp b.start ++ le 8 b.startSec ++ le 4 b.seconds ++ le 4 (b2n isOpen + 2 * b2n b.suspect) ++ le 4 b.es ++ le 4 b.ses ++
    le 4 b.uas ++ le 4 b.esFe ++ le 4 b.sesFe ++ le 4 b.uasFe

/-- The records from FIRST on, at most COUNT: index 0 is the open bin. -/
def PmEntity.records (e : PmEntity) (first count : Nat) : List Bytes :=
  let all : List (Option Bytes) := e.open_.map (fun b => b.bytes true) :: e.closed.map (fun b => some (b.bytes false))
  ((all.drop first).take count).filterMap (fun x => x)

/-- PM_READ READ. A SCOPE other than 0 tree and 1 terminal is out of range. -/
def pmRead (r : PmReadReq) (ref : CmdRef) (d : Dev) : Dev :=
  let terminal := r.scope == 1
  match (if 1 < r.scope then none else d.pmEntity terminal r.tree r.id) with
  | none => d.complete ref .invalid
  | some e =>
    if r.count = 0 ∨ 8 < r.count then d.complete ref .invalid
    else
      let rs := e.records r.first r.count
      d.complete ref .ok (le 1 rs.length ++ le 1 (b2n e.dayBins) ++ le 2 0 ++ le 2 (d.defectsOf terminal r.tree r.id) ++ le 2 0 ++ rs.flatten)
def execPmReadRead (ctx : Nat) (r : PmReadReq) (s : State) : Host.Outcome State Fault Refusal :=
  s.onDev (·.mailbox ctx 0x0D04 (pmRead r))

/-- Thresholds within their ranges (R319). -/
def thrOf (v : Nat × Nat × Nat × Nat × Nat) : Thresholds :=
  { sdExp := v.1, sfExp := v.2.1, setBlocks := v.2.2.1, clearBlocks := v.2.2.2.1, sesExp := v.2.2.2.2 }
def Thresholds.valid (x : Thresholds) : Bool :=
  decide (5 ≤ x.sdExp) && decide (x.sdExp ≤ 9) && decide (3 ≤ x.sfExp) && decide (x.sfExp ≤ 5) && decide (x.sfExp < x.sdExp) &&
    decide (1 ≤ x.setBlocks) && decide (x.setBlocks ≤ 20) && decide (1 ≤ x.clearBlocks) && decide (x.clearBlocks ≤ 120) &&
    decide (2 ≤ x.sesExp) && decide (x.sesExp ≤ 4)

/-- A change of bin length discards the bins. -/
def PmEntity.setDay (e : PmEntity) (day : Bool) : PmEntity :=
  if e.dayBins = day then e else { e with dayBins := day, open_ := none, closing := [], closed := [] }

/-- PM_READ CONFIG: thresholds belong to a tree, and a request for a terminal has no use for them (R7, R328). -/
def pmConfig (r : PmConfigReq) (ref : CmdRef) (d : Dev) : Dev :=
  let terminal := r.scope == 1
  match (if 1 < r.scope then none else d.pmEntity terminal r.tree r.id) with
  | none => d.complete ref .invalid
  | some _ =>
    let thr := if terminal then none else r.thresholds.map thrOf
    if thr.elim false (fun x => !x.valid) then d.complete ref .invalid
    else
      let d := if terminal then d.modTermLine r.tree r.id (fun l => { l with pm := l.pm.setDay r.dayBins })
               else d.modLine r.tree (fun l => { l with pm := l.pm.setDay r.dayBins, thrPend := if thr.isSome then thr else l.thrPend })
      d.complete ref .ok
def execPmReadConfig (ctx : Nat) (r : PmConfigReq) (s : State) : Host.Outcome State Fault Refusal :=
  s.onDev (·.mailbox ctx 0x0D04 (pmConfig r))

end Sys2Proof.Machine
end

