-- ==== Sys2Proof/Machine/Security.lean ====
section
/-!
DEFINITION. Encryption, keys and tamper response (chapter 15): the upstream cipher, installs, rekeys and their erasures, tamper sources and actions,
lifecycle, signed commands and debug states.
-/
namespace Sys2Proof.Machine

/-! ### The upstream cipher (R366) -/

/-- Where the plaintext of a parcel body begins: behind the twin tag (R79). -/
def CipherUnit.tag (u : CipherUnit) : Option Nat := if u.twin then some (beAt u.body 0 4) else none

/-- What the cipher makes of a unit under a slot: the frame, where the tag verifies. -/
def CipherUnit.open_ (u : CipherUnit) (k : KeySlot) : Option Bytes :=
  let head := if u.twin then 4 else 0
  let n := u.body.length - head - 16
  if u.body.length < head + 16 then none
  else
    gcmOpen k.key.toNat (k.iv 0 u.cycle u.ctr) (parcelAad u.flow u.body.length u.tag true false) ((u.body.drop head).take n)
      (BitVec.ofNat 128 (ofBE (u.body.drop (head + n))))

/-- The verdict on one unit: released, or zeroised and counted. -/
def Dev.verify (d : Dev) (u : CipherUnit) : Dev :=
  let g := globalIndex u.tree u.tid
  match slotOf (d.keys g).up u.kp with
  | none => d.count 3 .saNoKey (2 * g + 1)
  | some k =>
    match u.open_ k with
    | some frame =>
      { d with sec := { d.sec with released := d.sec.released ++ [{ tree := u.tree, tid := u.tid, flow := u.flow, twinTag := u.tag, frame }] } }
    | none => (d.count 3 .saTagFail (2 * g + 1)).raiseFirst 0x2C4 (le 2 (2 * g + 1)) 0 g

/-- The held unit of the tree pipelines that entered first, with its pipeline and half. -/
def Security.oldest (s : Security) : Option (Nat × Bool × HeldUnit) :=
  let l := (treePipes.zip s.pipes).flatMap (fun e =>
    (e.2.halfA.map (fun h => (e.1, false, h))).toList ++ (e.2.halfB.map (fun h => (e.1, true, h))).toList)
  (sortBy (fun a b => decide (a.2.2.seq ≤ b.2.2.seq)) l).head?

/-- Free one half of a pipeline. -/
def Security.freeHalf (s : Security) (k : Nat) (b : Bool) : Security :=
  { s with pipes := lmod s.pipes k CipherPipe.reset (fun p => if b then { p with halfB := none } else { p with halfA := none }) }

/-- CIPHER_TAG_VERIFY (R366): the parcel that entered first gets its verdict, its half is free, and the next unit at the group's input enters it. -/
def cipherTagVerify (d : Dev) : Dev :=
  if d.gated then d else
  match d.sec.oldest with
  | none => d
  | some (k, b, h) =>
    let d := ({ d with sec := d.sec.freeHalf k b }).verify h.u
    { d with sec := d.sec.enterAll }
def execCipherTagVerify (s : State) : Host.Outcome State Fault Refusal := s.onDev cipherTagVerify

/-! ### Lifecycle, debug and erasure (R377 to R381) -/

/-- Change the debug state, or the end of its window; DEBUG reports a change of state (R389). -/
def Dev.setDebug (d : Dev) (s : DebugState) : Dev :=
  let e := { d with sec := { d.sec with debug := s }, dbg := (if s = .closed then { d.dbg with scanDriven := none } else d.dbg) }
  if DebugState.code d.sec.debug = s.code then e else e.raise 0x2C3 (le 1 s.code)

/-- Is a combination of lifecycle and debug state defined (R381)? -/
def debugAllowed (l : Lifecycle) (s : DebugState) : Bool :=
  match s with
  | .closed => true
  | .challengeOpen _ => decide (l = .secured)
  | .opened => decide (l = .manufacture ∨ l = .provisioned ∨ l = .decommissioned)

/-- Change the lifecycle; a combination that cannot occur closes debug. -/
def Dev.setLifecycle (d : Dev) (l : Lifecycle) : Dev :=
  if d.sec.lifecycle = l then d
  else
    let d := ({ d with sec := { d.sec with lifecycle := l } }).raise 0x2C2 (le 1 l.code)
    if debugAllowed l d.sec.debug then d else d.setDebug .closed

/-- A mass rekey (R374). -/
def HeavyOp.isMass : HeavyOp → Bool
  | .massRekey _ => true
  | _ => false

/-- Zeroise every session key, TK, SAK, those mirrored to a standby port, the fabric key, the owner key and every hold buffer (R377). Rekeys in progress and mass rekeys end, and Towpath objects
in flight are voided. -/
def Dev.zeroise (d : Dev) : Dev :=
  let refs := d.sec.keys.filterMap (fun e => e.2.rekey.bind (·.ref)) ++ d.sec.mass.map (·.ref) ++ d.sec.rekeyPend.filterMap (·.1)
  let d := (d.tow.bulk.filter (fun b => !b.void && !b.complete)).foldl (fun d b => d.voidObject b 3) d
  let d := (tkeys d.trees).foldl (fun d t => d.modTree t (fun x => x.withdraw (fun m => m.typ == 0x40))) d
  let ports := tmap d.prot.ports (fun _ (p : Port) => { p with mirror := p.mirror.map (fun m => { m with keys := [] }) })
  let d := { d with prot := { d.prot with ports } }
  let d := d.endOp HeavyOp.isMass
  let d := { d with sluice := { d.sluice with fifo := d.sluice.fifo.filter (fun r => !r.op.isMass) } }
  let d := { d with sec := { d.sec with
    keys := [], macsec := [], txActive := [], fabricKey := none, pipes := List.replicate 24 CipherPipe.reset, cipherIn := [], released := [], mass := [], rekeyPend := [],
    vbat := { d.sec.vbat with ownerKey := none } } }
  refs.foldl (fun d r => d.complete r .tampered) d

/-- The stronger of two actions. -/
def TamperAction.max (a b : TamperAction) : TamperAction := if a.code < b.code then b else a

/-- The action a source takes now (R377, R381). -/
def Dev.tamperAction (d : Dev) (source : Nat) : TamperAction :=
  if d.sec.lifecycle = .secured ∨ d.sec.lifecycle = .alarmed then lget d.sec.actions source .log else .log

/-- TAMPER_DETECT: sources that fire in one clock; the strongest action applies once. With main power off only MESH and TAMPER_N are watched, and
the VBAT domain keeps the log (`seconds` since main power went off). -/
def tamperDetect (sources : List Nat) (seconds : Nat) (d : Dev) : Dev :=
  if d.dev.power = .offVbat then
    let ss := sources.filter (fun x => x == 0 || x == 4)
    let act := ss.foldl (fun a x => a.max (d.tamperAction x)) TamperAction.log
    let v := d.sec.vbat
    let v := { v with log := (v.log ++ ss.map (fun x => (x, seconds))).take 16, alarmed := v.alarmed || decide (act ≠ .log),
                      ownerKey := if act = .erase then none else v.ownerKey }
    { d with sec := { d.sec with vbat := v } }
  else
    let ss := sources.filter (fun x => decide (x ≤ 5))
    let act := ss.foldl (fun a x => a.max (d.tamperAction x)) TamperAction.log
    let eraser := (ss.find? (fun x => (d.tamperAction x).code == 2)).getD 0
    let d := ss.foldl (fun d x => d.raise 0x2C0 (le 1 x ++ le 1 (d.tamperAction x).code)) d
    -- records of one clock go in ascending SOURCE (R447)
    let d := if act = .erase then d.raise 0x2C1 (le 1 eraser) else d
    let d := if act = .log then d
      else ({ d with sec := { d.sec with flashAlarmed := true, vbat := { d.sec.vbat with alarmed := true } } }).setLifecycle .alarmed
    if act = .erase then d.zeroise else d
def execTamperDetect (sources : List Nat) (seconds : Nat) (s : State) : Host.Outcome State Fault Refusal :=
  s.onDev (tamperDetect sources seconds)

/-- VBAT_FALL (R378): the owner key, where there is one, is lost while main power is off. -/
def vbatFall (d : Dev) : Dev :=
  if d.dev.power = .offVbat ∧ d.sec.vbat.ownerKey.isSome then { d with sec := { d.sec with vbat := { d.sec.vbat with ownerKey := none, keyLost := true } } } else d
def execVbatFall (s : State) : Host.Outcome State Fault Refusal := s.onDev vbatFall

/-! ### Signed commands (R382) -/

/-- Check an authorisation block; the challenge is used up. -/
def Dev.authOk (d : Dev) (opcode : Nat) (req : Bytes) (a : AuthBlock) : Bool × Dev :=
  let ok := match d.sec.challenge, d.sec.authHash with
    | some (c, until_), some h =>
      decide (d.now < until_) && Config.sha384 a.pubkey == h &&
        Config.ecdsaVerify (ofBE a.pubkey) (le 32 c ++ le 8 d.dev.unitId ++ le 2 opcode ++ req) a.sig
    | _, _ => false
  (ok, { d with sec := { d.sec with challenge := none } })

/-! ### SA_INSTALL (R383) -/

/-- Request bytes 0 to 47. -/
def saHead (r : SaInstallReq) : Bytes :=
  le 1 r.kind ++ le 1 r.unit_ ++ le 1 r.index ++ le 1 (b2n r.tx + 2 * b2n r.test + 16 * r.sub) ++ le 4 0 ++ le 8 r.sci ++ le 4 r.ssci ++
    le 1 r.an ++ le 1 r.confOffset ++ le 2 0 ++ le 4 r.replay ++ be 12 r.salt ++ le 8 r.nextPn

/-- Fields in range, those that the KIND and direction use (R7); a TK only for a terminal listed with the id (R371). -/
def Dev.installOk (d : Dev) (r : SaInstallReq) : Bool :=
  match r.kind with
  | 0 => d.treePresent r.unit_ && ((d.tree r.unit_).byId r.index).isSome
  | 1 => decide (r.unit_ < d.uplinkCount) && decide (r.index < 64) && decide (r.sub < 4) && decide (r.an < 4) &&
      [0, 30, 50].contains r.confOffset && (r.tx || decide (r.replay ≤ 2 ^ 30)) && decide (1 ≤ r.nextPn) && decide (r.nextPn < 2 ^ 64 - 1)
  | 2 => true
  | _ => false

/-- The next PN at which a transmit SA raises MACSEC_PN (R368). -/
def pnMark : Nat := 0xC000000000000000

/-- Store an unwrapped key. A transmit SA becomes the one in force where its port has none. A new fabric key erases the one before it, which
voids the objects in flight, and every sender counts its objects from 0 again (R367). -/
def Dev.installKey (d : Dev) (r : SaInstallReq) (key : BitVec 256) : Dev :=
  match r.kind with
  | 0 => d.modKeys (globalIndex r.unit_ r.index) (fun k => { k with tk := some key })
  | 1 =>
    let sa : MacsecSa :=
      { key, tx := r.tx, sub := r.sub, sci := r.sci, ssci := r.ssci, an := r.an, confOffset := r.confOffset, replay := r.replay,
        salt := r.salt, nextPn := r.nextPn, low := r.nextPn, stopped := false, installed := d.now }
    let port := r.unit_ * 4 + r.sub
    let act := if r.tx ∧ (tget d.sec.txActive port).isNone then tset d.sec.txActive port r.index else d.sec.txActive
    let ports := if d.sec.macsecPorts.contains port then d.sec.macsecPorts else d.sec.macsecPorts ++ [port]
    let d := { d with sec := { d.sec with macsec := tset d.sec.macsec (r.unit_ * 64 + r.index) sa, txActive := act, macsecPorts := ports } }
    -- a next PN that is past the mark already has reached it (R368)
    if r.tx ∧ pnMark ≤ r.nextPn then d.raise 0x2CA (le 1 port ++ le 1 r.index) else d
  | _ =>
    let d := (d.tow.bulk.filter (fun b => !b.void && !b.complete)).foldl (fun d b => d.voidObject b 3) d
    { d with sec := { d.sec with fabricKey := some key, fabricSalt := r.salt / 2 ^ 64, object := 0 }, tow := { d.tow with bulk := [] } }

def saInstall (r : SaInstallReq) (ref : CmdRef) (d : Dev) : Dev :=
  if !d.installOk r then d.complete ref .invalid
  else if r.test ∧ d.sec.lifecycle ≠ .manufacture then d.complete ref .denied
  else if d.sec.lifecycle = .alarmed ∨ d.sec.lifecycle = .decommissioned then d.complete ref .tampered
  else
    let key : Option Bytes :=
      if r.test then some r.cipher
      else d.sec.vbat.ownerKey.bind (fun k => gcmOpen k.toNat r.iv (saHead r) r.cipher r.tag)
    let d := if r.test then d else d.cipherUse 2 8 80 (d.clk 0) true
    match key with
    | none => d.complete ref .invalid
    | some k => (d.installKey r (BitVec.ofNat 256 (ofBE k))).complete ref .ok
def execSaInstall (ctx : Nat) (r : SaInstallReq) (s : State) : Host.Outcome State Fault Refusal :=
  s.onDev (·.mailbox ctx 0x0701 (saInstall r))

/-! ### SA_REKEY (R372, R374, R384) -/

/-- A terminal has session keys. -/
def Dev.keyed (d : Dev) (t id : Nat) : Bool := (d.keys (globalIndex t id)).firstX.isSome

/-- A rekey of a terminal runs or waits. -/
def Dev.rekeying (d : Dev) (t id : Nat) : Bool :=
  (d.keys (globalIndex t id)).rekey.isSome || d.sec.rekeyPend.any (fun p => p.2 == (t, id))

/-- SA_REKEY SCOPE 0: the rekey begins at the next boundary. -/
def rekeyTerminal (t id : Nat) (ref : CmdRef) (d : Dev) : Dev :=
  if d.sec.lifecycle = .alarmed then d.complete ref .tampered
  else if !d.treeUp t ∨ !d.keyed t id then d.complete ref .invalid
  else if d.rekeying t id then d.complete ref .busy
  else { d with sec := { d.sec with rekeyPend := d.sec.rekeyPend ++ [(some ref, t, id)] } }
def execSaRekeyTerminal (ctx tree id : Nat) (s : State) : Host.Outcome State Fault Refusal :=
  s.onDev (·.mailbox ctx 0x0702 (rekeyTerminal tree id))

/-- The keyed terminals in the scope of a mass rekey: 1 a tree, 2 the device. -/
def Dev.inScope (d : Dev) (scope unit_ : Nat) : List (Nat × Nat) :=
  ((tkeys d.trees).filter (fun t => d.treeUp t && (scope == 2 || t == unit_))).flatMap (fun t =>
    (d.tree t).terms.filterMap (fun x => x.id.bind (fun id => if d.keyed t id then some (t, id) else none)))

/-- SA_REKEY SCOPE 1 and 2: the mass rekey is put to Sluice. -/
def massRekey (scope unit_ : Nat) (ref : CmdRef) (d : Dev) : Dev :=
  if d.sec.lifecycle = .alarmed then d.complete ref .tampered
  else if scope = 1 ∧ !d.treeUp unit_ then d.complete ref .invalid
  else if (d.inScope scope unit_).any (fun p => d.rekeying p.1 p.2) then d.complete ref .busy
  else
    let job := d.sec.nextJob
    let r := d.request (.massRekey job) ref.ctx (some ref)
    if r.2 then
      { r.1 with sec := { r.1.sec with nextJob := job + 1, mass := r.1.sec.mass ++ [{ job, scope, unit_, ref, x := none }] } }
    else r.1.complete ref .notAdmitted
def execSaRekeyTree (ctx tree : Nat) (s : State) : Host.Outcome State Fault Refusal := s.onDev (·.mailbox ctx 0x0702 (massRekey 1 tree))
def execSaRekeyDevice (ctx : Nat) (s : State) : Host.Outcome State Fault Refusal := s.onDev (·.mailbox ctx 0x0702 (massRekey 2 0))

/-- A mass rekey is admitted at boundary X: every terminal in its scope is rekeyed; a dozing one wakes first. -/
def Dev.admitMass (d : Dev) (job : Nat) : Dev :=
  match d.sec.mass.find? (fun m => m.job == job) with
  | none => d
  | some m =>
    let l := (d.inScope m.scope m.unit_).filter (fun p => !d.rekeying p.1 p.2)
    { d with sec := { d.sec with
      mass := d.sec.mass.map (fun x => if x.job = job then { x with x := some d.now } else x),
      rekeyPend := d.sec.rekeyPend ++ l.map (fun p => (none, p.1, p.2)) } }

/-- DOZE_END for the next wake (R135): sent in frame wake − 4, or for the next wake where that frame has gone. -/
def Dev.endDoze (d : Dev) (t : Nat) (x : Term) : Dev :=
  match x.doze with
  | none => d
  | some z =>
    if !x.dozes d.now ∨ z.endAt.isSome ∨ z.goneFrom.isSome then d
    else
      let w := (d.tree t).wakeToName z d.nextFrame
      (d.modTerm t x.serial (fun y => { y with doze := some { z with endAt := some w } })).modTree t (fun y =>
        y.queueMsg (lockMsg (x.id.getD 0) 0x17 2 [] (some w) [] .wake .dozeEnd x.serial (w - 4)))

/-- The waiting rekeys begin at a boundary; one of a dozing terminal first ends its doze (R372). -/
def Dev.rekeysBoundary (d : Dev) : Dev :=
  let pend := d.sec.rekeyPend
  pend.foldl (fun d p =>
    let t := p.2.1
    let id := p.2.2
    match (d.tree t).byId id with
    | none => d.completeOpt p.1 .denied
    | some x =>
      if x.state = .dozing then
        (d.endDoze t x) |> fun d => { d with sec := { d.sec with rekeyPend := d.sec.rekeyPend ++ [p] } }
      else if !d.keyed t id then d.completeOpt p.1 .denied
      else d.startRekey t id p.1) { d with sec := { d.sec with rekeyPend := [] } }

/-- Mass rekeys whose last erasure is done complete (R384). -/
def Dev.massDue (d : Dev) : Dev :=
  d.sec.mass.foldl (fun d m =>
    match m.x with
    | none => d
    | some x =>
      if (d.inScope m.scope m.unit_).any (fun p => d.rekeying p.1 p.2) then d
      else
        let d := { d with sec := { d.sec with mass := d.sec.mass.filter (fun k => k.job != m.job) } }
        let d := d.endOp (fun o => o = .massRekey m.job)
        (d.raise 0x2C6 (le 1 m.scope ++ le 6 d.now)).complete m.ref .ok (fromResp x ++ fromResp d.now)) d

/-- REKEY_ERASE (R372): the erasures of one terminal's rekey that are due. -/
def execRekeyErase (tree id : Nat) (s : State) : Host.Outcome State Fault Refusal := s.onDev (fun d => (d.rekeyDue tree id).massDue)

/-- SA_REKEY SCOPE 3: from the next boundary. -/
def txSwitch (u sa : Nat) (ref : CmdRef) (d : Dev) : Dev :=
  if d.sec.lifecycle = .alarmed then d.complete ref .tampered
  else if (tget d.sec.macsec (u * 64 + sa)).elim true (fun x => !x.tx) ∨ 63 < sa ∨ d.uplinkCount ≤ u then d.complete ref .invalid
  else { d with sec := { d.sec with txPend := d.sec.txPend ++ [(ref, u, sa)] } }
def execSaRekeyTxSwitch (ctx uplink sa : Nat) (s : State) : Host.Outcome State Fault Refusal :=
  s.onDev (·.mailbox ctx 0x0702 (txSwitch uplink sa))

/-- The transmit switches at a boundary. -/
def Dev.txBoundary (d : Dev) : Dev :=
  d.sec.txPend.foldl (fun d p =>
    match tget d.sec.macsec (p.2.1 * 64 + p.2.2) with
    | none => d.complete p.1 .invalid
    | some sa =>
      (({ d with sec := { d.sec with txActive := tset d.sec.txActive (p.2.1 * 4 + sa.sub) p.2.2 } }).raise 0x2C6 (le 1 3 ++ le 6 d.now)).complete p.1 .ok
        (fromResp d.now ++ fromResp d.now)) { d with sec := { d.sec with txPend := [] } }

/-- SA_REKEY SCOPE 4. -/
def saDelete (u sa : Nat) (ref : CmdRef) (d : Dev) : Dev :=
  if d.sec.lifecycle = .alarmed then d.complete ref .tampered
  else
    match (if 63 < sa ∨ d.uplinkCount ≤ u then none else tget d.sec.macsec (u * 64 + sa)) with
    | none => d.complete ref .invalid
    | some x =>
      let port := u * 4 + x.sub
      let act := if tget d.sec.txActive port = some sa then tdel d.sec.txActive port else d.sec.txActive
      let macsec := tdel d.sec.macsec (u * 64 + sa)
      let left := macsec.any (fun e => e.1 / 64 == u && e.2.sub == x.sub)
      let ports := if left then d.sec.macsecPorts else d.sec.macsecPorts.filter (· != port)
      (({ d with sec := { d.sec with macsec, txActive := act, macsecPorts := ports } }).raise 0x2C6 (le 1 4 ++ le 6 d.now)).complete ref .ok
        (fromResp d.now ++ fromResp d.now)
def execSaRekeySaDelete (ctx uplink sa : Nat) (s : State) : Host.Outcome State Fault Refusal :=
  s.onDev (·.mailbox ctx 0x0702 (saDelete uplink sa))

/-! ### SA_STATUS (R385) -/

/-- A live counter. -/
def Dev.counter (d : Dev) (g : Nat) (st : Stat) (inst : Nat) : Nat := tgetD d.ctr.live (ctrKey g st.code inst) 0

def saStatus (kind unit_ index : Nat) (ref : CmdRef) (d : Dev) : Dev :=
  match kind with
  | 0 =>
    if !d.treePresent unit_ ∨ 255 < index then d.complete ref .invalid
    else
      let g := globalIndex unit_ index
      let k := d.keys g
      let state := if k.stopped.isSome then 4 else if k.rekey.isSome then 3 else if k.firstX.isSome then 2 else if k.tk.isSome then 1 else 0
      d.complete ref .ok (le 1 state ++ le 1 (b2n k.downPhase) ++ le 1 (b2n (d.kp unit_)) ++ zeros 5 ++
        fromResp ((slotOf k.down k.downPhase).elim 0 (fun s => s.kc d.now)) ++ le 4 (d.counter 3 .saTagFail (2 * g + 1)) ++
        le 4 (d.counter 3 .saStopDrop (2 * g)) ++ fromResp k.lastRekey)
  | 1 =>
    if d.uplinkCount ≤ unit_ ∨ 63 < index then d.complete ref .invalid
    else
      let i := unit_ * 64 + index
      let state := match tget d.sec.macsec i with
        | none => 0
        | some x => if x.stopped then 3 else if x.tx then 2 else 1
      let x := tget d.sec.macsec i
      d.complete ref .ok (le 1 state ++ le 1 (x.elim 0 (·.an)) ++ zeros 6 ++ le 8 (x.elim 0 (fun y => if y.tx then y.nextPn else y.low)) ++
        le 4 (d.counter 14 .macsecTag i) ++ le 4 (d.counter 14 .macsecReplay i) ++ fromResp (x.elim 0 (·.installed)))
  | _ => d.complete ref .invalid
def execSaStatus (ctx kind unit_ index : Nat) (s : State) : Host.Outcome State Fault Refusal :=
  s.onDev (·.mailbox ctx 0x0703 (saStatus kind unit_ index))

/-! ### TAMPER_POLICY (R386) -/

def actionOf (n : Nat) : TamperAction := if n = 2 then .erase else if n = 1 then .alarm else .log

def tamperSet (r : TamperSetReq) (ref : CmdRef) (d : Dev) : Dev :=
  if 5 < r.source ∨ 2 < r.action ∨ r.failLimit = 0 ∨ 15 < r.failLimit then d.complete ref .invalid
  else if d.sec.lifecycle = .alarmed then d.complete ref .tampered
  else
    let weaker := decide (r.action < (lget d.sec.actions r.source .log).code) || decide (d.sec.failLimit < r.failLimit)
    let req := le 1 0 ++ le 1 r.source ++ le 1 r.action ++ le 1 r.failLimit ++ zeros 28
    let apply (d : Dev) : Dev :=
      ({ d with sec := { d.sec with actions := lset d.sec.actions r.source (actionOf r.action), failLimit := r.failLimit } }).complete ref .ok
    if d.sec.lifecycle = .secured ∧ weaker then
      match r.auth with
      | none => d.complete ref .denied
      | some a =>
        let c := d.authOk 0x0704 req a
        if c.1 then apply c.2 else c.2.complete ref .denied
    else apply d
def execTamperPolicySet (ctx : Nat) (r : TamperSetReq) (s : State) : Host.Outcome State Fault Refusal :=
  s.onDev (·.mailbox ctx 0x0704 (tamperSet r))

def execTamperPolicyRead (ctx : Nat) (s : State) : Host.Outcome State Fault Refusal :=
  s.onDev (·.mailbox ctx 0x0704 (fun ref d =>
    d.complete ref .ok (d.sec.actions.flatMap (fun a => le 1 a.code) ++ le 1 d.sec.failLimit)))

/-- READ_LOG: COUNT and 16 entries of SOURCE and SECONDS. -/
def tamperLog (v : Vbat) : Bytes :=
  fit 136 (le 1 v.log.length ++ zeros 7 ++ v.log.flatMap (fun e => le 1 e.1 ++ zeros 3 ++ le 4 e.2))
def execTamperPolicyReadLog (ctx : Nat) (s : State) : Host.Outcome State Fault Refusal :=
  s.onDev (·.mailbox ctx 0x0704 (fun ref d => d.complete ref .ok (tamperLog d.sec.vbat)))

/-! ### LIFECYCLE_ADVANCE (R379, R387) -/

/-- The request bytes before the block. -/
def lcHead (r : LifecycleReq) (op : Nat) : Bytes :=
  le 1 op ++ le 1 (b2n r.clear) ++ zeros 14 ++ be 48 r.authHash.toNat ++ fit 32 r.ownerKey

/-- The new owner key of a request: in clear only where the old one is gone, else unwrapped under it. -/
def Dev.newOwnerKey (d : Dev) (r : LifecycleReq) : Option (BitVec 256) :=
  match d.sec.vbat.ownerKey with
  | none => if r.clear then some (BitVec.ofNat 256 (ofBE r.ownerKey)) else none
  | some k => if r.clear then none else (Config.keyUnwrap k.toNat r.ownerKey).map (fun b => BitVec.ofNat 256 (ofBE b))

/-- Store an owner key. -/
def Dev.setOwner (d : Dev) (k : BitVec 256) : Dev :=
  { d with sec := { d.sec with vbat := { d.sec.vbat with ownerKey := some k, keyLost := false } } }

/-- The transition is done: the response is the new state. -/
def Dev.advanced (d : Dev) (ref : CmdRef) (l : Lifecycle) : Dev :=
  let d := d.setLifecycle l
  d.complete ref .ok (le 1 l.code)

/-- A transition that needs a signature. -/
def Dev.signedAdvance (d : Dev) (ref : CmdRef) (op : Nat) (r : LifecycleReq) (go : Dev → Dev) : Dev :=
  let c := d.authOk 0x0705 (lcHead r op) r.auth
  if c.1 then go c.2 else c.2.complete ref .denied

def lifecycleProvision (r : LifecycleReq) (ref : CmdRef) (d : Dev) : Dev :=
  if d.sec.lifecycle ≠ .manufacture ∨ !r.clear then d.complete ref .denied
  else
    (({ d with sec := { d.sec with authHash := some r.authHash } }).setOwner (BitVec.ofNat 256 (ofBE r.ownerKey))).advanced ref .provisioned
def execLifecycleProvision (ctx : Nat) (r : LifecycleReq) (s : State) : Host.Outcome State Fault Refusal :=
  s.onDev (·.mailbox ctx 0x0705 (lifecycleProvision r))

def lifecycleSecure (r : LifecycleReq) (ref : CmdRef) (d : Dev) : Dev :=
  if d.sec.lifecycle ≠ .provisioned then d.complete ref .denied
  else d.signedAdvance ref 1 r (fun d => (d.setDebug .closed).advanced ref .secured)
def execLifecycleSecure (ctx : Nat) (r : LifecycleReq) (s : State) : Host.Outcome State Fault Refusal :=
  s.onDev (·.mailbox ctx 0x0705 (lifecycleSecure r))

/-- CLEAR_ALARM: a new owner key when the old one is gone; the ALARMED records are cleared. -/
def lifecycleClearAlarm (r : LifecycleReq) (ref : CmdRef) (d : Dev) : Dev :=
  if d.sec.lifecycle ≠ .alarmed then d.complete ref .denied
  else
    let gone := d.sec.vbat.ownerKey.isNone
    d.signedAdvance ref 2 r (fun d =>
      if gone ∧ !r.clear then d.complete ref .denied
      else
        let d := if gone then d.setOwner (BitVec.ofNat 256 (ofBE r.ownerKey)) else d
        ({ d with sec := { d.sec with flashAlarmed := false, vbat := { d.sec.vbat with alarmed := false } } }).advanced ref .secured)
def execLifecycleClearAlarm (ctx : Nat) (r : LifecycleReq) (s : State) : Host.Outcome State Fault Refusal :=
  s.onDev (·.mailbox ctx 0x0705 (lifecycleClearAlarm r))

def lifecycleDecommission (r : LifecycleReq) (ref : CmdRef) (d : Dev) : Dev :=
  match d.sec.lifecycle with
  | .decommissioned => d.complete ref .denied
  | .manufacture => d.zeroise.advanced ref .decommissioned
  | _ => d.signedAdvance ref 3 r (fun d => d.zeroise.advanced ref .decommissioned)
def execLifecycleDecommission (ctx : Nat) (r : LifecycleReq) (s : State) : Host.Outcome State Fault Refusal :=
  s.onDev (·.mailbox ctx 0x0705 (lifecycleDecommission r))

def lifecycleRekeyOwner (r : LifecycleReq) (ref : CmdRef) (d : Dev) : Dev :=
  if d.sec.lifecycle ≠ .provisioned ∧ d.sec.lifecycle ≠ .secured then d.complete ref .denied
  else
    d.signedAdvance ref 4 r (fun d =>
      match d.newOwnerKey r with
      | none => d.complete ref .denied
      | some k => (d.setOwner k).complete ref .ok (le 1 d.sec.lifecycle.code))
def execLifecycleRekeyOwner (ctx : Nat) (r : LifecycleReq) (s : State) : Host.Outcome State Fault Refusal :=
  s.onDev (·.mailbox ctx 0x0705 (lifecycleRekeyOwner r))

/-! ### DEBUG_CHALLENGE (R380, R388) -/

def debugIssue (ref : CmdRef) (d : Dev) : Dev :=
  let (v, d) := d.draw
  let c := v % 2 ^ 256
  ({ d with sec := { d.sec with challenge := some (c, d.now + 60 * Config.ticksPerSecond) } }).complete ref .ok (le 32 c ++ le 8 d.dev.unitId)
def execDebugChallengeIssue (ctx : Nat) (s : State) : Host.Outcome State Fault Refusal := s.onDev (·.mailbox ctx 0x0706 debugIssue)

/-- A signed opening for a window in seconds, over the mailbox or DBG_AUTH (R388, R500): whether it opened. A failure counts toward DEBUG_FAIL. -/
def Dev.signedOpen (d : Dev) (window : Nat) (a : AuthBlock) : Bool × Dev :=
  let c := d.authOk 0x0706 (le 1 1 ++ zeros 3 ++ le 4 window ++ zeros 24) a
  let d := c.2
  if c.1 then
    (true, ({ d with sec := { d.sec with fails := 0 } }).setDebug (.challengeOpen (d.now + window * Config.ticksPerSecond)))
  else
    let n := d.sec.fails + 1
    let d := { d with sec := { d.sec with fails := n } }
    (false, if d.sec.failLimit ≤ n then tamperDetect [5] 0 d else d)

def debugOpenSigned (r : DebugOpenReq) (ref : CmdRef) (d : Dev) : Dev :=
  if d.sec.lifecycle ≠ .secured then d.complete ref .denied
  else if r.window = 0 ∨ 86400 < r.window then d.complete ref .invalid
  else
    let c := d.signedOpen r.window r.auth
    if c.1 then c.2.complete ref .ok (le 1 (c.2.sec.debug).code) else c.2.complete ref .denied
def execDebugOpenSigned (ctx : Nat) (r : DebugOpenReq) (s : State) : Host.Outcome State Fault Refusal :=
  s.onDev (·.mailbox ctx 0x0706 (debugOpenSigned r))

def execDebugClose (ctx : Nat) (s : State) : Host.Outcome State Fault Refusal :=
  s.onDev (·.mailbox ctx 0x0706 (fun ref d => (d.setDebug .closed).complete ref .ok (le 1 0)))

def execDebugOpen (ctx : Nat) (s : State) : Host.Outcome State Fault Refusal :=
  s.onDev (·.mailbox ctx 0x0706 (fun ref d =>
    if debugAllowed d.sec.lifecycle .opened then (d.setDebug .opened).complete ref .ok (le 1 2) else d.complete ref .denied))

/-- DEBUG_WINDOW_EXPIRY: CHALLENGE-OPEN lapses after its WINDOW. -/
def debugExpiry (d : Dev) : Dev :=
  match d.sec.debug with
  | .challengeOpen u => if u ≤ d.now then d.setDebug .closed else d
  | _ => d
def execDebugWindowExpiry (s : State) : Host.Outcome State Fault Refusal := s.onDev debugExpiry

/-- DEBUG_STATUS (R513). -/
def debugStatus (ref : CmdRef) (d : Dev) : Dev :=
  let halted := sumOf ((List.range 4).map (fun n => if d.coreHalted n then 2 ^ n else 0))
  let left := match d.sec.debug with
    | .challengeOpen u => (u - d.now) / Config.ticksPerSecond
    | _ => 0
  let tap := d.dev.tckAt.elim false (fun t => decide (d.now < t + Config.ticksPerSecond))
  d.complete ref .ok (le 1 (d.sec.debug).code ++ le 1 d.sec.lifecycle.code ++ le 1 halted ++ le 1 d.sec.fails ++ le 4 left ++
    le 1 (b2n tap) ++ zeros 7)
def execDebugStatus (ctx : Nat) (s : State) : Host.Outcome State Fault Refusal := s.onDev (·.mailbox ctx 0x0E01 debugStatus)

end Sys2Proof.Machine
end

