-- ==== Sys2Proof/Machine/Pool.lean ====
section
/-!
DEFINITION. The buffer pool, queues and Feeder (chapter 07): claims and frees, admission of a frame, placement, spill and refill, flows and the
commands of the pool. Token buckets and histogram units of chapter 08 stand here where a frame is linked.
-/
namespace Sys2Proof.Machine

/-! ### Cells (R176, R177, R180 to R185) -/

/-- Cells of a frame of a length (R177). -/
def cellsOf (len : Nat) : Nat := ceilDiv (len + 16) 256

/-- Reservoir cells (R25, R176): 16 GiB less the recorder ring. -/
def Dev.resvCells (d : Dev) : Nat := (2 ^ 34 - d.recd.set.ring * 2 ^ 20) / 256

/-- The `n` lowest numbers that are not keys of a sorted table. -/
def lowestFree {α : Type} (t : Tbl α) (n : Nat) : List Nat :=
  let rec go : (fuel c n : Nat) → List Nat → List Nat
    | 0, _, _, _ => []
    | _ + 1, _, 0, _ => []
    | f + 1, c, n + 1, ks =>
      match ks with
      | [] => c :: go f (c + 1) n []
      | k :: r => if k = c then go f (c + 1) (n + 1) r else c :: go f (c + 1) n (k :: r)
  go (n + t.length + 1) 0 n (tkeys t)

/-- The level of a count out of `total` cells against the percentages of R183: 0 NORMAL to 3 EMERGENCY. -/
def setLevel (total held : Nat) : Nat :=
  if ceilDiv (90 * total) 100 ≤ held then 3 else if ceilDiv (75 * total) 100 ≤ held then 2 else if ceilDiv (50 * total) 100 ≤ held then 1 else 0
def clearLevel (total held : Nat) : Nat :=
  if ceilDiv (85 * total) 100 ≤ held then 3 else if ceilDiv (70 * total) 100 ≤ held then 2 else if ceilDiv (45 * total) 100 ≤ held then 1 else 0

def poolStateOf (n : Nat) : PoolState := match n with | 0 => .normal | 1 => .notice | 2 => .pressure | _ => .emergency

/-- A state is entered in the clock in which its set level is reached (R183, R185). -/
def Dev.poolUp (d : Dev) : Dev :=
  let b := setLevel Config.basinCells d.pool.basin.length
  let r := setLevel d.resvCells d.pool.resv.length
  let d := if d.pool.basinState.code < b then
      ({ d with pool := { d.pool with basinState := poolStateOf b } }).raise 0x320 (le 1 b) else d
  if d.pool.resvState.code < r then ({ d with pool := { d.pool with resvState := poolStateOf r } }).raise 0x321 (le 1 r) else d

/-- States step down at a boundary (R183, R185). -/
def Dev.poolDown (d : Dev) : Dev :=
  let b := clearLevel Config.basinCells d.pool.basin.length
  let r := clearLevel d.resvCells d.pool.resv.length
  let d := if b < d.pool.basinState.code then
      ({ d with pool := { d.pool with basinState := poolStateOf b } }).raise 0x320 (le 1 b) else d
  if r < d.pool.resvState.code then ({ d with pool := { d.pool with resvState := poolStateOf r } }).raise 0x321 (le 1 r) else d

/-- Cells charged to a requester. -/
def Pool.charged (p : Pool) (r : Nat) : Nat := (p.basin.filter (fun e => e.2 == r)).length

/-- How a chain of claims ends. -/
inductive ClaimEnd where
  | ok | nocell | quota
deriving DecidableEq, Repr

/-- Claim `n` cells one by one (R181, R182, R186): how many were granted, and the end. `held` and `charged` are the counts so far. -/
def claims (level : Nat) (quota : Option Nat) (emergency : Bool) : (n held charged : Nat) → Nat × ClaimEnd
  | 0, _, _ => (0, .ok)
  | n + 1, held, charged =>
    let emerg := emergency || decide (176948 ≤ held)
    if Config.basinCells - held ≤ level then (0, .nocell)
    else if !emerg && quota.elim false (fun q => decide (q ≤ charged)) then (0, .quota)
    else
      let r := claims level quota emerg n (held + 1) (charged + 1)
      (r.1 + 1, r.2)

/-- A cell pointer of basin or reservoir (R176). -/
def basinPtr (c : Nat) : Nat := c * 256
def resvPtr (c : Nat) : Nat := 0x400000000 + c * 256

/-- A basin cell belongs to a frame that more than one copy still shares: no party is its last owner (R188, R190). -/
def Pool.shared (p : Pool) (c : Nat) : Bool := p.frames.any (fun e => decide (1 < e.2.refs) && e.2.cells.contains c)

/-- A free request with the checks of R188. -/
def Dev.freePtr (d : Dev) (p party : Nat) : Dev :=
  let inBasin := decide (p < Config.basinCells * 256)
  let inResv := decide (0x400000000 ≤ p) && decide (p < 0x400000000 + d.resvCells * 256)
  let data := le 5 p ++ le 2 party
  if p % 256 ≠ 0 ∨ !(inBasin || inResv) then (d.countDev .pointerFault).raise 0x325 data
  else
    let c := if inBasin then p / 256 else (p - 0x400000000) / 256
    let held := if inBasin then (tget d.pool.basin c).isSome else (tget d.pool.resv c).isSome
    if inBasin ∧ d.pool.shared c then (d.countDev .ownerFault).raise 0x326 data
    else if !held then (d.countDev .doubleFree).raise 0x324 data
    else if inBasin then { d with pool := { d.pool with basin := tdel d.pool.basin c, basinFree := d.pool.basinFree + 1 } }
    else { d with pool := { d.pool with resv := tdel d.pool.resv c, resvFree := d.pool.resvFree + 1 } }

/-- Hold basin cells, charged to a requester. -/
def Dev.holdBasin (d : Dev) (cs : List Nat) (r : Nat) : Dev :=
  { d with pool := { d.pool with basin := cs.foldl (fun t c => tset t c r) d.pool.basin, basinFree := d.pool.basinFree - cs.length } }

/-- Hold reservoir cells of a queue. -/
def Dev.holdResv (d : Dev) (cs : List Nat) (q : Nat) : Dev :=
  { d with pool := { d.pool with resv := cs.foldl (fun t c => tset t c q) d.pool.resv, resvFree := d.pool.resvFree - cs.length } }

/-- The audit of one region (R189, R202): 0 basin, 1 reservoir; `sum` is held and free cells together, `total` the cell count. -/
def Dev.auditRegion (d : Dev) (region sum total : Nat) : Dev :=
  if sum = total then d else d.raise 0x32A (le 1 region ++ leInt 4 ((sum : Int) - (total : Int)))

/-- The pool audit of a tick (R189): nothing is reclaimed. -/
def Dev.poolAudit (d : Dev) : Dev :=
  let d := d.auditRegion 0 (d.pool.basin.length + d.pool.basinFree) Config.basinCells
  d.auditRegion 1 (d.pool.resv.length + d.pool.resvFree) d.resvCells

/-! ### HBM transaction slots (R26, R30, R31) -/

/-- Slots that requests hold. -/
def Pool.hbmUsed (p : Pool) : Nat := sumOf (p.hbm.map (·.held))

/-- Give free slots to the requests in order, each as many as it still lacks. -/
def hbmGrant : (free : Nat) → List HbmReq → List HbmReq
  | _, [] => []
  | free, r :: t =>
    let k := if r.n - r.held < free then r.n - r.held else free
    { r with held := r.held + k } :: hbmGrant (free - k) t

/-- A ring write of the recorder that holds all its slots is done within its command (log entry 89). -/
def HbmReq.pileDone (r : HbmReq) : Bool := match r.work with | .pile _ => decide (r.n ≤ r.held) | _ => false

/-- Serve the requests: slots go out in order, and what a finished ring write gives back goes to the next ones. -/
def hbmServe : (fuel : Nat) → List HbmReq → List HbmReq
  | 0, l => l
  | f + 1, l =>
    let l := hbmGrant (Config.hbmSlots - sumOf (l.map (·.held))) l
    if l.any (·.pileDone) then hbmServe f (l.filter (fun r => !r.pileDone)) else l

def Dev.setHbm (d : Dev) (l : List HbmReq) : Dev :=
  let l := hbmServe (l.length + 1) l
  { d with pool := { d.pool with hbm := l, hbmFull := d.pool.hbmFull || decide (Config.hbmSlots ≤ sumOf (l.map (·.held))) } }

/-- A request takes its place behind those of earlier clocks and, among those of its own clock that hold no slot, in R9 order of requester index. -/
def hbmInsert (cycle : Nat) (r : HbmReq) (l : List HbmReq) : List HbmReq :=
  let later (x : HbmReq) : Bool :=
    r.asked.isSome && x.asked == r.asked && x.held == 0 && (if cycle % 2 = 0 then decide (r.req < x.req) else decide (x.req < r.req))
  let tail := (l.reverse.takeWhile later).reverse
  l.take (l.length - tail.length) ++ r :: tail

/-- Ask for the HBM transactions of a transfer of `n` cells. -/
def Dev.hbmAsk (d : Dev) (req n : Nat) (asked : Option Nat) (work : HbmWork) : Dev :=
  d.setHbm (hbmInsert d.now { req, n, held := 0, asked, work } d.pool.hbm)

/-- Requests end or are withdrawn: their slots are free. -/
def Dev.hbmEnd (d : Dev) (p : HbmWork → Bool) : Dev := d.setHbm (d.pool.hbm.filter (fun r => !p r.work))

/-- All transactions of a request hold slots, so that it may complete. -/
def Dev.hbmReady (d : Dev) (w : HbmWork) : Bool := d.pool.hbm.any (fun r => r.work == w && decide (r.n ≤ r.held))

/-- A spill write has begun: some of its transactions hold slots. -/
def Dev.hbmBegun (d : Dev) (w : HbmWork) : Bool := d.pool.hbm.any (fun r => r.work == w && decide (0 < r.held))

/-- The request belongs to a queue. -/
def HbmWork.ofQueue (w : HbmWork) (q : Nat) : Bool := match w with | .spill k _ => k == q | .refill k _ => k == q | .pile _ => false

/-- Free basin cells and reservoir cells of a party. -/
def Dev.freeBasin (d : Dev) (cs : List Nat) (party : Nat) : Dev := cs.foldl (fun d c => d.freePtr (basinPtr c) party) d
def Dev.freeResv (d : Dev) (cs : List Nat) : Dev := cs.foldl (fun d c => d.freePtr (resvPtr c) 83) d

/-! ### Queues, profiles and flows -/

def QProfile.reset : QProfile := { maxBytes := 262144, sample := false, basinOnly := false, spillHi := 256, refillLo := 128 }
def Queue.reset : Queue :=
  { basin := [], refill := [], resv := [], profile := 0, quantum := 2048, deficit := 0, credited := false, hist := none, heldGate := false,
    underrun := false }
def Point.reset : Point :=
  { fragBytes := 2048, overhead := 0, starve := 0, last := [0, 0, 0, 0], active := [], idleRun := 0, starveSeen := 0, drrHad := false,
    drrSent := false }
def Bucket.reset : Bucket :=
  { mode := 0, classes := 0, demote := false, demoteClass := 4, rate := 0, burst := 1024, tokens := 0, last := 0, entry := none }
/-- A histogram unit's LFSR is seeded with the unit number plus 1 (R220). -/
def Hist.reset (u : Nat) : Hist := { nlog2 := 0, lfsr := BitVec.ofNat 32 (u + 1), full := [] }

def Dev.queue (d : Dev) (q : Nat) : Queue := tgetD d.pool.queues q Queue.reset
def Dev.modQueue (d : Dev) (q : Nat) (f : Queue → Queue) : Dev :=
  { d with pool := { d.pool with queues := tput d.pool.queues q Queue.reset (f (d.queue q)) } }
def Dev.qprofile (d : Dev) (n : Nat) : QProfile := tgetD d.pool.profiles n QProfile.reset
def Dev.profileOf (d : Dev) (q : Nat) : QProfile := d.qprofile (d.queue q).profile
def Dev.flow (d : Dev) (f : Nat) : Option Flow := tget d.pool.flows f
def Dev.point (d : Dev) (p : Nat) : Point := tgetD d.sched.points p Point.reset
def Dev.modPoint (d : Dev) (p : Nat) (f : Point → Point) : Dev :=
  { d with sched := { d.sched with points := tput d.sched.points p Point.reset (f (d.point p)) } }
def Dev.bucket (d : Dev) (b : Nat) : Bucket := tgetD d.sched.buckets b Bucket.reset
def Dev.modBucket (d : Dev) (b : Nat) (f : Bucket → Bucket) : Dev :=
  { d with sched := { d.sched with buckets := tput d.sched.buckets b Bucket.reset (f (d.bucket b)) } }

/-- The egress point of a flow's queues (R204). -/
def Flow.point (f : Flow) : Nat := if f.dir = 0 then f.tree else f.egress
def Dev.pointOf (d : Dev) (q : Nat) : Nat := (d.flow (q / 8)).elim 0 Flow.point


/-- Is an egress point present (R204)? -/
def Dev.pointPresent (d : Dev) (p : Nat) : Bool :=
  if p < 0x40 then d.treeUp p
  else if p < 0x60 then
    let u := (p - 0x40) / 4
    decide (u < d.uplinkCount) && (p % 4 == 0 || d.uplinkMode u == some 1)
  else if p < 0xA0 then p - 0x60 != d.dev.devAddr
  else decide (p ≤ 0xA4)

/-- Frames of a queue in order, and its depth in bytes. -/
def Queue.all (q : Queue) : List QEnt := q.basin ++ q.refill ++ q.resv
def Dev.frmLen (d : Dev) (f : Nat) : Nat := (tget d.pool.frames f).elim 0 (fun x => x.data.length)
def Dev.depth (d : Dev) (q : Nat) : Nat := sumOf ((d.queue q).all.map (fun e => d.frmLen e.frame))
def Dev.partCells (d : Dev) (l : List QEnt) : Nat := sumOf (l.map (fun e => cellsOf (d.frmLen e.frame)))

/-- A queue is pinned (R193). -/
def Dev.pinned (d : Dev) (q : Nat) : Bool :=
  let p := d.profileOf q
  q % 8 == 0 || p.sample || p.basinOnly

/-- A spilled queue (R178). -/
def Queue.spilled (q : Queue) : Bool := !q.refill.isEmpty || !q.resv.isEmpty

/-- The spill mark in force (R192). -/
def Dev.spillMark (d : Dev) (q : Nat) : Nat :=
  let p := d.profileOf q
  if d.backPressure then p.refillLo + 65 else p.spillHi

/-! ### Charged length and buckets (R205, R212 to R216) -/

/-- The base of the charged length of a frame at a point (R205, R394); `macsec` says that a SecTAG and an ICV are added. -/
def chargeBase (point len : Nat) (twin macsec : Bool) : Nat :=
  if point < 0x40 then 8 + len + 16 + (if twin then 4 else 0)
  else if point < 0x60 ∨ point = 0xA4 then len + 4 + 20 + (if macsec then 32 else 0)
  else if point < 0xA0 then len + 28
  else len

/-- MACsec is enabled on the sub-port of a point (R281, R368): from the first install of an SA until the last one is deleted. An erasure of the keys leaves it
enabled, so that the controlled port sends nothing (R377). -/
def Dev.macsecOn (d : Dev) (point : Nat) : Bool :=
  decide (0x40 ≤ point) && decide (point < 0x60) && d.sec.macsecPorts.contains (point - 0x40)

/-- A frame that leaves a port in the controlled port of MACsec (R368, R340). -/
def Dev.secured (d : Dev) (p : Nat) (l : Bytes) : Bool := d.macsecOn p && etherType l != 0x888E && etherType l != 0x88F7

/-- The charged length: base and OVERHEAD, at most 16,512 bytes. -/
def Dev.charge (d : Dev) (point base : Nat) : Nat :=
  let n := ((base : Int) + (d.point point).overhead).toNat
  if 16512 < n then 16512 else n

/-- The slot number of a clock (R212); the one lengthened tick counts as one tick for shaper slots (R13), so its last slot goes on to its end. -/
def Dev.slotNo (d : Dev) (now : Nat) : Nat :=
  let s := now * 16 / Config.clocksPerTick
  d.now * 16 + (if s < 15 then s else 15)

/-- A bucket brought up to a slot (R212). -/
def Bucket.update (b : Bucket) (n : Nat) : Bucket :=
  let t := b.tokens + (b.rate * (n - b.last) : Nat)
  let cap : Int := (b.burst * 4096 : Nat)
  { b with tokens := if cap < t then cap else t, last := n }

/-- A bucket covers a class. -/
def Bucket.covers (b : Bucket) (mode cls : Nat) : Bool := b.mode == mode && bitOf b.classes cls

/-- The policer's test of a frame for a queue (R214): the class it goes on to, none where it is dropped. -/
def Dev.police (d : Dev) (flow cls len now : Nat) : Option Nat × Dev :=
  let b := d.bucket flow
  if !b.covers 2 cls then (some cls, d)
  else
    let b := b.update (d.slotNo now)
    let cost : Int := (len * 4096 : Nat)
    if cost ≤ b.tokens then (some cls, d.modBucket flow (fun _ => { b with tokens := b.tokens - cost }))
    else
      let d := (d.modBucket flow (fun _ => b)).raiseFirst 0x330 (le 3 flow)
      if b.demote then (some b.demoteClass, d.count 7 .policeDemote flow) else (none, d.count 7 .policeDrop flow)

/-- After a shaper is charged below zero, its calendar entry (R215, R216). -/
def Bucket.calendar (b : Bucket) (n : Nat) : Bucket :=
  if b.tokens < 0 ∧ 0 < b.rate then
    let k := ceilDiv (-b.tokens).toNat b.rate
    { b with entry := some (n + (if 4095 < k then 4095 else k)) }
  else { b with entry := none }

/-! ### Histograms (R219 to R222) -/

/-- The bucket of a value (R221). -/
def histBucket (v : Nat) : Nat :=
  if v < 8 then v
  else
    let e := Nat.log2 v
    if 33 < e then 255 else 8 + (e - 3) * 8 + v / 2 ^ (e - 3) % 8

def Dev.hist (d : Dev) (u : Nat) : Hist := tgetD d.sched.hists u (Hist.reset u)

/-- Count a value in bucket `b` (0 to 511) of a unit: it saturates at 2^32 − 1, and the first saturation after a clear is reported. -/
def Dev.histAdd (d : Dev) (u b : Nat) : Dev :=
  let v := tgetD d.ctr.live (ctrKey 8 (histCode b) u) 0
  let d := if v + 1 < 2 ^ 32 then { d with ctr := { d.ctr with live := tset d.ctr.live (ctrKey 8 (histCode b) u) (v + 1) } } else d
  let h := d.hist u
  if v + 1 = 2 ^ 32 - 1 ∧ !h.full.contains b then
    ({ d with sched := { d.sched with hists := tset d.sched.hists u { h with full := b :: h.full } } }).raise 0x332
      (le 2 u ++ le 1 (b / 256) ++ le 1 (b % 256))
  else d

/-- One step of an LFSR with polynomial x^32 + x^22 + x^2 + x + 1 (R220). -/
def lfsrStep (x : BitVec 32) : BitVec 32 :=
  let n := x.toNat
  let fb := ((bitOf n 31 != bitOf n 21) != bitOf n 1) != bitOf n 0
  BitVec.ofNat 32 (n * 2 + b2n fb)

/-- A frame is linked to a queue of depth `depth` before it: a sample may be taken (R219, R220). -/
def Dev.sample (d : Dev) (q frame depth now : Nat) : Dev :=
  match (d.queue q).hist with
  | none => d
  | some u =>
    let h := d.hist u
    let take := h.nlog2 == 0 || Config.sampleDraw h.lfsr.toNat h.nlog2
    let d := { d with sched := { d.sched with hists := tset d.sched.hists u { h with lfsr := lfsrStep h.lfsr } } }
    if !take then d
    else if 65536 ≤ d.sched.samples.length then d.count 8 .histSkip u
    else
      let d := (d.count 8 .histSamples u).histAdd u (histBucket depth)
      { d with sched := { d.sched with samples := d.sched.samples ++ [(frame, q, u, d.clk now)] } }

/-- A sampled frame is selected: its sojourn in whole nanoseconds (R219). -/
def Dev.sojourn (d : Dev) (q frame now : Nat) : Dev :=
  match d.sched.samples.find? (fun s => s.1 == frame && s.2.1 == q) with
  | none => d
  | some s =>
    let d := { d with sched := { d.sched with samples := d.sched.samples.filter (fun x => x != s) } }
    d.histAdd s.2.2.1 (256 + histBucket ((d.clk now - s.2.2.2) * 4 / 5))

/-- A frame dropped after it is linked records no sojourn. -/
def Dev.forget (d : Dev) (q frame : Nat) : Dev :=
  { d with sched := { d.sched with samples := d.sched.samples.filter (fun s => !(s.1 == frame && s.2.1 == q)) } }

/-! ### Frames and their copies (R190) -/

/-- Release one copy of a frame: the last owner frees its chain. -/
def Dev.release (d : Dev) (frame party : Nat) : Dev :=
  match tget d.pool.frames frame with
  | none => d
  | some x =>
    if 1 < x.refs then { d with pool := { d.pool with frames := tset d.pool.frames frame { x with refs := x.refs - 1 } } }
    else ({ d with pool := { d.pool with frames := tdel d.pool.frames frame } }).freeBasin x.cells party

/-- Change a frame. -/
def Dev.modFrm (d : Dev) (f : Nat) (g : Frm → Frm) : Dev := { d with pool := { d.pool with frames := tmod d.pool.frames f g } }

/-! ### Placement, spill and refill (R191 to R195) -/

/-- A sample of a frame follows the copy that is made private. -/
def Dev.rekeySample (d : Dev) (q old new : Nat) : Dev :=
  { d with sched := { d.sched with samples := d.sched.samples.map (fun s => if s.1 = old ∧ s.2.1 = q then (new, s.2) else s) } }

/-- Append a frame to the reservoir part and ask for its spill write; dropped whole where the reservoir has too few cells (R185). A shared
copy is made private: the new chain stands in reservoir alone, and the copy's reference is released when its data is written (R191). -/
def Dev.spill (d : Dev) (q frame now : Nat) : Dev :=
  match tget d.pool.frames frame with
  | none => d
  | some x =>
    let n := cellsOf x.data.length
    let party := x.req
    if d.resvCells < d.pool.resv.length + n then
      (((d.forget q frame).release frame party).countQueue q (d.pointOf q) .qDropResvFull).raiseFirst 0x329 (le 3 q)
    else
      let cs := lowestFree d.pool.resv n
      let (key, src, d) : Nat × Option Nat × Dev :=
        if 1 < x.refs then
          let k := d.pool.nextFrame
          let frames := tset d.pool.frames k { x with refs := 1, copies := 1, cells := [] }
          (k, some frame, ({ d with pool := { d.pool with nextFrame := k + 1, frames } }).rekeySample q frame k)
        else (frame, none, d)
      let d := (d.holdResv cs q).modQueue q (fun y => { y with resv := y.resv ++ [{ frame := key, place := .writing, resv := cs, src }] })
      let d := d.hbmAsk 83 n (some (d.clk now)) (.spill q key)
      (d.countQueue q (d.pointOf q) .qSpillFrames).poolUp

/-- A shaper holds a queue back (R206, R213). -/
def Dev.shaperHolds (d : Dev) (q : Nat) : Bool :=
  let b := d.bucket (q / 8)
  b.covers 1 (q % 8) && b.entry.isSome

/-- A class goes as express (R282). -/
def UpPort.express (x : UpPort) (cls : Nat) : Bool := !x.preemptActive || cls == 0 || bitOf x.set.express cls

/-- The link is up, the gate of a class open, and no hold of preemptable frames concerns it (R206, R273, R278, R282). -/
def UpPort.passes (x : UpPort) (cls : Nat) : Bool := x.up && bitOf x.gates cls && (x.express cls || !x.hold)

/-- A queue's port lets its class pass; true at every other point. -/
def Dev.gateOpen (d : Dev) (p q : Nat) : Bool := (tget d.upl.ports p).elim true (fun x => x.passes (q % 8))

/-- A queue of the DRR level joins the tail of its active list (R208) where it holds a frame and neither shaper nor gate holds it back. -/
def Dev.joinDrr (d : Dev) (q : Nat) : Dev :=
  let p := d.pointOf q
  if q % 8 < 4 ∨ (d.point p).active.contains q ∨ (d.queue q).basin.isEmpty ∨ d.shaperHolds q ∨ !d.gateOpen p q then d
  else d.modPoint p (fun x => { x with active := x.active ++ [q] })

/-- A queue of the DRR level becomes ineligible: it leaves the list and keeps its deficit (R208). -/
def Dev.leaveDrr (d : Dev) (q : Nat) : Dev :=
  let p := d.pointOf q
  if (d.point p).active.contains q then
    (d.modPoint p (fun x => { x with active := x.active.filter (· != q) })).modQueue q (fun y => { y with credited := false })
  else d

/-- Queues that begin to hold frames in one clock join in R9 order (R209). -/
def Dev.joinAll (d : Dev) (qs : List Nat) : Dev := (tieOrder d.now (fun q => q) qs).foldl Dev.joinDrr d

/-- Place a frame in a queue (R192); it is linked at clock `now`. The queue joins its active list once every copy of the frame is placed (R209). -/
def Dev.place (d : Dev) (q frame now : Nat) : Dev :=
  let y := d.queue q
  let n := cellsOf (d.frmLen frame)
  let d := d.sample q frame (d.depth q) now
  let link (d : Dev) : Dev := (d.modQueue q (fun y => { y with basin := y.basin ++ [{ frame, place := .basin, resv := [], src := none }] }))
  if y.spilled then d.spill q frame now
  else if d.pinned q then link d
  else if d.spillMark q < d.partCells y.basin + n ∧ d.pool.feederOn ∧ !d.pool.hbmFault ∧ d.dev.power ≠ .trim ∧ d.pool.resvState ≠ .emergency then d.spill q frame now
  else link d

/-- Take frames for refill from the head of the reservoir part (R194): how many. -/
def takeCount (lens : List Nat) (have_ mark : Nat) : Nat :=
  match lens with
  | [] => 0
  | n :: t =>
    let rec more : List Nat → Nat → Nat
      | [], _ => 0
      | m :: r, h => if h + m ≤ mark then more r (h + m) + 1 else 0
    more t (have_ + n) + 1

/-- Issue the refill claims of a queue in refill order: an entry whose spill write runs holds back those behind it. -/
def issueClaims (q : Nat) : List QEnt → List QEnt × List (Nat × Nat)
  | [] => ([], [])
  | e :: t =>
    match e.place with
    | .writing => (e :: t, [])
    | .reservoir =>
      let r := issueClaims q t
      ({ e with place := .claiming } :: r.1, (q, e.frame) :: r.2)
    | _ =>
      let r := issueClaims q t
      (e :: r.1, r.2)

/-- The leading entries of a refill part whose data stand in basin, and the rest. -/
def splitDone (l : List QEnt) : List QEnt × List QEnt := l.span (fun e => e.place == .readDone)

/-- Completed refill frames are linked to the tail of the basin part in refill order (R194). -/
def Dev.linkRefilled (d : Dev) (q : Nat) : Dev :=
  let p := splitDone (d.queue q).refill
  let d := p.1.foldl (fun d e => (d.freeResv e.resv).countQueue q (d.pointOf q) .qRefillFrames) d
  (d.modQueue q (fun y =>
    { y with basin := y.basin ++ p.1.map (fun e => { e with place := .basin, resv := [] }), refill := p.2,
             underrun := y.underrun && p.1.isEmpty })).joinDrr q

/-- A frame is taken for refill (R194): where its spill write has not begun its basin chain is linked again and nothing is read. -/
def Dev.takeRefill (d : Dev) (q : Nat) (e : QEnt) : Dev :=
  if e.place = .writing ∧ !d.hbmBegun (.spill q e.frame) then
    let d := (d.hbmEnd (fun w => w == .spill q e.frame)).freeResv e.resv
    let (key, d) : Nat × Dev := match e.src with
      | none => (e.frame, d)
      | some k => (k, ({ d with pool := { d.pool with frames := tdel d.pool.frames e.frame } }).rekeySample q e.frame k)
    d.modQueue q (fun y => { y with refill := y.refill ++ [{ frame := key, place := .readDone, resv := [], src := none }] })
  else d.modQueue q (fun y => { y with refill := y.refill ++ [e] })

/-- The refill claims of a queue are issued (R194). -/
def Dev.issueRefill (d : Dev) (q : Nat) : Dev :=
  let r := issueClaims q (d.queue q).refill
  let d := d.modQueue q (fun y => { y with refill := r.1 })
  { d with pool := { d.pool with claims := d.pool.claims ++ r.2 } }

/-- Refill a spilled queue (R194), evaluated whenever its basin part shrinks. The Feeder is stopped after an HBM fault. -/
def Dev.refillStart (d : Dev) (q : Nat) : Dev :=
  let rec go : (fuel : Nat) → Dev → Dev
    | 0, d => d
    | f + 1, d =>
      let y := d.queue q
      let have_ := d.partCells y.basin + d.partCells y.refill
      if y.resv.isEmpty ∨ (d.profileOf q).refillLo ≤ have_ then d
      else
        let n := takeCount (y.resv.map (fun e => cellsOf (d.frmLen e.frame))) have_ (d.spillMark q)
        go f ((y.resv.take n).foldl (fun d e => d.takeRefill q e) (d.modQueue q (fun y => { y with resv := y.resv.drop n })))
  if d.pool.hbmFault then d else ((go ((d.queue q).resv.length) d).issueRefill q).linkRefilled q

/-- An underrun (R195): a spilled queue whose basin part is empty becomes ineligible, once until it is linked again. -/
def Dev.underrunTest (d : Dev) (q : Nat) : Dev :=
  let y := d.queue q
  if y.basin.isEmpty ∧ y.spilled ∧ !y.underrun then
    ((d.modQueue q (fun y => { y with underrun := true })).countQueue q (d.pointOf q) .qUnderrun).raiseFirst 0x327 (le 3 q)
  else d

/-- The head frame of a queue leaves (R188, R190, R194, R195, R208). -/
def Dev.dequeue (d : Dev) (q : Nat) (sent : Bool) : Dev :=
  match (d.queue q).basin with
  | [] => d
  | e :: rest =>
    let party := (tget d.pool.frames e.frame).elim 0 (fun x => x.req)
    let d := d.modQueue q (fun y => { y with basin := rest, heldGate := false })
    let d := if sent then d else d.forget q e.frame
    let d := d.release e.frame party
    let d := d.refillStart q
    let d := d.underrunTest q
    let y := d.queue q
    if y.basin.isEmpty then
      let d := d.modPoint (d.pointOf q) (fun x => { x with active := x.active.filter (· != q) })
      if y.spilled then d.modQueue q (fun y => { y with credited := false }) else d.modQueue q (fun y => { y with deficit := 0, credited := false })
    else d

/-- SPILL_WRITE_COMPLETE (R191, R192): the frame stands in reservoir; its basin cells are freed, or the copy's reference to the shared frame
is released. Only a write whose transactions all hold slots can complete (R31). -/
def spillComplete (q frame : Nat) (d : Dev) : Dev :=
  match ((d.queue q).refill ++ (d.queue q).resv).find? (fun e => e.frame == frame && e.place == .writing) with
  | none => d
  | some e =>
    if !d.hbmReady (.spill q frame) then d
    else
      let d := d.hbmEnd (fun w => w == .spill q frame)
      let f (e : QEnt) : QEnt := if e.frame = frame ∧ e.place = .writing then { e with place := .reservoir, src := none } else e
      let d := d.modQueue q (fun y => { y with refill := y.refill.map f, resv := y.resv.map f })
      let x := tget d.pool.frames frame
      let party := x.elim 0 (fun x => x.req)
      let d := match e.src with
        | some k => d.release k party
        | none => (d.freeBasin (x.elim [] (fun x => x.cells)) party).modFrm frame (fun x => { x with cells := [] })
      if d.pool.hbmFault then d else d.issueRefill q
def execSpillWriteComplete (queue frame : Nat) (s : State) : Host.Outcome State Fault Refusal := s.onDev (spillComplete queue frame)

/-- The HBM stack is in self-refresh (R490, R491): in QUIET and DOZE, and in TRIM once every spilled queue is basin-resident. -/
def Dev.selfRefresh (d : Dev) : Bool := d.gated || (d.dev.power == .trim && d.pool.queues.all (fun e => !e.2.spilled))

/-- REFILL_CLAIM_GRANT (R181, R194): no read begins in self-refresh; the oldest waiting claim is granted once WEIR_RESERVE + n cells are free, and its read is issued. Whether that is the clock
of the last HBM request that waits, with which R31 then orders it, is a free value: the command gives no clock (log entry 118). -/
def refillGrant (d : Dev) : Dev :=
  match d.pool.claims with
  | [] => d
  | (q, frame) :: rest =>
    let n := cellsOf (d.frmLen frame)
    if d.selfRefresh ∨ Config.basinCells < d.pool.basin.length + d.pool.weirReserve + n then d
    else
      let cs := lowestFree d.pool.basin n
      let d := ({ d with pool := { d.pool with claims := rest } }).holdBasin cs 83
      let d := d.modFrm frame (fun x => { x with cells := cs, req := 83 })
      let d := d.modQueue q (fun y => { y with refill := y.refill.map (fun e => if e.frame = frame then { e with place := .reading } else e) })
      let (v, d) := d.draw
      let asked := if v % 2 = 0 then none else d.pool.hbm.getLast?.bind (·.asked)
      (d.hbmAsk 83 n asked (.refill q frame)).poolUp
def execRefillClaimGrant (s : State) : Host.Outcome State Fault Refusal := s.onDev refillGrant

/-- REFILL_READ_COMPLETE (R194): completed frames are linked in refill order. Only a read whose transactions all hold slots can complete
(R31). -/
def refillRead (q frame : Nat) (d : Dev) : Dev :=
  if !(d.queue q).refill.any (fun e => e.frame == frame && e.place == .reading) || !d.hbmReady (.refill q frame) then d
  else
    let d := d.hbmEnd (fun w => w == .refill q frame)
    let d := d.modQueue q (fun y => { y with refill := y.refill.map (fun e => if e.frame = frame then { e with place := .readDone } else e) })
    d.linkRefilled q
def execRefillReadComplete (queue frame : Nat) (s : State) : Host.Outcome State Fault Refusal := s.onDev (refillRead queue frame)

/-- An entry of a refill or reservoir part is discarded: its reservoir cells, its copy of the frame, and the reference of a shared copy that
was not yet written. -/
def Dev.dropEnt (d : Dev) (q : Nat) (e : QEnt) : Dev :=
  let party (k : Nat) : Nat := (tget d.pool.frames k).elim 0 (fun x => x.req)
  let p := party e.frame
  let d := ((d.freeResv e.resv).forget q e.frame).release e.frame p
  e.src.elim d (fun k => d.release k p)

/-- A queue that is empty has no deficit (R208). -/
def Dev.emptyDrr (d : Dev) (q : Nat) : Dev :=
  if (d.queue q).all.isEmpty then d.modQueue q (fun y => { y with deficit := 0, credited := false }) else d

/-- The transaction is a write of the recorder's ring, which a fault of the HBM leaves to end. -/
def HbmWork.isPile : HbmWork → Bool
  | .pile _ => true
  | _ => false

/-- The spilled parts of a queue are lost with the HBM (R200): its frames there are dropped and counted. -/
def Dev.dropSpilled (d : Dev) (q : Nat) : Dev :=
  let d := ((d.queue q).refill ++ (d.queue q).resv).foldl (fun d e => (d.dropEnt q e).countQueue q (d.pointOf q) .qResvLost) d
  (d.modQueue q (fun y => { y with refill := [], resv := [], underrun := false })).emptyDrr q

/-- HBM_UNCORRECTABLE_FAULT (R196): the Feeder stops, every refill and reservoir part is discarded, and Adesa starts a full rinse (R200). -/
def hbmFault (d : Dev) : Dev :=
  let spilled := (d.pool.queues.filter (fun e => e.2.spilled)).map (·.1)
  let lost := sumOf (spilled.map (fun q => sumOf (((d.queue q).refill ++ (d.queue q).resv).map (fun e => e.resv.length))))
  let d := spilled.foldl Dev.dropSpilled (d.hbmEnd (fun w => !w.isPile))
  let d := { d with pool := { d.pool with feederOn := false, hbmFault := true, hbmUsable := false, claims := [] } }
  let d := (if lost = 0 then d else d.countDev .resvLostCells lost).raise 0x328 (le 4 lost)
  let busy : Bool := (d.sluice.fifo.any fun r => decide (r.op = HeavyOp.hbmRinse)) || (d.sluice.held.any fun h => decide (h.op = HeavyOp.hbmRinse))
  if busy then d
  else (d.request .hbmRinse 14 none).1
def execHbmUncorrectableFault (s : State) : Host.Outcome State Fault Refusal := s.onDev hbmFault

/-! ### Admission (R179, R186) -/

/-- A frame to enqueue: its bytes, requester, entry version, INPUT and PORT, twin tag, and the flow and class of each copy. -/
structure Enq where
  data : Bytes
  req : Nat
  version : Nat
  input : Nat
  port : Nat
  twinTag : Option Nat
  copies : List (Nat × Nat)
  now : Nat
deriving DecidableEq, Repr

/-- A flow whose queues accept frames (R179). -/
def Dev.accepts (d : Dev) (f : Nat) : Bool :=
  (d.flow f).elim false (fun x => x.accepting && decide (x.acceptFrom ≤ d.now))

/-- A downstream frame for a terminal that dozes or is about to (R134, R135). -/
def Dev.wakeFor (d : Dev) (f : Nat) : Dev :=
  match d.flow f with
  | none => d
  | some x =>
    if x.dir ≠ 0 then d
    else match (d.tree x.tree).byId x.id with
      | none => d
      | some y =>
        if y.dozes d.now then d.endDoze x.tree y else d.cancelDoze x.tree y

/-- The queue steps of R186 for one copy: the queue that takes it, none where it is dropped. -/
def Dev.admitFrame (d : Dev) (e : Enq) (flow cls : Nat) : Option Nat × Dev :=
  let len := e.data.length
  if !d.accepts flow then (none, d.count 4 .dropNoflow e.req)
  else
    let point := d.pointOf (flow * 8)
    let twin := e.twinTag.isSome
    if point < 0x40 ∧ 16383 < len + 16 + (if twin then 4 else 0) then (none, d.count 4 .dropOversize e.req)
    else
      match d.police flow cls (d.charge point (chargeBase point len twin (d.secured point e.data))) e.now with
      | (none, d) => (none, d)
      | (some c, d) =>
        let q := flow * 8 + c
        if (d.profileOf q).maxBytes < d.depth q + len then (none, d.countQueue q point .qDropTail) else (some q, d)

/-- The queues that hold a frame as their last entry, in the basin. -/
def Dev.lastIn (d : Dev) (key : Nat) : List Nat :=
  (d.pool.queues.filter (fun y => (y.2.basin.getLast?).elim false (fun z => z.frame == key && z.place == .basin))).map (·.1)

/-- A frame that took its cells in the clock of `e` although R9 puts its requester behind (R30), and that stands last in all its queues: it loses them. Requesters
contend for cells in the emergency state or with quotas off. -/
def Dev.displaced (d : Dev) (e : Enq) : Option Nat :=
  if (d.pool.basinState ≠ .emergency ∧ d.pool.quotasOn) ∨ d.pool.clockIn.1 ≠ d.clk e.now then none
  else
    let behind (r : Nat) : Bool := if d.now % 2 = 0 then decide (e.req < r) else decide (r < e.req)
    let whole (key : Nat) : Bool :=
      (tget d.pool.frames key).elim false (fun x => x.refs == (d.lastIn key).length) &&
        !(d.trees.any (fun t => t.2.down.frags.any (fun f => f.2.frameKey == key)))
    ((tieOrder d.now (fun (x : Nat × Nat) => x.1) (d.pool.clockIn.2.filter (fun x => behind x.1 && whole x.2))).getLast?).map (·.2)

/-- A frame gives its cells back and counts as refused. -/
def Dev.displace (d : Dev) (key : Nat) : Dev :=
  let (req, n) := (tget d.pool.frames key).elim (0, 0) (fun x => (x.req, x.cells.length))
  let d := (d.lastIn key).foldl (fun (d : Dev) q =>
    match (d.queue q).basin.getLast? with
    | none => d
    | some z =>
      let d := (d.modQueue q (fun y => { y with basin := y.basin.dropLast })).dropEnt q z
      if (d.queue q).basin.isEmpty then d.leaveDrr q else d) d
  (((d.count 4 .dropNocell req).raiseFirst 0x322 (le 1 req)).count 4 .dropCells req n)

/-- FRAME_ENQUEUE (R186): claim cells, test each copy, place it; or drop the frame whole. `fuel` bounds how many frames of the same clock R9 puts behind it (R30).
The level of a frame is 0 where any of its copies is for a weir-class or a sample queue (DESIGN CHOICE, log entry 116). -/
def Dev.enqueueGo : (fuel : Nat) → (d : Dev) → (e : Enq) → Dev
  | 0, d, _ => d
  | fuel + 1, d, e =>
  let len := e.data.length
  let n := cellsOf len
  let d := if 4095 < e.copies.length then d.countDev .copyOverflow (e.copies.length - 4095) else d
  let copies := e.copies.take 4095
  if copies.isEmpty then d
  else if 16384 < len then d.count 4 .dropOversize e.req
  else
    let easy := copies.any (fun c => c.2 == 0 || (d.profileOf (c.1 * 8 + c.2)).sample)
    let level := if easy then 0 else d.pool.weirReserve + d.pool.refillReserve
    let quota := if d.pool.quotasOn then some (lget d.pool.quota e.req 0) else none
    let r := claims level quota (d.pool.basinState == .emergency) n d.pool.basin.length (d.pool.charged e.req)
    let cs := lowestFree d.pool.basin r.1
    let d := (d.holdBasin cs e.req).poolUp
    match r.2 with
    | .nocell =>
      if let some key := d.displaced e then Dev.enqueueGo fuel ((d.freeBasin cs e.req).displace key) e else
      let d := ((d.freeBasin cs e.req).count 4 .dropNocell e.req).raiseFirst 0x322 (le 1 e.req)
      if cs.isEmpty then d else d.count 4 .dropCells e.req cs.length
    | .quota =>
      let d := ((d.freeBasin cs e.req).count 4 .dropQuota e.req).raiseFirst 0x323 (le 1 e.req)
      if cs.isEmpty then d else d.count 4 .dropCells e.req cs.length
    | .ok =>
      let (qs, d) := copies.foldl (fun (acc : List Nat × Dev) c =>
        match acc.2.admitFrame e c.1 c.2 with
        | (some q, d) => (acc.1 ++ [q], d)
        | (none, d) => (acc.1, d)) (([] : List Nat), d)
      match qs with
      | [] => d.freeBasin cs e.req
      | q0 :: _ =>
        let key := d.pool.nextFrame
        let x : Frm :=
          { data := e.data, flow := q0 / 8, cls := q0 % 8, req := e.req, version := e.version, input := e.input, port := e.port, cells := cs,
            refs := qs.length, copies := qs.length, twinTag := e.twinTag }
        let clk := d.clk e.now
        let clockIn := (clk, (if d.pool.clockIn.1 = clk then d.pool.clockIn.2 else []) ++ [(e.req, key)])
        let d := { d with pool := { d.pool with nextFrame := key + 1, frames := tset d.pool.frames key x, clockIn } }
        (qs.foldl (fun d q => (d.place q key e.now).wakeFor (q / 8)) d).joinAll qs

def Dev.enqueue (d : Dev) (e : Enq) : Dev := Dev.enqueueGo (d.pool.clockIn.2.length + 1) d e

/-! ### Flows (R89, R197, R198) -/

/-- FLOW_BIND for one flow (R89). -/
def bindMsg (id serial flow : Nat) (bind : Bool) (notBefore : Nat) : LockMsg :=
  lockMsg id 0x02 1 (be 4 (flow + 2 ^ 31 * b2n bind)) none [] .plain (.flowBind flow bind) serial notBefore

/-- FLOW_CREATE (R197). -/
def flowCreate (r : FlowReq) (ref : CmdRef) (d : Dev) : Dev :=
  let term := if r.dir ≤ 1 then (if d.treePresent r.tree then (d.tree r.tree).byId r.id else none) else none
  let egressOk := decide (0x40 ≤ r.egress) && decide (r.egress ≤ 0xA4) && d.pointPresent r.egress
  if 131071 < r.flow ∨ (d.flow r.flow).isSome ∨ 2 < r.dir ∨ (r.dir ≤ 1 ∧ term.isNone) ∨ (1 ≤ r.dir ∧ !egressOk) ∨
      r.profile.any (fun p => decide (255 < p)) then d.complete ref .invalid
  else
    let serial := term.elim 0 (fun x => x.serial)
    let f : Flow :=
      { dir := r.dir, tree := r.tree, id := r.id, serial, egress := r.egress, accepting := true, acceptFrom := d.now + 1, bound := none,
        deleting := none, drain := false, drainUntil := 0, unbindWait := false, unbound := false }
    let d := { d with pool := { d.pool with flows := tset d.pool.flows r.flow f } }
    let d := (List.range 8).foldl (fun d k => d.modQueue (r.flow * 8 + k) (fun y => { y with profile := lget r.profile k 0 })) d
    let d := if r.dir ≤ 1 then d.modTree r.tree (fun x => x.queueMsg (bindMsg r.id serial r.flow true (d.now + 1))) else d
    d.complete ref .ok
def execFlowCreate (ctx : Nat) (r : FlowReq) (s : State) : Host.Outcome State Fault Refusal := s.onDev (·.mailbox ctx 0x0401 (flowCreate r))

/-- Discard every frame of a queue (R198). A parcel of it that is cut off between two fragments is counted in QUEUE.DROP_DELETE alone and not in
TREE.FRAG_ABORT, on which R84 and R198 are silent: DESIGN CHOICE, log entry 91. -/
def Dev.discardQueue (d : Dev) (q : Nat) : Dev :=
  let y := d.queue q
  let point := d.pointOf q
  let d := y.all.foldl (fun d e => (d.dropEnt q e).countQueue q point .qDropDelete) (d.hbmEnd (fun w => w.ofQueue q))
  let d := { d with pool := { d.pool with claims := d.pool.claims.filter (fun c => c.1 != q) } }
  let d := d.modQueue q (fun y => { y with basin := [], refill := [], resv := [], deficit := 0, credited := false, heldGate := false, underrun := false })
  let d := d.modPoint point (fun x => { x with active := x.active.filter (· != q) })
  if point < 0x40 then d.modTree point (fun x => { x with down := { x.down with frags := x.down.frags.filter (fun f => f.2.queue != q) } }) else d

/-- FLOW_DELETE (R198): applied at the next boundary. -/
def flowDelete (r : FlowDelReq) (ref : CmdRef) (d : Dev) : Dev :=
  match d.flow r.flow with
  | none => d.complete ref .invalid
  | some f =>
    if f.deleting.isSome ∨ (r.drain ∧ (r.drainTicks < 8 ∨ 65535 < r.drainTicks)) then d.complete ref .invalid
    else
      ({ d with pool := { d.pool with flows := tset d.pool.flows r.flow { f with deleting := some ref } } }).later (.flowDelete ref r)
def execFlowDelete (ctx : Nat) (r : FlowDelReq) (s : State) : Host.Outcome State Fault Refusal := s.onDev (·.mailbox ctx 0x0402 (flowDelete r))

/-- The boundary of a FLOW_DELETE: the queues accept no frames; without DRAIN they are discarded. -/
def Dev.applyFlowDelete (d : Dev) (r : FlowDelReq) : Dev :=
  match d.flow r.flow with
  | none => d
  | some f =>
    let f := { f with accepting := false, drain := r.drain, drainUntil := d.now + r.drainTicks }
    let d := { d with pool := { d.pool with flows := tset d.pool.flows r.flow f } }
    if r.drain then d else (List.range 8).foldl (fun d k => d.discardQueue (r.flow * 8 + k)) d

/-- A deletion completes (R198, R223): the flow is gone and its bucket OFF. -/
def Dev.flowGone (d : Dev) (flow : Nat) : Dev :=
  match d.flow flow with
  | none => d
  | some f =>
    let d := { d with pool := { d.pool with flows := tdel d.pool.flows flow } }
    let d := { d with sched := { d.sched with buckets := tdel d.sched.buckets flow }, ctr := d.ctr.clear 7 flow 1 }
    let d := if f.dir = 1 then d.modTree f.tree (fun x =>
        { x with keep := { x.keep with gq := x.keep.gq.filter (fun e => e.1 / 8 != flow) } }) else d
    d.completeOpt f.deleting .ok

/-- Deletions in progress at a boundary: the end of DRAIN_TICKS, and the unbind once every cell is freed and no byte of the last parcel goes in frame C or later
(R89). -/
def Dev.flowsBoundary (d : Dev) : Dev :=
  let fs := d.pool.flows.filter (fun e => e.2.deleting.isSome && !e.2.accepting && !e.2.unbindWait)
  fs.foldl (fun d e =>
    let flow := e.1
    let f := e.2
    let qs := (List.range 8).map (fun k => flow * 8 + k)
    let d := if f.drain ∧ f.drainUntil ≤ d.now then qs.foldl Dev.discardQueue d else d
    if qs.any (fun q => !(d.queue q).all.isEmpty) || (f.dir == 0 && (d.tree f.tree).down.ranOn.contains flow) then d
    else
      let term := if f.dir ≤ 1 then ((d.tree f.tree).byId f.id).filter (fun x => x.serial == f.serial) else none
      match term with
      | none => d.flowGone flow
      | some x =>
        let d := d.modTree f.tree (fun y => y.queueMsg (bindMsg f.id x.serial flow false d.now))
        if (d.keys (globalIndex f.tree f.id)).held d.now then
          { d with pool := { d.pool with flows := tset d.pool.flows flow { f with unbindWait := true } } }
        else d.flowGone flow) d

/-! ### Profiles, Feeder and pool settings (R199 to R201) -/

/-- QUEUE_CONFIG PROFILE_SET. -/
def profileSet (r : ProfileReq) (ref : CmdRef) (d : Dev) : Dev :=
  if 255 < r.profile ∨ r.maxBytes < 16384 ∨ 16777216 < r.maxBytes then d.complete ref .invalid else d.later (.profileSet ref r)
def execQueueConfigProfileSet (ctx : Nat) (r : ProfileReq) (s : State) : Host.Outcome State Fault Refusal :=
  s.onDev (·.mailbox ctx 0x0404 (profileSet r))
def Dev.applyProfile (d : Dev) (ref : CmdRef) (r : ProfileReq) : Dev :=
  ({ d with pool := { d.pool with
    profiles := tput d.pool.profiles r.profile QProfile.reset { d.qprofile r.profile with sample := r.sample, maxBytes := r.maxBytes } } }).complete ref .ok

/-- Is a queue range within the device (R199, R224)? -/
def rangeOk (first count : Nat) : Bool := decide (1 ≤ count) && decide (count ≤ 1048576) && decide (first + count ≤ 1048576)

/-- A background write begins at the next boundary. -/
def Dev.addJob (d : Dev) (ref : CmdRef) (what : BgWhat) (first count : Nat) : Dev :=
  { d with pool := { d.pool with jobs := d.pool.jobs ++ [{ ref, what, next := first, last := first + count - 1 }] } }

/-- QUEUE_CONFIG BIND. -/
def queueBind (r : BindReq) (ref : CmdRef) (d : Dev) : Dev :=
  if 255 < r.profile ∨ !rangeOk r.first r.count then d.complete ref .invalid else d.addJob ref (.profile r.profile) r.first r.count
def execQueueConfigBind (ctx : Nat) (r : BindReq) (s : State) : Host.Outcome State Fault Refusal := s.onDev (·.mailbox ctx 0x0404 (queueBind r))

/-- Write one queue (R199, R208, R219, R224). -/
def Dev.writeQueue (d : Dev) (what : BgWhat) (q : Nat) : Dev :=
  match what with
  | .profile p => d.modQueue q (fun y => { y with profile := p })
  | .quantum v =>
    if q % 8 < 4 then d
    else d.modQueue q (fun y => { y with quantum := v, deficit := if ((v + 16512 : Nat) : Int) < y.deficit then ((v + 16512 : Nat) : Int) else y.deficit })
  | .hist bind u n =>
    let d := if bind then { d with sched := { d.sched with hists := tset d.sched.hists u { d.hist u with nlog2 := n } } } else d
    d.modQueue q (fun y => { y with hist := if bind then some u else if y.hist = some u then none else y.hist })

/-- BACKGROUND_QUEUE_WRITE: the jobs in order, up to 65,536 queues in a tick; a job whose last queue is written completes. -/
def Dev.queueWrites (d : Dev) : Dev :=
  let rec go : (budget : Nat) → List BgJob → Dev → Dev
    | _, [], d => d
    | b, j :: t, d =>
      let n := j.last + 1 - j.next
      let k := if b < n then b else n
      let d := (rangeFrom j.next k).foldl (fun d q => d.writeQueue j.what q) d
      if k = n then
        go (b - k) t (({ d with pool := { d.pool with jobs := d.pool.jobs.filter (fun x => x.ref != j.ref) } }).complete j.ref .ok)
      else
        let jobs := d.pool.jobs.map (fun (x : BgJob) => if x.ref = j.ref then { x with next := j.next + k } else x)
        { d with pool := { d.pool with jobs } }
  go 65536 d.pool.jobs d

/-- FEEDER_POLICY (R200). -/
def feederPolicy (r : FeederReq) (ref : CmdRef) (d : Dev) : Dev :=
  let fields := decide (r.mode ≤ 1) && decide (81 ≤ r.spillHi) && decide (r.spillHi ≤ 65535) && decide (16 ≤ r.refillLo) &&
    decide (r.refillLo ≤ 65470) && decide (r.refillLo + 65 ≤ r.spillHi)
  if (r.profile ≠ 0xFFFF ∧ (255 < r.profile ∨ !fields)) then d.complete ref .invalid
  else if r.profile = 0xFFFF ∧ r.enable ∧ !d.pool.hbmUsable then d.complete ref .denied
  else d.later (.feeder ref r)
def execFeederPolicy (ctx : Nat) (r : FeederReq) (s : State) : Host.Outcome State Fault Refusal := s.onDev (·.mailbox ctx 0x0407 (feederPolicy r))
def Dev.applyFeeder (d : Dev) (ref : CmdRef) (r : FeederReq) : Dev :=
  let resp (d : Dev) : Bytes := le 4 (d.pool.queues.filter (fun e => e.2.spilled)).length ++ le 4 d.pool.resv.length
  if r.profile = 0xFFFF then
    if r.enable ∧ !d.pool.hbmUsable then d.complete ref .denied
    else
      let d := { d with pool := { d.pool with feederOn := r.enable, hbmFault := d.pool.hbmFault && !r.enable } }
      d.complete ref .ok (resp d)
  else
    let p : QProfile := { d.qprofile r.profile with basinOnly := decide (r.mode = 1), spillHi := r.spillHi, refillLo := r.refillLo }
    let d := { d with pool := { d.pool with profiles := tput d.pool.profiles r.profile QProfile.reset p } }
    d.complete ref .ok (resp d)

/-- The POOL_CONFIG response (R201). -/
def poolResp (d : Dev) : Bytes :=
  le 1 d.pool.basinState.code ++ le 1 d.pool.resvState.code ++ le 2 0 ++ le 4 d.pool.basin.length ++ le 4 d.pool.resv.length ++ le 4 d.resvCells

def poolWrite (r : PoolReq) (ref : CmdRef) (d : Dev) : Dev :=
  if 32768 < r.weirReserve ∨ 32768 < r.refillReserve ∨ r.quota.length ≠ 83 ∨ r.quota.any (fun q => decide (196608 < q)) then d.complete ref .invalid
  else d.later (.poolWrite ref r)
def execPoolConfigWrite (ctx : Nat) (r : PoolReq) (s : State) : Host.Outcome State Fault Refusal := s.onDev (·.mailbox ctx 0x0408 (poolWrite r))
def Dev.applyPool (d : Dev) (ref : CmdRef) (r : PoolReq) : Dev :=
  let d := { d with pool := { d.pool with
    quotasOn := r.quotas, weirReserve := r.weirReserve, refillReserve := r.refillReserve, quota := r.quota } }
  d.complete ref .ok (poolResp d)
def execPoolConfigRead (ctx : Nat) (s : State) : Host.Outcome State Fault Refusal :=
  s.onDev (·.mailbox ctx 0x0408 (fun ref d => d.complete ref .ok (poolResp d)))

/-- HBM_RINSE_DONE (R200, R493): a full pass ends; `clean` says that it met no uncorrectable error. -/
def hbmRinseDone (clean : Bool) (d : Dev) : Dev :=
  if !d.sluice.held.any (fun h => h.op == .hbmRinse && h.ended.isNone) then d
  else
    let d := d.endOp (fun o => o = .hbmRinse)
    { d with pool := { d.pool with hbmUsable := clean } }
def execHbmRinseDone (clean : Bool) (s : State) : Host.Outcome State Fault Refusal := s.onDev (hbmRinseDone clean)

end Sys2Proof.Machine
end

