-- ==== Sys2Proof/Machine/Sched.lean ====
section
/-!
DEFINITION. The commands of the egress schedulers (chapter 08): token buckets and their calendar, quanta, points and histogram units.
-/
namespace Sys2Proof.Machine

/-! ### Token buckets (R212 to R218, R223) -/

/-- SHAPER_SET (R223): applied at the next boundary. DEMOTE_CLASS is used by a policer that demotes (R7). -/
def shaperSet (r : ShaperReq) (ref : CmdRef) (d : Dev) : Dev :=
  let bad := (d.flow r.bucket).isNone || decide (2 < r.mode) || decide (255 < r.classes) || (r.mode == 1 && bitOf r.classes 0) ||
    (r.mode == 2 && r.demote && (decide (r.demoteClass < 4) || decide (7 < r.demoteClass) || bitOf r.classes r.demoteClass)) ||
    (r.mode != 0 && (decide (r.rate < 1) || decide (2 ^ 32 ≤ r.rate) || decide (r.burst < 1024) || decide (16777216 < r.burst)))
  if bad then d.complete ref .invalid else d.later (.shaper ref r)
def execShaperSet (ctx : Nat) (r : ShaperReq) (s : State) : Host.Outcome State Fault Refusal := s.onDev (·.mailbox ctx 0x0405 (shaperSet r))

/-- The queues of classes 4 to 7 of a flow. -/
def drrQueues (flow : Nat) : List Nat := [4, 5, 6, 7].map (fun k => flow * 8 + k)

/-- The change at boundary C (R217): values, reset of the count, last, and the calendar entry recomputed. Queues that it frees join their active lists with all others
of the boundary (R209). -/
def Dev.applyShaper (d : Dev) (ref : CmdRef) (r : ShaperReq) : Dev :=
  if (d.flow r.bucket).isNone then d.complete ref .invalid
  else
    let n := d.now * 16
    let b := (d.bucket r.bucket).update n
    let owed := if b.mode = 0 then 0 else (-b.tokens).toNat / 4096
    let b : Bucket := { b with mode := r.mode, classes := r.classes, demote := r.demote, demoteClass := r.demoteClass }
    let b : Bucket := if r.mode = 0 then b else { b with rate := r.rate, burst := r.burst }
    let b : Bucket := { b with tokens := if r.full then ((b.burst * 4096 : Nat) : Int) else 0, last := n, entry := none }
    let d := { d with sched := { d.sched with buckets := tset d.sched.buckets r.bucket b } }
    d.complete ref .ok (fromResp d.now ++ le 4 owed ++ le 4 0)

/-- A covered frame is charged to its flow's shaper when it is selected (R213, R215); queues it then holds back leave the active list (R208). -/
def Dev.shape (d : Dev) (flow cls charged now : Nat) : Dev :=
  let b := d.bucket flow
  if !b.covers 1 cls then d
  else
    let n := d.slotNo now
    let b := b.update n
    let b := ({ b with tokens := b.tokens - ((charged * 4096 : Nat) : Int) }).calendar n
    let d := d.modBucket flow (fun _ => b)
    if b.entry.isSome then ((drrQueues flow).filter (fun q => b.covers 1 (q % 8))).foldl Dev.leaveDrr d else d

/-- CALENDAR_SLOT (R215, R216): at the start of slot `slot` of the tick, every shaper entered there is updated, and made eligible or entered
again. -/
def calendarSlot (slot : Nat) (d : Dev) : Dev :=
  let n := d.now * 16 + slot
  let due := d.sched.buckets.filter (fun e => e.2.mode == 1 && e.2.entry.elim false (fun m => decide (m ≤ n)))
  let d := due.foldl (fun d e => d.modBucket e.1 (fun b => (b.update n).calendar n)) d
  let free := (due.map (·.1)).filter (fun f => (d.bucket f).entry.isNone)
  d.joinAll ((free.flatMap drrQueues).filter (fun q => (d.bucket (q / 8)).covers 1 (q % 8)))
def execCalendarSlot (slot : Nat) (s : State) : Host.Outcome State Fault Refusal := s.onDev (calendarSlot slot)

/-! ### Points, quanta and histograms (R224, R225) -/

/-- DRR_STARVE (R225, R226): the DRR level of a point has sent nothing for a further STARVE ticks. -/
def drrStarve (p : Nat) (d : Dev) : Dev :=
  let x := d.point p
  if x.starve = 0 ∨ x.idleRun < x.starveSeen + x.starve then d
  else ((d.modPoint p (fun y => { y with starveSeen := y.starveSeen + y.starve })).count 6 .drrStarve p).raise 0x331 (le 1 p)
def execDrrStarve (point : Nat) (s : State) : Host.Outcome State Fault Refusal := s.onDev (drrStarve point)

/-- The ticks of a point at a boundary: the run in which its DRR level had an eligible queue and sent nothing goes on, or ends (R225). -/
def Point.tick (x : Point) : Point :=
  let x : Point := if x.drrHad && !x.drrSent then { x with idleRun := x.idleRun + 1 } else { x with idleRun := 0, starveSeen := 0 }
  { x with drrHad := false, drrSent := false }

/-- SCHED_CONFIG QUANTUM. -/
def schedQuantum (r : QuantumReq) (ref : CmdRef) (d : Dev) : Dev :=
  if !rangeOk r.first r.count ∨ r.quantum < 64 ∨ 65536 < r.quantum then d.complete ref .invalid
  else d.addJob ref (.quantum r.quantum) r.first r.count
def execSchedConfigQuantum (ctx : Nat) (r : QuantumReq) (s : State) : Host.Outcome State Fault Refusal :=
  s.onDev (·.mailbox ctx 0x0406 (schedQuantum r))

/-- SCHED_CONFIG POINT: applied at the next boundary. -/
def schedPoint (r : PointReq) (ref : CmdRef) (d : Dev) : Dev :=
  let fragOk := r.fragBytes == 0 || (decide (r.point < 0x40) && decide (256 ≤ r.fragBytes) && decide (r.fragBytes ≤ 16383))
  if !d.pointPresent r.point ∨ !fragOk ∨ r.overhead < -32 ∨ 63 < r.overhead ∨ 65535 < r.starve then d.complete ref .invalid
  else d.later (.point ref r)
def execSchedConfigPoint (ctx : Nat) (r : PointReq) (s : State) : Host.Outcome State Fault Refusal := s.onDev (·.mailbox ctx 0x0406 (schedPoint r))
def Dev.applyPoint (d : Dev) (ref : CmdRef) (r : PointReq) : Dev :=
  (d.modPoint r.point (fun x =>
    { x with fragBytes := if r.fragBytes = 0 then x.fragBytes else r.fragBytes, overhead := r.overhead, starve := r.starve })).complete ref .ok

/-- SCHED_CONFIG HIST. -/
def schedHist (r : HistReq) (ref : CmdRef) (d : Dev) : Dev :=
  if !rangeOk r.first r.count ∨ 1023 < r.unit_ ∨ (r.enable = true ∧ 16 < r.nlog2) then d.complete ref .invalid
  else d.addJob ref (.hist r.enable r.unit_ r.nlog2) r.first r.count
def execSchedConfigHist (ctx : Nat) (r : HistReq) (s : State) : Host.Outcome State Fault Refusal := s.onDev (·.mailbox ctx 0x0406 (schedHist r))

end Sys2Proof.Machine
end

