-- ==== Sys2Proof/Machine/Prot.lean ====
section
/-!
DEFINITION. Tree protection and twinning (chapter 12): groups, heartbeats, keeper pulses, the lease states, takes, releases, planned moves and
drills, the standby's mirror, and twin pairs.
-/
namespace Sys2Proof.Machine

/-! ### Ports -/

/-- C as this port uses it when it gains the lease: the return direction uses −C (R303). -/
def Port.toward (p : Port) : Int := if p.primary then -p.cal else p.cal
/-- Add to C as this port uses it. -/
def Port.addCal (p : Port) (e : Int) : Port := { p with cal := if p.primary then p.cal - e else p.cal + e }

/-- Epoch a is newer than b (R289). -/
def epochNewer (a b : Nat) : Bool :=
  let x := (a + 65536 - b % 65536) % 65536
  decide (1 ≤ x) && decide (x ≤ 32767)
/-- The next epoch: the value 0 is skipped. -/
def epochNext (e : Nat) : Nat := if e = 65535 then 1 else e + 1

/-- The lease is current for 320 ticks after the last renewal (R292). -/
def Port.expired (p : Port) (now : Nat) : Bool := p.lastRenew.elim true (fun r => decide (r + 320 ≤ now))
/-- WITNESS_HEARD (R293). -/
def Port.heard (p : Port) : Bool := p.witness.any (fun b => b)
/-- Is the last heartbeat of the peer under 160 ticks old (R294)? -/
def Port.peerFresh (p : Port) (now : Nat) : Bool := p.peer.elim false (fun v => decide (now < v.at_ + 160))

/-- A port as a group creates it (R313). -/
def Port.new (pgid : Nat) (primary : Bool) (peerDev peerTree : Nat) (r : GroupReq) (epoch now : Nat) : Port :=
  { pgid, primary, peerDev, peerTree, pulse := r.pulse, cal := r.cal, armed := r.armed, state := .init, epoch, holderDev := 0, peer := none,
    lastRenew := none, lastSwitch := 0, lastDrill := 0, drillResult := 0xFF, switches := 0, releaseAt := none, goodPulses := 0,
    changePulse := false, lastPulse := none, initSince := now, heardHolder := false, silentRun := 0, witness := [], holdRaised := false,
    blockedRaised := false, towLost := false, pulseLost := false, take := none, drill := none, move := none, from_ := none, offsets := [],
    mean := none, waiting := [], mirror := none, prevUntil := none, err := .reset, witnessSf := false, yield := none, polled := none }

/-- Raise an event of a group (R317): it carries the PGID. -/
def Dev.protEvent (d : Dev) (p : Port) (src : Nat) (data : Bytes := []) (cause : Nat := 0) (flag : Bool := false) : Dev :=
  d.raise src (le 2 p.pgid ++ data) cause flag

/-- The wake of a standby's lane draws on two tokens that each group holds in reserve (R294). -/
def Dev.setReserve (d : Dev) : Dev :=
  let ids := (d.prot.ports.map (fun e => e.2.pgid)).eraseDups
  { d with sluice := { d.sluice with reserve := 2 * ids.length } }

/-! ### Heartbeats (R290, R292) -/

/-- ROLE of R290. -/
def LeaseState.role : LeaseState → Nat
  | .holder => 0 | .standby => 1 | .taking => 2 | .init => 3

/-- The heartbeat of a port as bytes. -/
def heartbeatBytes (v : PeerView) (pgid : Nat) (release : Bool) : Bytes :=
  let b := be 2 pgid ++ be 2 v.epoch ++ be 1 v.role ++ be 1 (b2n release + 2 * b2n v.heard + 4 * b2n v.sf + 8 * b2n v.armed) ++ be 1 v.dev ++
    be 1 v.tree ++ be 6 v.cycle ++ be 2 0 ++ beInt 4 v.cal ++ be 8 0
  b ++ be 4 (crc32c b)

/-- What a heartbeat says, as received in tick `now`. -/
def readHeartbeat (b : Bytes) (now : Nat) : PeerView :=
  let f := beAt b 5 1
  { epoch := beAt b 2 2, role := beAt b 4 1, heard := bitOf f 1, sf := bitOf f 2, armed := bitOf f 3, dev := beAt b 6 1, tree := beAt b 7 1,
    cycle := beAt b 8 6, cal := signed 32 (beAt b 16 4), at_ := now }

/-- A heartbeat of a device whose CYCLE is later than the release ends the CHANGE pulses toward that device (R291). -/
def Dev.peerAnswered (d : Dev) (v : PeerView) : Dev :=
  { d with prot := { d.prot with leaseChange :=
    if (tget d.prot.leaseChange v.dev).elim false (fun r => decide (r < v.cycle)) then tdel d.prot.leaseChange v.dev else d.prot.leaseChange } }

/-- A heartbeat is taken (R290 to R295). A release is answered by a take at the next boundary. -/
def Dev.takeHeartbeat (d : Dev) (t : Nat) (v : PeerView) (release : Bool) : Dev :=
  match d.port t with
  | none => d
  | some p =>
    let d := if p.towLost then d.protEvent p 0x284 else d
    let d := d.modPort t (fun p => { p with peer := some v, towLost := false })
    let adopt (p : Port) : Port := if v.armed ∧ v.role = 0 then { p with cal := v.cal, armed := true } else p
    let known := v.epoch == p.epoch || epochNewer v.epoch p.epoch
    match p.state with
    | .init =>
      if v.role = 0 ∧ !release then
        d.modPort t (fun p => adopt { p with state := .standby, epoch := v.epoch, holderDev := v.dev, lastRenew := some d.now, heardHolder := true, take := none })
      else d
    | .standby =>
      if release then (if v.epoch = p.epoch then d.modPort t (fun p => { p with take := some (.release, d.now + 1) }) else d)
      else if v.role = 0 ∧ known then
        d.modPort t (fun p => adopt { p with
          epoch := v.epoch, holderDev := v.dev, lastRenew := some d.now, holdRaised := false,
          take := p.take.filter (fun k => k.1 = .release) })
      else d
    | .taking => d
    | .holder =>
      if release ∨ (v.role ≠ 0 ∧ v.role ≠ 2) then d
      else
        let d := if v.role = 0 then d.protEvent p 0x286 (le 2 v.epoch) else d
        let mine := d.origin t
        let theirs := v.dev * 64 + v.tree
        let wins := v.epoch == p.epoch && (if d.now % 2 = 0 then decide (theirs < mine) else decide (mine < theirs))
        if epochNewer v.epoch p.epoch ∨ wins then d.modPort t (fun p => { p with yield := some (v.epoch, v.dev) }) else d

/-- Send a heartbeat (R290): over Towpath, or to the other port on this device. -/
def Dev.sendHeartbeat (d : Dev) (t : Nat) (release : Bool) : Dev :=
  match d.port t with
  | none => d
  | some p =>
    let v : PeerView :=
      { epoch := p.epoch, role := if release then 0 else p.state.role, heard := p.heard, sf := p.witnessSf, armed := p.armed, dev := d.dev.devAddr,
        tree := t, cycle := d.now, cal := p.cal, at_ := d.now }
    if p.isLocal d then (d.peerAnswered v).takeHeartbeat p.peerTree v release
    else d.sendUnit p.peerDev 2 none (heartbeatBytes v p.pgid release)

/-- LEASE_HEARTBEAT_RX (R290, R292): a LEASE unit whose CRC fits, for a port of that group. -/
def heartbeatRx (r : TowRx) (d : Dev) : Dev :=
  let a := d.towAccept r 2
  let d := a.1
  if !a.2 then d
  else
    let b := r.payload
    let v := readHeartbeat b d.now
    if b.length ≠ 32 ∨ crc32c (b.take 28) ≠ beAt b 28 4 then d
    else
      let d := d.peerAnswered v
      match d.prot.ports.find? (fun e => e.2.pgid == beAt b 0 2 && e.2.peerDev == v.dev && e.2.peerTree == v.tree) with
      | none => d
      | some e => d.takeHeartbeat e.1 v (bitOf (beAt b 5 1) 0)
def execLeaseHeartbeatRx (r : TowRx) (s : State) : Host.Outcome State Fault Refusal := s.onDev (heartbeatRx r)

/-! ### Keeper pulses (R291) -/

/-- A quantity lies within `w` of `c`. -/
def near (x c w : Int) : Bool := decide (c - w ≤ x) && decide (x ≤ c + w)

/-- KEEPER_PULSE_RX (R291): edge within 10 µs of the boundary, width within 20 µs of 250 µs (RENEW) or 750 µs (CHANGE). -/
def pulseRx (r : PulseRx) (d : Dev) : Dev :=
  let renew := near r.width 312500 25000
  let change := near r.width 937500 25000
  if !near r.edge 0 12500 ∨ !(renew || change) then d
  else
    (d.prot.ports.filter (fun e => e.2.pulse == some r.pair)).foldl (fun d e =>
      let d := if e.2.pulseLost then d.protEvent e.2 0x285 else d
      d.modPort e.1 (fun p =>
        { p with goodPulses := p.goodPulses + b2n renew, changePulse := p.changePulse || change, lastPulse := some d.now, pulseLost := false })) d
def execKeeperPulseRx (r : PulseRx) (s : State) : Host.Outcome State Fault Refusal := s.onDev (pulseRx r)

/-- LEASE_OUT at a boundary with C mod 8 = 0: the pulse of each pair that a group names begins, CHANGE where any lease toward the peer of the pair was
released and that peer has not answered since. -/
def Dev.pulseSend (d : Dev) : Dev :=
  if d.now % 8 ≠ 0 then d
  else
    let kind (q : Nat) : Option Bool :=
      let ps := d.prot.ports.filter (fun e => e.2.pulse == some q)
      if ps.isEmpty then none
      else some (ps.any (fun e => (tget d.prot.leaseChange e.2.peerDev).isSome))
    { d with prot := { d.prot with leaseOut := [kind 0, kind 1] } }

/-- A pair that no group names any more is low (R291). -/
def Dev.pulseIdle (d : Dev) : Dev :=
  let named (q : Nat) : Bool := d.prot.ports.any (fun e => e.2.pulse == some q)
  { d with prot := { d.prot with leaseOut := d.prot.leaseOut.zipIdx.map (fun k => if named k.2 then k.1 else none) } }

/-- The level of LEASE_OUT[q] in the tick in progress: 2 ticks of a RENEW pulse, 6 of a CHANGE pulse. -/
def Dev.leaseLevel (d : Dev) (q : Nat) : Bool :=
  match lget d.prot.leaseOut q none with
  | none => false
  | some change => decide (d.now % 8 < (if change then 6 else 2))

/-- LEASE_PATH_TIMEOUT (R317): no heartbeat for 160 ticks, or no good pulse for 16. -/
def pathTimeout (t : Nat) (d : Dev) : Dev :=
  match d.port t with
  | none => d
  | some p =>
    let tow := !p.towLost && decide ((p.peer.elim p.initSince (fun v => v.at_)) + 160 ≤ d.now)
    let pul := p.pulse.isSome && !p.pulseLost && decide (p.lastPulse.getD p.initSince + 16 ≤ d.now)
    let d := if tow then (d.modPort t (fun p => { p with towLost := true })).protEvent p 0x284 [] 0 true else d
    if pul then (d.modPort t (fun p => { p with pulseLost := true })).protEvent p 0x285 [] 0 true else d
def execLeasePathTimeout (tree : Nat) (s : State) : Host.Outcome State Fault Refusal := s.onDev (pathTimeout tree)

/-! ### The mirror (R288, R375) -/

/-- A mirrored terminal as the standby holds it. The standing set of a terminal in service is in force at the holder (R151, R532). -/
def mirrorTerm (m : MirrorTerm) : Term :=
  let st : TermState := match m.state with
    | 1 => .ranging | 2 => .inService | 3 => .quarantined | 4 => .dozing | 5 => .lost | _ => .listed
  let cads : Tbl CadPlace := m.cads.foldl (fun t c =>
    tset t c.1 { n := c.2.1, phase := c.2.2.1, ncw := c.2.2.2.1, start := c.2.2.2.2.1, hint := c.2.2.2.2.2 }) []
  let set : StandSet := { weir := m.weir.map (fun w => { ncw := w.1, start := w.2 }), cads }
  { Term.listed_ m.serial none m.fec 0 with
    id := m.id, state := st, range := m.range, set, tablesSent := m.version.elim 0 (· + 1), setReturned := decide (m.state = 2) || decide (m.state = 4), tables := [{ version := m.version.getD 0, from_ := 0, set, sent := m.version.isSome }] }

/-- A mirrored terminal's keys (R375) in tick `now`. A rekey that is past X + 32 has its new phase in force already. -/
def mirrorKeys (m : MirrorTerm) (now : Nat) : TermKeys :=
  let slot (i : Nat) : Option KeySlot := (lget m.slots i none).map (fun k => { key := k.1, salt := k.2.1, koff := k.2.2 })
  let from_ := ((m.rekeyX.filter (fun x => decide (x + 32 ≤ now))).orElse (fun _ => m.firstX)).elim 0 (· + 32)
  { TermKeys.reset with
    tk := m.tk, down := [slot 0, slot 1], up := [slot 2, slot 3], downPhase := m.phase, firstX := m.firstX, downFrom := from_,
    rekey := m.rekeyX.map (fun x => { x, phase := if x + 32 ≤ now then m.phase else !m.phase, u := rekeyU x, ref := none, erasedDown := false }) }

/-- No key is held: in DECOMMISSIONED (R381), and while an erasure has left the device ALARMED without its owner key (R377). -/
def Dev.keyless (d : Dev) : Bool :=
  d.sec.lifecycle = .decommissioned || (d.sec.lifecycle = .alarmed && d.sec.vbat.ownerKey.isNone)

/-- MIRROR_RX (R288): a record for a standby port replaces its terminals and adds its manifest; a planned move in it is prepared. -/
def mirrorRx (r : TowRx) (m : MirrorRec) (d : Dev) : Dev :=
  let a := d.towAccept r 6
  let d := a.1
  match d.port m.tree with
  | none => d
  | some p =>
    if !a.2 ∨ p.peerDev ≠ r.src ∨ p.state = .holder ∨ p.state = .taking then d
    else
      let old := ((p.mirror.map (fun x => x.manifests)).getD []).filter (fun e => decide (d.now ≤ e.1))
      let grant (g : Nat × Nat × Nat × Nat) : Grant :=
        { tid := g.1, start := g.2.1, ncw := g.2.2.1, kind := g.2.2.2, flow := 0, cls := 0, shares := [] }
      let manifests := m.manifest.elim old (fun x => tset old x.1 { target := x.1, grants := x.2.map grant, missed := false })
      let keys : Tbl TermKeys := if d.keyless then [] else m.terms.foldl (fun t x => x.id.elim t (fun id => tset t id (mirrorKeys x d.now))) []
      let sched : QwSet := { reach := m.reach, mode := m.mode, period := m.period, phase := m.phase }
      let mir : Mirror := { at_ := d.now, terms := m.terms.map mirrorTerm, manifests, sched, keys, kp := m.kp }
      d.modPort m.tree (fun p =>
        match m.move with
        | none => { p with mirror := some mir }
        | some (at_, epoch, cal) =>
          let ids := (mir.terms.filter (fun x => x.state = .inService)).filterMap (fun x => x.id)
          let visit : Option Drill := m.dwell.map (fun w =>
            { op := if cal then .calibrate else .drill, ref := none, dwell := w, a := at_ - 8, moveAt := at_, ids, heard := [], maxOffset := 0, e := none,
              offsets := [], back := none })
          { p with mirror := some mir, move := some { moveAt := at_, epoch, gain := true, cal },
                   drill := if p.drill.isSome then p.drill else visit })
def execMirrorRx (r : TowRx) (m : MirrorRec) (s : State) : Host.Outcome State Fault Refusal := s.onDev (mirrorRx r m)

/-! ### Gaining the lease (R294, R301, R304) -/

/-- Live at a change of holder (R301). -/
def Term.live (y : Term) : Bool := y.state = .inService || y.state = .quarantined

/-- A terminal of the mirror at the new holder. `at_` is the tick from which its places are granted, `keep` that it keeps its range and service. -/
def Term.handedOver (y : Term) (range : Int) (at_ now : Nat) (keep : Bool) : Term :=
  if keep && y.live then
    { y with
      range := range.toNat, offset := 0, adj := none, admitFrom := none, missed := 0, aliveAt := at_, doze := none, reasm := [], part := none,
      resync := true, lastRei := none, rangingPlaces := if y.state = .quarantined then [at_, at_ + 8, at_ + 16] else [],
      -- the set is in force only IN_SERVICE (R532)
      tables := [if y.state = .inService then { version := (y.tablesSent + 255) % 256, from_ := at_, set := y.set, sent := y.hasTable } else y.outOfForce at_],
      setReturned := y.state = .inService, removing := none }
  else
    { (y.withdrawGrants now).enter .listed with reasm := [], part := none, resync := true, admitFrom := none, removing := none }

/-- The tree state of the mirror becomes this port's (R288, R301, R375). `restore` keeps each terminal's range of before a failed CALIBRATE
drill (R305). A rekey in progress restarts at X = F for a take. -/
def Dev.importMirror (d : Dev) (t : Nat) (p : Port) (at_ : Nat) (keep restore : Bool) (rekeyAt : Option Nat) : Dev :=
  let m := d.mirrorOf p
  let old := (d.tree t).terms
  let range (y : Term) : Int :=
    if restore then (((old.find? (fun z => z.serial == y.serial)).map (fun z => (z.range : Int))).getD (y.range : Int))
    else (y.range : Int) + (y.id.elim 0 (fun id => tgetD p.offsets id 0)) + p.toward
  let terms := m.terms.map (fun y => y.handedOver (range y) at_ d.nextBuild keep)
  let d := d.modTree t (fun x =>
    { x with terms, keep := { x.keep with manifests := m.manifests, building := none, reports := [], shadows := [], confirms := [] },
             disc := { x.disc with settings := m.sched, windows := [], kept := [], claims := [], claimed := [] } })
  let d := m.keys.foldl (fun d e =>
    d.modKeys (globalIndex t e.1) (fun _ =>
      match rekeyAt with
      | none => e.2
      | some f => { e.2 with rekey := e.2.rekey.map (fun r => { r with x := f, u := rekeyU f, ref := none }) })) d
  { d with sec := { d.sec with treeKp := tput d.sec.treeKp t false m.kp } }

/-- The transmit lane wakes from the group's reserve (R294). -/
def Dev.reserveWake (d : Dev) (t : Nat) : Dev :=
  d.modTree t (fun x => { x with lanes := { x.lanes with
    state := .waking d.now false, eq := d.profile.tree.map (fun b => slice b (16 + 8 * t) 8),
    wake := some { failures := 0, phase := .admitted d.now, ref := none } } })

/-- RANGE_HANDOVER for one terminal (R300, R301). -/
def rangeHandover (id serial epoch range from_ notBefore : Nat) : LockMsg :=
  lockMsg id 0x50 2 (be 2 epoch ++ be 4 range) (some from_) [] .shared .handover serial notBefore

/-- Queue one copy of RANGE_HANDOVER, with a TIME_OFFSET beside the first (R343). -/
def Dev.sendHandover (d : Dev) (t : Nat) (epoch from_ notBefore : Nat) (first : Bool) (y : Term) : Dev :=
  let id := y.id.getD 0
  let d := d.modTree t (fun x => x.queueMsg (rangeHandover id y.serial epoch y.range from_ notBefore))
  if first then d.modTree t (fun x => x.queueMsg (d.timeOffsetMsg t id y.serial y.range from_ notBefore)) else d

/-- A drill or move ends (R305, R315, R317): RESULT 0 PASS, 1 FAIL, 2 ABORTED. -/
def Dev.drillEnd (d : Dev) (t result : Nat) : Dev :=
  match d.port t with
  | none => d
  | some p =>
    match p.drill with
    | none => d
    | some r =>
      let note (p : Port) : Port := { p with lastDrill := d.now, drillResult := result }
      let d := d.modPort t (fun p => note { p with drill := none, move := none })
      match r.ref with
      | none => d
      | some ref =>
        let d := if p.isLocal d then d.modPort p.peerTree note else d
        let d := (d.count 16 .protDrills p.pgid).protEvent p 0x287 (le 1 result)
        d.complete ref .ok (le 1 result ++ le 1 0 ++ le 2 r.ids.length ++ le 2 r.heard.length ++ le 2 0 ++ leInt 4 p.cal ++ le 4 r.maxOffset)

/-- A tree has held a lease (R68, R289). -/
def Dev.addHeld (d : Dev) (t : Nat) : Dev :=
  { d with prot := { d.prot with held := if d.prot.held.contains t then d.prot.held else d.prot.held ++ [t] } }

/-- The ACTIVE record of a group names this device's port that holds its lease (R294). -/
def Dev.recordActive (d : Dev) (pgid t : Nat) : Dev := { d with prot := { d.prot with active := tset d.prot.active pgid t } }

/-- A port becomes HOLDER at boundary F with its first frame. -/
def Dev.becomeHolder (d : Dev) (t : Nat) (epoch : Nat) : Dev :=
  let d := d.modTree t (fun x => { x with prevEpoch := x.epoch, epoch })
  let d := (d.roleHolder t).modPort t (fun p =>
    { p with state := .holder, epoch, holderDev := d.dev.devAddr, switches := p.switches + 1, lastSwitch := d.now, blockedRaised := false,
             mean := some (d.now + 64, 0, 0), lastRenew := some d.now })
  let pgid := (d.port t).elim 0 (fun p => p.pgid)
  ((d.addHeld t).recordActive pgid t).count 16 .protSwitches pgid

/-- A holder becomes STANDBY: no further frame. The change of holder counts here where the other port lies on another device; on one device it counts where that port
becomes HOLDER (R317). -/
def Dev.becomeStandby (d : Dev) (t epoch holder : Nat) : Dev :=
  let d := (d.port t).elim d (fun p => if p.isLocal d then d else d.count 16 .protSwitches p.pgid)
  let d := d.modTree t (fun x => { x with since := d.now, lanes := { x.lanes with state := .standby, wake := none }, down := { x.down with work := none } })
  (d.roleStandby t).modPort t (fun p =>
    { p with state := .standby, epoch, holderDev := holder, switches := p.switches + 1, lastSwitch := d.now, take := none, yield := none, move := none,
             mean := none, waiting := [], from_ := none, prevUntil := none, lastRenew := some d.now, silentRun := 0, witness := [], holdRaised := false })

/-- A take at boundary Y (R294): epoch + 1, the lane wakes from the reserve, the heartbeat goes at once. -/
def Dev.take (d : Dev) (t : Nat) (cause : TakeCause) : Dev :=
  match d.port t with
  | none => d
  | some p =>
    if !(d.tree t).attached then d
    else
      let known := p.state ≠ .init ∨ p.heardHolder ∨ d.prot.held.contains t
      let e := if known then epochNext p.epoch else 1
      let d := (d.drillEnd t 2).modPort t (fun p => { p with state := .taking, epoch := e, take := none, holderDev := d.dev.devAddr, move := none })
      let d := d.importMirror t p (d.now + 8) p.armed false (some (d.now + 1))
      let d := (d.reserveWake t).protEvent p 0x280 (le 2 e) cause.code
      d.sendHeartbeat t false

/-- REMOVE with HOLDOFF 0, in a frame from F on, to the terminals with an id that a test names (R301, R303). -/
def Dev.sendRemoves (d : Dev) (t f : Nat) (who : Term → Bool) : Dev :=
  ((d.tree t).terms.filter (fun y => y.id.isSome && who y)).foldl (fun d y => d.modTree t (fun x =>
    x.queueMsg (lockMsg (y.id.getD 0) 0x15 2 (be 2 0 ++ be 1 1 ++ be 1 0) none [] .plain .other y.serial f))) d

/-- The first frame of a new holder after a take, F (R294, R301, R303, R375). -/
def Dev.takeDone (d : Dev) (t : Nat) (p : Port) : Dev :=
  let f := d.now
  let d := d.becomeHolder t p.epoch
  let d := (List.range 4).foldl (fun d k => d.modTree t (fun x => x.queueMsg (keyOriginMsg p.epoch (d.origin t) (f + k)))) d
  let ts := (d.tree t).terms.filter (fun y => y.id.isSome)
  if p.armed then
    let live := ts.filter Term.live
    let d := (List.range 4).foldl (fun d k => live.foldl (fun d y =>
      d.sendHandover t p.epoch (f + 7) (f + k) (k == 0) y) d) d
    (d.sendRemoves t f (fun y => !y.live)).modPort t (fun p => { p with from_ := some (f + 7), waiting := live.filterMap (fun y => y.id) })
  else
    ((d.sendRemoves t f (fun _ => true)).modPort t (fun p => { p with from_ := none, waiting := [] })).protEvent p 0x289

/-- RANGE_HANDOVER again for a terminal with no accepted barge by FROM + 8: every 8 ticks, for up to 800 ticks, with FROM 4 frames later. -/
def Dev.handoverAgain (d : Dev) (t : Nat) (p : Port) : Dev :=
  match p.from_ with
  | none => d
  | some f =>
    let k := d.now - (f + 8)
    if d.now < f + 8 ∨ p.waiting = [] then d
    else if 800 ≤ k then d.modPort t (fun p => { p with waiting := [] })
    else if k % 8 ≠ 0 then d
    else (d.tree t).terms.foldl (fun d y => match y.id with
      | some id => if p.waiting.contains id ∧ y.live then d.sendHandover t p.epoch (d.now + 4) d.now true y else d
      | none => d) d

/-! ### Release and yield (R294) -/

/-- The holder releases at this boundary. -/
def Dev.releaseLease (d : Dev) (t : Nat) (p : Port) : Dev :=
  let d := (d.drillEnd t 2).becomeStandby t p.epoch p.peerDev
  let d := d.modPort t (fun p => { p with releaseAt := some d.now })
  let d : Dev := { d with prot := { d.prot with leaseChange := tset d.prot.leaseChange p.peerDev d.now } }
  (d.protEvent p 0x281 (le 2 p.epoch)).sendHeartbeat t true

/-- LOS or SF at the holder: release where the standby's witness allows, else RELEASE_BLOCKED. -/
def Dev.releaseTest (d : Dev) (t : Nat) (p : Port) : Dev :=
  let dfs := (d.line t).defects
  if bitOf dfs 8 ∨ bitOf dfs 10 then
    if p.peerFresh d.now ∧ p.peer.elim false (fun v => v.heard && !v.sf) then d.releaseLease t p
    else if p.blockedRaised then d
    else (d.modPort t (fun p => { p with blockedRaised := true })).protEvent p 0x283
  else d.modPort t (fun p => { p with blockedRaised := false })

/-- ERROR_BLOCK_END (R318): in the last tick of a block, before a boundary with C mod 4,000 = 0, the block ends with it, and the boundary judges it (R322). Given
only after that boundary it judges at once, and the lease logic of a holder sees its SF there. -/
def errorBlockEnd (d : Dev) : Dev :=
  if (d.now + 1) % 4000 = 0 then { d with clock := { d.clock with blockDue := true } }
  else if d.now % 4000 = 0 ∧ d.clock.blockDone ≠ some d.now then
    ((tkeys d.trees).filter (fun t => d.treeUp t)).foldl (fun (d : Dev) t =>
      (d.port t).elim d (fun p => if p.state = .holder then d.releaseTest t p else d)) d.endBlocks
  else d
def execErrorBlockEnd (s : State) : Host.Outcome State Fault Refusal := s.onDev errorBlockEnd

/-- An expired lease at the standby (R294): the take once the tree is silent, or LEASE_WITNESS_HOLD once. Answers whether a take follows. -/
def Dev.expiryTest (d : Dev) (t : Nat) : Dev :=
  match d.port t with
  | none => d
  | some p =>
    if p.state ≠ .standby ∨ !p.expired d.now then d
    else if 3 ≤ p.silentRun then
      if p.releaseAt.elim true (fun r => decide (r + 640 ≤ d.now)) then d.modPort t (fun p => { p with take := some (.expiry, d.now) }) else d
    else if p.witness.head? = some true ∧ !p.holdRaised then (d.modPort t (fun p => { p with holdRaised := true })).protEvent p 0x282
    else d

/-- LEASE_EXPIRY (R292): 320 ticks after the last renewal; a take follows at the next boundary. -/
def execLeaseExpiry (tree : Nat) (s : State) : Host.Outcome State Fault Refusal := s.onDev (·.expiryTest tree)

/-- LEASE_INIT_TIMEOUT (R294). -/
def initTimeout (t : Nat) (d : Dev) : Dev :=
  match d.port t with
  | none => d
  | some p =>
    if p.state ≠ .init then d
    else if p.primary ∧ p.initSince + 640 ≤ d.now ∧ 3 ≤ p.silentRun then d.modPort t (fun p => { p with take := some (.create, d.now) })
    else if !p.primary ∧ p.initSince + 960 ≤ d.now then d.modPort t (fun p => { p with state := .standby, lastRenew := none })
    else d
def execLeaseInitTimeout (tree : Nat) (s : State) : Host.Outcome State Fault Refusal := s.onDev (initTimeout tree)

/-! ### Planned moves and drills (R304, R305, R315) -/

/-- LEASE_MOVE to every live terminal and KEY_ORIGIN for the new epoch, from boundary A (R304, R375). -/
def Dev.sendMove (d : Dev) (t : Nat) (p : Port) (epoch moveAt : Nat) (shift : Int) (range : Term → Int) (cal : Bool) : Dev :=
  let a := d.now
  let live := (d.tree t).terms.filter (fun y => y.live && y.id.isSome)
  let ids := (live.filter (fun y => y.state = .inService)).filterMap (fun y => y.id)
  let refId := minOf 256 ids
  let d := (List.range 4).foldl (fun d k => d.modTree t (fun x => x.queueMsg (keyOriginMsg epoch (p.peerDev * 64 + p.peerTree) (a + k)))) d
  live.foldl (fun d y =>
    let id := y.id.getD 0
    let flags := if cal then 1 + 2 * b2n (id == refId) else 0
    let post := beInt 4 shift ++ be 4 (range y).toNat ++ be 1 flags ++ be 1 0 ++ be 4 (if cal then 800000 else 0)
    let d := d.modTree t (fun x => x.queueMsg (lockMsg id 0x51 2 (be 2 epoch) (some moveAt) post .shared .leaseMove y.serial (a + id % 4)))
    d.modTree t (fun x => x.queueMsg (d.timeOffsetMsg t id y.serial (range y).toNat moveAt (a + id % 4)))) d

/-- A drill or move begins at boundary A at the port that was commanded. -/
def Dev.moveStart (d : Dev) (t : Nat) (p : Port) (r : Drill) : Dev :=
  let m : Nat := d.now + 8
  let epoch := epochNext p.epoch
  let ids := ((d.tree t).terms.filter (fun y => y.state = .inService)).filterMap (fun y => y.id)
  let offs := if p.isLocal d then (d.port p.peerTree).elim [] (fun q => q.offsets) else r.offsets
  let shift : Int := if p.primary then p.cal else -p.cal
  let cal := r.op = .calibrate
  let d := d.sendMove t p epoch m shift (fun y => (y.range : Int) + y.id.elim 0 (fun id => tgetD offs id 0) + shift) cal
  let r : Drill := { r with a := d.now, moveAt := m, ids }
  let d := d.modPort t (fun p => { p with drill := some r, move := some { moveAt := m, epoch, gain := false, cal } })
  if p.isLocal d then
    d.modPort p.peerTree (fun q =>
      { q with drill := some { r with ref := none }, move := some { moveAt := m, epoch, gain := true, cal } })
  else d

/-- The way back begins at boundary A' at the port that holds the lease during a drill (R305). -/
def Dev.backStart (d : Dev) (t : Nat) (p : Port) (r : Drill) (moveAt result : Nat) : Dev :=
  let epoch := epochNext p.epoch
  let restore := r.op = .calibrate ∧ result = 1
  let m := d.mirrorOf p
  let offs := if p.isLocal d then (d.port p.peerTree).elim [] (fun q => q.offsets) else r.offsets
  let shift := -p.toward
  let range (y : Term) : Int :=
    if restore then ((m.terms.find? (fun z => z.serial == y.serial)).map (fun z => (z.range : Int))).getD (y.range : Int)
    else (y.range : Int) + y.id.elim 0 (fun id => tgetD offs id 0) + shift
  let d := d.sendMove t p epoch moveAt shift range false
  let d := d.modPort t (fun p => { p with move := some { moveAt, epoch, gain := false, cal := false } })
  if p.isLocal d then d.modPort p.peerTree (fun q => { q with move := some { moveAt, epoch, gain := true, cal := false } }) else d

/-- What a planned move does at a boundary: the new holder wakes at MOVE_AT − 1 and takes over at MOVE_AT; the old one goes idle. -/
def Dev.moveBoundary (d : Dev) (t : Nat) (p : Port) (m : PlannedMove) : Dev :=
  let c := d.now
  let failedCal := p.drill.elim false (fun r => r.op = .calibrate && r.ref.isSome && r.back.elim false (fun b => b.2 == 1))
  if m.gain then
    if c + 1 = m.moveAt then
      (d.importMirror t p (if m.cal then m.moveAt + 9 else m.moveAt) true failedCal none).reserveWake t
    else if m.moveAt ≤ c ∧ (d.tree t).lit then
      let d := (d.becomeHolder t m.epoch).sendRemoves t c (fun y => !y.live)
      let ids := ((d.tree t).terms.filter Term.live).filterMap (fun y => y.id)
      let d := d.modPort t (fun p =>
        { p with move := none, prevUntil := some (m.moveAt + 8), waiting := if m.cal then [] else ids, from_ := some (if m.cal then m.moveAt + 9 else m.moveAt) })
      -- a commanded port has the lease back: its drill is over; a one-way move has no way back
      match p.drill with
      | some r => (match r.back with
        | some b => if r.ref.isSome then d.drillEnd t b.2 else d
        | none => if r.op = .move ∧ r.ref.isNone then d.drillEnd t 0 else d)
      | none => d
    else d
  else if c = m.moveAt then
    let visitor := p.drill.elim false (fun r => r.ref.isNone)
    let oneWay := p.drill.elim false (fun r => r.op = .move)
    let d := d.becomeStandby t m.epoch p.peerDev
    if oneWay then d.drillEnd t 0 else if visitor then d.drillEnd t (p.drill.elim 0 (fun r => r.back.elim 0 (·.2))) else d
  else d

/-- Two boundaries after a CALIBRATE move the new holder sets C from the reference barge and sends RANGE_HANDOVER (R305). -/
def Dev.calBoundary (d : Dev) (t : Nat) (p : Port) : Dev :=
  match p.drill with
  | none => d
  | some r =>
    if r.op ≠ .calibrate ∨ r.ref.isSome ∨ p.state ≠ .holder ∨ d.now ≠ r.moveAt + 2 then d
    else
      match r.e with
      | none => d
      | some e =>
        let d := d.modPort t (fun p => { (p.addCal e) with armed := true })
        let cal := (d.port t).elim 0 (fun q => q.cal)
        let d := if p.isLocal d then d.modPort p.peerTree (fun q => { q with cal, armed := true }) else d
        let d := d.modTree t (fun x => { x with terms := x.terms.map (fun y => if y.live then { y with range := ((y.range : Int) + e).toNat } else y) })
        let live := (d.tree t).terms.filter (fun y => y.live && y.id.isSome)
        let d := (List.range 4).foldl (fun d k => live.foldl (fun d y =>
          d.sendHandover t p.epoch (r.moveAt + 9) (d.now + k) (k == 0) y) d) d
        d.modPort t (fun p => { p with waiting := live.filterMap (fun y => y.id) })

/-- The result of a drill so far, once its check period is over (R305): none while it runs. -/
def Drill.verdict (r : Drill) (now : Nat) : Option Nat :=
  match r.op with
  | .move => none
  | .calibrate => if now < r.moveAt + 2 then none else if r.e.isNone then some 1 else if r.moveAt + r.dwell ≤ now then some 0 else none
  | .drill =>
    let all := r.ids.all (fun i => r.heard.contains i)
    if now < r.moveAt + 64 then none else if !all then some 1 else if r.moveAt + r.dwell ≤ now then some 0 else none

/-- A failure decided within the last tick of the check period is withdrawn where the missing barge came in the rest of that tick. -/
def Dev.clearBack (d : Dev) (t : Nat) (p : Port) : Dev :=
  let clear (q : Port) : Port := { q with drill := q.drill.map (fun y => { y with back := none }) }
  let d := d.modPort t clear
  if p.isLocal d then d.modPort p.peerTree clear else d

/-- MOVE_AT of the way back: MOVE_AT + 8 of a CALIBRATE drill that failed, else 8 ticks on. -/
def Drill.backAt (r : Drill) (now result : Nat) : Nat := if r.op = .calibrate ∧ result = 1 then r.moveAt + 8 else now + 8

/-- DRILL_DWELL_EXPIRY (R305): at the port that holds the lease during the drill, or at the commanded port whose peer lies on another device.
The way back begins at the next boundary, so the periods are counted to it. -/
def dwellExpiry (r : DwellEnd) (d : Dev) : Dev :=
  match d.port r.tree with
  | none => d
  | some p =>
    match p.drill with
    | none => d
    | some x =>
      if x.back.isSome then d
      else if p.state = .holder ∧ x.ref.isNone then
        let x : Drill := { x with offsets := r.offsets }
        match x.verdict (d.now + 1) with
        | none => d
        | some v =>
          let b := (x.backAt (d.now + 1) v, v)
          let d := d.modPort r.tree (fun p => { p with drill := some { x with back := some b } })
          if p.isLocal d then
            d.modPort p.peerTree (fun q => { q with drill := q.drill.map (fun y => { y with heard := x.heard, maxOffset := x.maxOffset, back := some b }) })
          else d
      else if p.state = .standby ∧ x.ref.isSome ∧ !p.isLocal d then
        let x : Drill := { x with heard := r.heard, maxOffset := r.maxOffset, e := if r.heard.isEmpty then none else some 0 }
        match x.verdict (d.now + 1) with
        | none => d
        | some v =>
          let b := (x.backAt (d.now + 1) v, v)
          d.modPort r.tree (fun p => { p with
            drill := some { x with back := some b }, move := some { moveAt := b.1, epoch := epochNext p.epoch, gain := true, cal := false } })
      else d
def execDrillDwellExpiry (r : DwellEnd) (s : State) : Host.Outcome State Fault Refusal := s.onDev (dwellExpiry r)

/-- LEASE_DRILL (R315): applied at the next boundary. A MOVE has no DWELL (R7). -/
def leaseDrill (op : DrillOp) (r : DrillReq) (ref : CmdRef) (d : Dev) : Dev :=
  let ps := d.prot.ports.filter (fun e => e.2.pgid == r.pgid)
  if ps.isEmpty then d.complete ref .invalid
  else if !ps.any (fun e => e.2.state = .holder || e.2.state = .taking) then d.complete ref .denied
  else if ps.any (fun e => e.2.state = .taking || e.2.drill.isSome || e.2.move.isSome || e.2.take.isSome) then d.complete ref .busy
  else if (op ≠ .calibrate ∧ ps.any (fun e => !e.2.armed)) ∨ (op ≠ .move ∧ r.dwell ≠ 0 ∧ (r.dwell < 64 ∨ 80000 < r.dwell)) then d.complete ref .invalid
  else
    let x : Drill :=
      { op, ref := some ref, dwell := if r.dwell = 0 then 8000 else r.dwell, a := d.now + 1, moveAt := d.now + 9, ids := [], heard := [], maxOffset := 0,
        e := none, offsets := r.offsets.foldl (fun t e => tset t e.1 e.2) [], back := none }
    ps.foldl (fun d e => if e.2.state = .holder then d.modPort e.1 (fun p => { p with drill := some x }) else d) d
def execLeaseDrillDrill (ctx : Nat) (r : DrillReq) (s : State) : Host.Outcome State Fault Refusal := s.onDev (·.mailbox ctx 0x0903 (leaseDrill .drill r))
def execLeaseDrillCalibrate (ctx : Nat) (r : DrillReq) (s : State) : Host.Outcome State Fault Refusal :=
  s.onDev (·.mailbox ctx 0x0903 (leaseDrill .calibrate r))
def execLeaseDrillMove (ctx : Nat) (r : DrillReq) (s : State) : Host.Outcome State Fault Refusal := s.onDev (·.mailbox ctx 0x0903 (leaseDrill .move r))

/-- The nearest whole number, halves away from zero. -/
def roundDiv (s : Int) (n : Nat) : Int :=
  let q : Int := ((2 * s.natAbs + n) / (2 * n) : Nat)
  if s < 0 then -q else q

/-- CAL_MEAN_UPDATE (R303): after its first 64 ticks the new holder adds the mean offset to C; CAL_DRIFT beyond 8 bits. -/
def calMean (t : Nat) (d : Dev) : Dev :=
  match d.port t with
  | none => d
  | some p =>
    match p.mean with
    | none => d
    | some (until_, s, n) =>
      if d.now < until_ then d
      else
        let d := d.modPort t (fun p => { p with mean := none })
        if n = 0 then d
        else
          let m := roundDiv s n
          let d := d.modPort t (fun p => p.addCal m)
          let cal := (d.port t).elim 0 (fun q => q.cal)
          let d := if p.isLocal d then d.modPort p.peerTree (fun q => { q with cal }) else d
          if 8 * n < s.natAbs then d.protEvent p 0x288 (leInt 4 m) else d
def execCalMeanUpdate (tree : Nat) (s : State) : Host.Outcome State Fault Refusal := s.onDev (calMean tree)

/-! ### The boundary of a port (R21, R292 to R294) -/

/-- Could a quiet window occupy tick `x` under a schedule (R118, R293)? -/
def QwSet.mayCover (q : QwSet) (x : Nat) : Bool :=
  let w := if q.reach = 0 then 2 else 4
  decide ((x + q.period - q.phase % q.period) % q.period < w)

/-- The witness of the tick that has ended (R293): heard, silent, or neither. -/
def Port.see (p : Port) (sched : QwSet) (tick : Nat) (energy : Bool) : Port :=
  if sched.mayCover tick then p
  else { p with witness := (energy :: p.witness).take 8, silentRun := if energy then 0 else p.silentRun + 1 }

/-- A renewal by pulses at a boundary with C mod 80 = 0 (R292); the counts start afresh. -/
def Port.pulseRenew (p : Port) (now : Nat) : Port :=
  let good := p.pulse.isSome && decide (9 ≤ p.goodPulses) && !p.changePulse && p.peer.elim false (fun v => v.role == 0 && v.epoch == p.epoch)
  let p : Port := if good && p.state = .standby then { p with lastRenew := some now, holdRaised := false } else p
  { p with goodPulses := 0, changePulse := false }

/-- The lease logic of one port at a boundary, after the defects and before the frame; `energy` says that the tick that has ended was
heard. -/
def Dev.leaseBoundary (d : Dev) (t : Nat) (energy : Bool) : Dev :=
  match d.port t with
  | none => d
  | some p =>
    let sched := (d.mirrorOf p).sched
    let d := if p.state = .holder ∨ p.state = .taking then d else d.modPort t (fun p => p.see sched (d.now - 1) energy)
    let d := if d.now % 80 = 0 then d.modPort t (fun p => p.pulseRenew d.now) else d
    -- a port that gains the lease by a planned move is lit for its first frame
    let d := if (p.state = .standby ∨ p.state = .init) ∧ (d.tree t).lit ∧ !p.move.elim false (fun m => m.gain) then
        d.modTree t (fun x => { x with since := d.now, lanes := { x.lanes with state := .standby } }) else d
    let d : Dev := match p.drill with
      | some r =>
        if p.state = .holder ∧ r.ref.isSome ∧ p.move.isNone ∧ r.a = d.now then d.moveStart t p r
        else if p.state = .holder ∧ r.ref.isNone ∧ p.move.isNone then (match r.back with
          | some b =>
            if b.2 = 1 ∧ r.verdict d.now ≠ some 1 then d.clearBack t p else d.backStart t p r b.1 b.2
          | none => d)
        else d
      | none => d
    let d := (d.port t).elim d (fun p => p.move.elim d (fun m => d.moveBoundary t p m))
    let d := (d.port t).elim d (fun p => d.calBoundary t p)
    let d := (d.port t).elim d (fun p => p.yield.elim d (fun y => (d.drillEnd t 2).becomeStandby t y.1 y.2))
    let d := d.expiryTest t
    let d := (d.port t).elim d (fun p => match p.take with
      | some c => if (p.state = .standby ∨ p.state = .init) ∧ c.2 ≤ d.now then d.take t c.1 else d
      | none => d)
    let d := (d.port t).elim d (fun p => if p.state = .taking ∧ (d.tree t).lit then d.takeDone t p else d)
    let d := (d.port t).elim d (fun p => if p.state = .holder then (d.releaseTest t p).handoverAgain t p else d)
    if d.now % 80 = 0 then d.sendHeartbeat t false else d

/-- May the Lockkeeper of a tree build for tick `x` (R301, R304, R305)? An unprotected tree always; `empty` says that the manifest holds no grant. -/
def Dev.mayBuild (d : Dev) (t x : Nat) : Bool :=
  match d.port t with
  | none => true
  | some p => match p.move with
    | some m => if m.gain then decide (m.moveAt ≤ d.now + 1) else decide (d.now + 1 < m.moveAt)
    | none => p.state = .holder || (p.state = .taking && decide (d.now ≤ x))
def Dev.buildEmpty (d : Dev) (t x : Nat) : Bool :=
  match d.port t with
  | none => false
  | some p =>
    (p.state = .taking) || p.from_.elim false (fun f => decide (x < f)) ||
      p.move.elim false (fun m => !m.gain && m.cal && decide (m.moveAt ≤ x)) || p.move.elim false (fun m => m.gain && m.cal && decide (x < m.moveAt + 9))

/-! ### Groups (R286, R287, R289, R313, R314) -/

/-- The dozes of a tree that joins a group end at their next wake tick; offers are withdrawn (R287). -/
def Dev.endDozes (d : Dev) (t : Nat) : Dev :=
  (d.tree t).terms.foldl (fun d x =>
    if x.dozes d.now then d.endDoze t x else d.cancelDoze t x) d

/-- PROT_GROUP_CREATE with OP CREATE. A group on one device is created with both its ports: the port that the ACTIVE
record names holds the lease, PRIMARY where there is none or PRIMARY is lit (R289, R294, log entry 99). -/
def groupCreate (r : GroupReq) (ref : CmdRef) (d : Dev) : Dev :=
  let here := r.peerDev == d.dev.devAddr
  let clash := d.prot.ports.any (fun e => e.2.pgid == r.pgid && !(e.1 == r.tree && e.2.peerDev == r.peerDev && e.2.peerTree == r.peerTree) &&
    !(here && e.1 == r.peerTree && e.2.peerTree == r.tree))
  let absent := !d.treePresent r.tree || decide (63 < r.peerDev) || decide (63 < r.peerTree) || (here && (!d.treePresent r.peerTree || r.peerTree == r.tree))
  let apart := !here && !d.tickLocked r.peerDev
  let pinBad := r.pulse.elim false (fun q => decide (1 < q))
  if 1023 < r.pgid ∨ absent ∨ clash ∨ apart ∨ pinBad then d.complete ref .invalid
  else if (d.port r.tree).isSome ∨ (here ∧ (d.port r.peerTree).isSome) ∨
      d.prot.ports.any (fun e => r.pulse.isSome && e.2.pulse == r.pulse && e.2.peerDev != r.peerDev) then d.complete ref .noResource
  else
    let prim := if r.primary || !here then r.tree else r.peerTree
    let epoch := (d.tree prim).epoch
    let other := if prim = r.tree then r.peerTree else r.tree
    let holds := if !(d.tree prim).lit ∧ tget d.prot.active r.pgid = some other then other else prim
    let mk (primary : Bool) (peerTree : Nat) (st : LeaseState) : Port :=
      { Port.new r.pgid primary r.peerDev peerTree r epoch d.now with state := st, holderDev := d.dev.devAddr }
    let ports : List (Nat × Port) :=
      if here then [(r.tree, mk r.primary r.peerTree (if holds = r.tree then .holder else .standby)),
                    (r.peerTree, mk (!r.primary) r.tree (if holds = r.tree then .standby else .holder))]
      else [(r.tree, mk r.primary r.peerTree (if r.primary && (d.tree r.tree).lit then .holder else .init))]
    let all : Tbl Port := ports.foldl (fun t e => tset t e.1 e.2) d.prot.ports
    let d : Dev := { d with prot := { d.prot with ports := all } }
    let d := ports.foldl (fun d e =>
      if e.2.state = .holder then ((d.roleHolder e.1).addHeld e.1).recordActive r.pgid e.1 else d) d
    let d := (ports.foldl (fun d e => d.endDozes e.1) d).setReserve
    d.complete ref .ok (le 2 epoch ++ le 1 ((d.port r.tree).elim 0 (fun p => p.state.code)))
def execProtGroupCreate (ctx : Nat) (r : GroupReq) (s : State) : Host.Outcome State Fault Refusal := s.onDev (·.mailbox ctx 0x0901 (groupCreate r))

/-- PROT_GROUP_CREATE with OP DELETE: a holder keeps lighting as an unprotected tree; a standby idles its lanes.
The EPOCH that a standby port held last is the one it last adopted from the holder (DESIGN CHOICE, log entry 115). -/
def groupDelete (pgid : Nat) (ref : CmdRef) (d : Dev) : Dev :=
  let ps := d.prot.ports.filter (fun e => e.2.pgid == pgid)
  match ps with
  | [] => d.complete ref .invalid
  | e0 :: _ =>
    let d := ps.foldl (fun d e => d.drillEnd e.1 2) d
    let d := ps.foldl (fun d e =>
      let d := { d with prot := { d.prot with ports := tdel d.prot.ports e.1, active := tdel d.prot.active pgid } }
      if e.2.state = .holder then d
      else d.modTree e.1 (fun x => { x with attach := .detached, since := d.now, epoch := e.2.epoch, lanes := { x.lanes with state := .idle, wake := none } })) d
    (d.setReserve.pulseIdle).complete ref .ok (le 2 e0.2.epoch ++ le 1 e0.2.state.code)
def execProtGroupDelete (ctx pgid : Nat) (s : State) : Host.Outcome State Fault Refusal := s.onDev (·.mailbox ctx 0x0901 (groupDelete pgid))

/-- LEASE_STATUS (R314): of a group on one device, its PRIMARY. -/
def leaseStatus (pgid : Nat) (ref : CmdRef) (d : Dev) : Dev :=
  let ps := d.prot.ports.filter (fun e => e.2.pgid == pgid)
  match (ps.find? (fun e => e.2.primary)).or ps.head? with
  | none => d.complete ref .invalid
  | some (_, p) =>
    let holds := p.state = .holder
    let hb := p.peerFresh d.now
    let pulse := p.lastPulse.elim false (fun x => decide (d.now < x + 16))
    let heard := if holds then p.peer.elim false (fun v => v.heard) else p.heard
    let sf := if holds then p.peer.elim false (fun v => v.sf) else p.witnessSf
    let flags := b2n p.armed + 2 * b2n hb + 4 * b2n pulse + 8 * b2n (holds || !p.expired d.now) + 16 * b2n heard + 32 * b2n sf
    d.complete ref .ok (le 1 p.state.code ++ le 1 (b2n (!p.primary)) ++ le 2 p.epoch ++ le 1 p.holderDev ++ le 1 flags ++ le 1 p.drillResult ++ le 1 0 ++
      leInt 4 p.cal ++ le 4 p.switches ++ fromResp (p.lastRenew.getD 0) ++ fromResp p.lastSwitch ++ fromResp p.lastDrill)
def execLeaseStatus (ctx pgid : Nat) (s : State) : Host.Outcome State Fault Refusal := s.onDev (·.mailbox ctx 0x0902 (leaseStatus pgid))

/-! ### Twin pairs (R167, R307 to R310, R316) -/

/-- The trees of a pair as (device, tree); of a flow on another device the tree that device uses. -/
def Dev.pairTrees (d : Dev) (p : Pair) : (Nat × Nat) × (Nat × Nat) :=
  let tree (dev flow : Nat) : Nat := if dev = d.dev.devAddr then (d.flow flow).elim 64 (fun f => f.tree) else Config.remoteTree dev flow % 64
  ((p.devA, tree p.devA p.flowA), (p.devB, tree p.devB p.flowB))

/-- The partner trees of a tree of any device (R167), each once. -/
def Dev.partnersOf (d : Dev) (pairs : Tbl Pair) (me : Nat × Nat) : List (Nat × Nat) :=
  (pairs.filterMap (fun e =>
    let x := d.pairTrees e.2
    if x.1 = me ∧ x.2 ≠ me then some x.2 else if x.2 = me ∧ x.1 ≠ me then some x.1 else none)).eraseDups
/-- The partner trees of a tree of this device. -/
def Dev.partners (d : Dev) (pairs : Tbl Pair) (t : Nat) : List (Nat × Nat) := d.partnersOf pairs (d.dev.devAddr, t)
/-- Would any tree of the pairs have more than 16 partner trees (R167)? -/
def Dev.partnersOver (d : Dev) (pairs : Tbl Pair) : Bool :=
  pairs.any (fun e => let x := d.pairTrees e.2; decide (16 < (d.partnersOf pairs x.1).length) || decide (16 < (d.partnersOf pairs x.2).length))

/-- The EPOCH of a sequence that starts again (R307, R308): another than the pair's last; even at the sequencer, odd at the backup. -/
def nextTwinEpoch (last : Option Nat) (backup : Bool) : Nat := last.elim (b2n backup) (fun e => (e / 2 + 1) % 64 * 2 + b2n backup)

/-- A pair's key. -/
def pairKey (dev flow : Nat) : Nat := dev * 131072 + flow

/-- TWIN_FLOW_SET with OP SET (R316). A set restarts the sequence, so it takes a new epoch (R307). -/
def twinSet (r : TwinReq) (ref : CmdRef) (d : Dev) : Dev :=
  let me := d.dev.devAddr
  let unknown (dev flow : Nat) : Bool := decide (131071 < flow) || decide (63 < dev) || (dev == me && (d.flow flow).elim true (fun f => decide (1 < f.dir)))
  let key := pairKey r.devA r.flowA
  let p : Pair :=
    { devA := r.devA, devB := r.devB, flowA := r.flowA, flowB := r.flowB, pairHere := r.pairUp, seqHere := r.seq, backupHere := r.backup, seqDev := r.seqDev,
      backupDev := r.backupDev, seq := 0, epoch := nextTwinEpoch (tget d.prot.twinEpochs key) (r.backup && !r.seq), up := none, down := none }
  let x := d.pairTrees p
  if unknown r.devA r.flowA || unknown r.devB r.flowB || x.1 == x.2 || decide (63 < r.seqDev) || decide (63 < r.backupDev) then d.complete ref .invalid
  else if ((tget d.prot.pairs key).isNone ∧ 16384 ≤ d.prot.pairs.length) ∨
      d.partnersOver (tset d.prot.pairs key p) then d.complete ref .noResource
  else
    ({ d with prot := { d.prot with pairs := tset d.prot.pairs key p, twinEpochs := tset d.prot.twinEpochs key p.epoch } }).complete ref .ok (le 1 p.epoch)
def execTwinFlowSet (ctx : Nat) (r : TwinReq) (s : State) : Host.Outcome State Fault Refusal := s.onDev (·.mailbox ctx 0x0904 (twinSet r))

/-- TWIN_FLOW_SET with OP CLEAR. -/
def twinClear (devA flowA : Nat) (ref : CmdRef) (d : Dev) : Dev :=
  match tget d.prot.pairs (pairKey devA flowA) with
  | none => d.complete ref .invalid
  | some p =>
    -- the counters of a pair that is gone read zero (R477)
    ({ d with prot := { d.prot with pairs := tdel d.prot.pairs (pairKey devA flowA) }, ctr := d.ctr.clear 15 (2 * flowA) 2 }).complete ref .ok (le 1 p.epoch)
def execTwinFlowClear (ctx devA flowA : Nat) (s : State) : Host.Outcome State Fault Refusal := s.onDev (·.mailbox ctx 0x0904 (twinClear devA flowA))

/-- What R310 answers for a copy; `swap`: the copy of PATH 0 takes the place of its twin, delivered in this clock. -/
inductive PairEnd where
  | deliver | dup | stale | epoch | swap
deriving DecidableEq, Repr

/-- Mark a sequence as seen on a path, and keep the window h − 255 to h. -/
def PairRec.mark (r : PairRec) (s path : Nat) : PairRec :=
  let keep (l : List Nat) : List Nat := l.filter (fun x => decide ((r.h + 2 ^ 24 - x) % 2 ^ 24 < 256))
  let add (l : List Nat) : List Nat := if l.contains s then l else s :: l
  if path = 0 then { r with seenA := keep (add r.seenA), seenB := keep r.seenB } else { r with seenA := keep r.seenA, seenB := keep (add r.seenB) }

/-- Pairing of a copy (R310): the answer, the record, and how many sequences left the window seen on path A only and on path B only. -/
def pairing (rec_ : Option PairRec) (s e path now : Nat) : PairEnd × PairRec × Nat × Nat :=
  let fresh : PairRec := ({ epoch := e, h := s, seenA := [], seenB := [], last := now, lastSeq := s, lastPath := path } : PairRec).mark s path
  match rec_ with
  | none => (.deliver, fresh, 0, 0)
  | some r =>
    if r.last + 5000000 < now then (.deliver, fresh, 0, 0)
    else if e ≠ r.epoch then (.epoch, r, 0, 0)
    else
      let x := (s + 2 ^ 24 - r.h) % 2 ^ 24
      if 1 ≤ x ∧ x < 2 ^ 23 then
        let leaves (q : Nat) : Bool := decide (256 ≤ (s + 2 ^ 24 - q) % 2 ^ 24)
        let a := (r.seenA.filter (fun q => leaves q && !r.seenB.contains q)).length
        let b := (r.seenB.filter (fun q => leaves q && !r.seenA.contains q)).length
        (.deliver, ({ r with h := s, last := now, lastSeq := s, lastPath := path }).mark s path, a, b)
      else
        let y := (r.h + 2 ^ 24 - s) % 2 ^ 24
        if 256 ≤ y then (.stale, r, 0, 0)
        else if r.seenA.contains s || r.seenB.contains s then
          if path = 0 ∧ r.lastPath = 1 ∧ r.lastSeq = s ∧ r.last = now then (.swap, ({ r with lastPath := 0 }).mark s path, 0, 0)
          else (.dup, r.mark s path, 0, 0)
        else (.deliver, ({ r with last := now, lastSeq := s, lastPath := path }).mark s path, 0, 0)

/-- PAIR (R310) for a copy with a twin tag (R79): whether it is delivered, and the counts; `down` is 0 upstream, 1 downstream. Twins of one clock carry the
same frame, so where the PATH 1 copy came first only the counts name the PATH 0 copy as the one delivered. -/
def Dev.pairCopy (d : Dev) (key tag down now : Nat) : Bool × Dev :=
  match tget d.prot.pairs key with
  | none => (false, d)
  | some p =>
    let path := tag / 128 % 2
    let inst := p.flowA * 2 + down
    let r := pairing (if down = 0 then p.up else p.down) (tag / 256) (tag % 128) path (d.clk now)
    let p : Pair := if down = 0 then { p with up := some r.2.1 } else { p with down := some r.2.1 }
    let d := { d with prot := { d.prot with pairs := tset d.prot.pairs key p } }
    let d := if r.2.2.1 = 0 then d else d.count 15 .pairOnlyA inst r.2.2.1
    let d := if r.2.2.2 = 0 then d else d.count 15 .pairOnlyB inst r.2.2.2
    let d := if r.2.2.1 + r.2.2.2 = 0 then d else d.raiseFirst 0x28A (le 3 p.flowA)
    match r.1 with
    | .deliver => (true, d.count 15 (if path = 0 then .pairFirstA else .pairFirstB) inst)
    | .dup => (false, d.count 15 .pairDup inst)
    | .swap => (false, ((d.uncount 15 .pairFirstB inst).count 15 .pairFirstA inst).count 15 .pairDup inst)
    | .stale => (false, d.count 15 .pairStale inst)
    | .epoch => (false, (d.count 15 .pairEpochMismatch inst).raiseFirst 0x28B (le 3 p.flowA))

end Sys2Proof.Machine
end

