-- ==== Sys2Proof/Machine/Classify.lean ====
section
/-!
DEFINITION. The classifier (chapter 09): parse walk, key, length fields, exceptions, rules, header actions with their checksums, recirculation
buffers, and the rule-set version commands.
-/
namespace Sys2Proof.Machine

/-! ### The walk (R228 to R230) -/

/-- The position of the lowest set bit of a byte mask. -/
def lowBit (m : Nat) : Nat := ((List.range 8).find? (fun i => bitOf m i)).getD 0

/-- A byte of a frame. -/
def byteAt (l : Bytes) (i : Nat) : Nat := (lget l i 0).toNat

/-- A header that the walk recorded: type, offset, valid bit. -/
structure HdrRec where
  typ : Nat
  off : Nat
  vbit : Nat
deriving DecidableEq, Repr

/-- The walk so far. -/
structure Walk where
  key : Bytes
  valid : Nat
  recs : List HdrRec
  deep : Bool
  short : Bool
deriving DecidableEq, Repr

def Walk.start : Walk := { key := zeros 64, valid := 0, recs := [], deep := false, short := false }

/-- Write bytes over a string at an offset. -/
def overwrite (l : Bytes) (o : Nat) (b : Bytes) : Bytes := l.take o ++ b ++ l.drop (o + b.length)

/-- The offsets of the bytes that a node reads (R228): selector, whatever its mask, extract, advance field. -/
def nodeReads (nd : ParseNode) (o : Nat) : List Nat :=
  [o + nd.selOff, o + nd.selOff + 1] ++ rangeFrom (o + nd.extOff) nd.extLen ++
    (if nd.advFoff = 0xFF then [] else [o + nd.advFoff])

/-- The next node (R228). -/
def nodeNext (v : Slot) (nd : ParseNode) (sel : Nat) : Nat :=
  if nd.selMask = 0 then nd.defaultNext
  else
    let ts := (rangeFrom nd.transFirst nd.transCount).filterMap (fun i => tget v.trans i)
    ((ts.find? (fun t => t.1 == sel)).map (·.2)).getD nd.defaultNext

/-- Walk from node `n` at offset `o`; `fuel` is 17 less the nodes visited. -/
def walk (v : Slot) (pkt : Bytes) : (fuel n o : Nat) → Walk → Walk
  | 0, _, _, w => w
  | f + 1, n, o, w =>
    match (if n = 0xFE then none else tget v.nodes n) with
    | none => w
    | some nd =>
      if f = 0 then { w with deep := true }
      else
        let rs := nodeReads nd o
        if rs.any (fun i => decide (128 ≤ i)) then { w with deep := true }
        else if rs.any (fun i => decide (pkt.length ≤ i)) then { w with short := true }
        else
          let w : Walk :=
            { w with
              key := overwrite w.key nd.extKey (slice pkt (o + nd.extOff) nd.extLen),
              valid := Nat.lor w.valid (2 ^ (nd.vbit % 16)),
              recs := w.recs ++ [{ typ := nd.hdrType, off := o, vbit := nd.vbit % 16 }] }
          let sel := Nat.land (beAt pkt (o + nd.selOff) 2) nd.selMask
          let adv := if nd.advFoff = 0xFF then 0 else
            Nat.land (byteAt pkt (o + nd.advFoff)) nd.advFmask / 2 ^ lowBit nd.advFmask * nd.advFscale
          walk v pkt f (nodeNext v nd sel) (o + nd.advFixed + adv) w

/-- The key (R231). -/
def buildKey (w : Walk) (pk : Pkt) (second : Bool) (tag : Nat) (deep conflict : Bool) : Bytes :=
  w.key ++ be 1 pk.input ++ be 1 pk.port ++ be 4 (pk.inFlow.elim 0 (fun f => 2 ^ 31 + f)) ++ be 1 (b2n second) ++
    be 1 (b2n deep + 2 * b2n conflict) ++ be 2 tag ++ be 2 w.valid ++ be 4 0

/-! ### Length fields (R232) -/

/-- The declared extent of a recorded header, if it carries a length that lies in the frame. -/
def declared (pkt : Bytes) (r : HdrRec) : Option Nat :=
  let at_ (o : Nat) : Option Nat := if r.off + o + 2 ≤ pkt.length then some (beAt pkt (r.off + o) 2) else none
  match r.typ with
  | 1 => (at_ 12).bind (fun l => if l < 0x600 then some (14 + l) else none)
  | 4 => at_ 2
  | 5 => (at_ 4).map (fun l => 40 + l)
  | 6 => at_ 4
  | 8 => at_ 2
  | _ => none

/-- Resolve the extents of the length-bearing headers, outermost first: the offset of each with its resolved extent, and whether LENGTH_CONFLICT arises.
`avail` is the extent available to the first one. -/
def resolve (frameLen : Nat) : (avail : Nat) → List (Nat × Nat) → List (Nat × Nat) × Bool
  | _, [] => ([], false)
  | avail, (off, dec) :: t =>
    let ext := if avail < dec then avail else dec
    let short := t.isEmpty && decide (dec < avail) && frameLen != 60
    let r := resolve frameLen (ext - ((t.head?).elim 0 (·.1) - off)) t
    ((off, ext) :: r.1, decide (avail < dec) || short || r.2)

/-- The resolved extents of a walk (R232), and whether it raises LENGTH_CONFLICT. -/
def extentsOf (pkt : Bytes) (recs : List HdrRec) : List (Nat × Nat) × Bool :=
  let ls := recs.filterMap (fun r => (declared pkt r).map (fun x => (r.off, x)))
  resolve pkt.length (pkt.length - (ls.head?).elim 0 (·.1)) ls

/-- How far a header at offset `o` reaches: to the resolved end of the innermost length-bearing header that it is or stands in; none where none does. -/
def reachOf (extents : List (Nat × Nat)) (o : Nat) : Option Nat :=
  ((extents.filter (fun e => decide (e.1 ≤ o))).getLast?).map (fun e => e.1 + e.2 - o)

/-! ### Rules (R234) -/

/-- A rule matches a key. -/
def ruleMatches (r : Rule) (key : Bytes) : Bool := (List.zipWith (fun k m => k &&& m) key r.mask) == r.value

/-- The winner among the rules, and whether equal priorities were decided by RULE_ID. -/
def winner (rules : List Rule) (key : Bytes) : Option Rule × Bool :=
  let ms := rules.filter (fun r => ruleMatches r key)
  let better (a b : Rule) : Bool := decide (b.priority < a.priority) || (a.priority == b.priority && decide (a.id < b.id))
  let best := ms.foldl (fun (o : Option Rule) r => match o with
    | none => some r
    | some b => if better r b then some r else some b) none
  (best, best.elim false (fun b => decide (1 < (ms.filter (fun r => r.priority == b.priority)).length)))

/-- Can one key match two rules (R245)? -/
def rulesMeet (a b : Rule) : Bool :=
  let own (r : Rule) : Bool := (List.zipWith (fun v m => v &&& m) r.value r.mask) == r.value
  own a && own b && (List.zipWith (fun x y => x == y) (List.zipWith (fun v m => v &&& m) a.value b.mask)
    (List.zipWith (fun v m => v &&& m) b.value a.mask)).all (fun c => c)

/-- The pairs of equal-priority rules that some key can match together. -/
def equalOverlap : List Rule → Nat
  | [] => 0
  | r :: t => (t.filter (fun q => q.priority == r.priority && rulesMeet r q)).length + equalOverlap t

/-! ### Header actions (R236, R237) -/

/-- A header during edits: its type, valid bit, offset in the frame as received and as it stands; none once removed. `reach` is how many of its bytes edits
may use: the resolved extent where a LENGTH_CONFLICT is forwarded (R233, log entry 97), none where there is none. -/
structure EdHdr where
  typ : Nat
  vbit : Nat
  orig : Nat
  cur : Option Nat
  reach : Option Nat
deriving DecidableEq, Repr

/-- Edits in progress: bytes, headers, growth, VLAN tags and MPLS labels pushed, skipped entries, and the result so far. -/
structure Edit where
  data : Bytes
  hdrs : List EdHdr
  growth : Int
  tags : Nat
  labels : Nat
  skips : Nat
  flow : Option Nat
  cls : Option Nat
  mirrors : List (Nat × Nat)
deriving DecidableEq, Repr

/-- How an action list ends. -/
inductive ActEnd where
  | result | drop | mgmt (ring : Nat) | recirc (start tag : Nat)
deriving DecidableEq, Repr

def Edit.skip (e : Edit) : Edit := { e with skips := e.skips + 1 }
/-- The first header of a type that the walk recorded and that stands. -/
def Edit.firstHdr (e : Edit) (typ : Nat) : Option EdHdr := e.hdrs.find? (fun h => h.typ == typ && h.cur.isSome)
/-- Where that header stands. -/
def Edit.first (e : Edit) (typ : Nat) : Option Nat := (e.firstHdr typ).bind (·.cur)
/-- Write bytes in place, if they lie in the frame and below byte 128. -/
def Edit.write (e : Edit) (o : Nat) (b : Bytes) : Edit :=
  if o + b.length ≤ 128 ∧ o + b.length ≤ e.data.length then { e with data := overwrite e.data o b } else e.skip
/-- Write bytes at an offset within a header, if the header was recorded and they lie within its reach. -/
def Edit.put (e : Edit) (h : Option EdHdr) (rel : Nat) (b : Nat → Bytes) : Edit :=
  match h.bind (fun h => h.cur.map (fun o => (o, h.reach))) with
  | none => e.skip
  | some (o, reach) => if reach.elim false (fun n => decide (n < rel + (b o).length)) then e.skip else e.write (o + rel) (b o)
/-- Insert bytes at an offset; the headers from there on move. -/
def Edit.insert (e : Edit) (o : Nat) (b : Bytes) : Edit :=
  if 128 ≤ o ∨ e.data.length < o ∨ 16 < e.growth + (b.length : Int) then e.skip
  else { e with data := e.data.take o ++ b ++ e.data.drop o, growth := e.growth + (b.length : Int),
                hdrs := e.hdrs.map (fun h => { h with cur := h.cur.map (fun c => if o ≤ c then c + b.length else c) }) }
/-- Remove bytes; the header at offset `gone` goes, the headers behind move. -/
def Edit.remove (e : Edit) (o n gone : Nat) : Edit :=
  if 128 < o + n ∨ e.data.length < o + n then e.skip
  else { e with data := e.data.take o ++ e.data.drop (o + n), growth := e.growth - (n : Int),
                hdrs := e.hdrs.map (fun h => { h with cur := h.cur.bind (fun c => if c = gone then none else some (if o < c then c - n else c)) }) }

/-- PUSH_VLAN (R236): after the source address of the ETH header. -/
def Edit.pushVlan (e : Edit) (a : Action) : Edit :=
  match e.first 1 with
  | none => e.skip
  | some o =>
    let e2 := e.insert (o + 12) (be 2 a.a16 ++ be 2 a.a32)
    if e2.skips ≠ e.skips then e2 else { e2 with tags := e.tags + 1 }

/-- Where the last L2 EtherType before an offset stands: in the last ETH or VLAN header, behind the tags that this list pushed where that is the ETH
header whose tags they are. -/
def Edit.typeBefore (e : Edit) (o : Nat) : Option Nat :=
  let l2 := (e.hdrs.filter (fun h => (h.typ == 1 || h.typ == 2) && h.cur.elim false (fun c => decide (c < o)))).getLast?
  l2.bind (fun h => h.cur.map (fun c => if h.typ = 1 then c + 12 + (if some c = e.first 1 then 4 * e.tags else 0) else c + 2))

/-- PUSH_MPLS (R236): after the last L2 EtherType, which becomes 0x8847. -/
def Edit.pushMpls (e : Edit) (a : Action) : Edit :=
  match e.typeBefore e.data.length with
  | none => e.skip
  | some t =>
    let old := beAt e.data t 2
    let s := old != 0x8847 && old != 0x8848
    let label := a.a32 / 512 * 512 + 256 * b2n s + a.a32 % 256
    let e2 := e.insert (t + 2) (be 4 label)
    if e2.skips ≠ e.skips then e2 else { e2 with data := overwrite e2.data t (be 2 0x8847), labels := e.labels + 1 }

/-- POP_MPLS: the first recorded label goes; when its S bit was 1 the EtherType before the labels becomes A16. -/
def Edit.popMpls (e : Edit) (a : Action) : Edit :=
  match e.first 3 with
  | none => e.skip
  | some o =>
    let s := bitOf (byteAt e.data (o + 2)) 0
    let t := (e.typeBefore o).getD (o - 2 - 4 * e.labels)
    let e2 := e.remove o 4 o
    if e2.skips ≠ e.skips ∨ !s then e2 else e2.write t (be 2 a.a16)

/-- SET_DSCP of the outermost IPv4 or IPv6 header. -/
def Edit.setDscp (e : Edit) (v : Nat) : Edit :=
  let h := e.hdrs.find? (fun h => (h.typ == 4 || h.typ == 5) && h.cur.isSome)
  if h.elim false (fun h => h.typ == 4) then e.put h 1 (fun o => be 1 (v % 64 * 4 + byteAt e.data (o + 1) % 4))
  else e.put h 0 (fun o => be 1 (byteAt e.data o / 16 * 16 + v % 64 / 4) ++ be 1 (v % 4 * 64 + byteAt e.data (o + 1) % 64))

/-- SET_VLAN: VID and PCP of the VLAN header. -/
def Edit.setVlan (e : Edit) (a : Action) : Edit :=
  e.put (e.firstHdr 2) 0 (fun o => be 2 (a.a8 % 8 * 8192 + beAt e.data o 2 / 4096 % 2 * 4096 + a.a16 % 4096))

/-- One action entry (R236): the edit after it, and the end of the list where it ends it. -/
def Edit.act (e : Edit) (a : Action) : Edit × Option ActEnd :=
  match a.op with
  | 0x00 => (e, none)
  | 0x01 => ({ e with flow := some (a.a32 % 131072) }, none)
  | 0x02 => ({ e with cls := some (a.a8 % 8) }, none)
  | 0x03 => (e, some .drop)
  | 0x04 => (e, some (.mgmt a.a8))
  | 0x05 => ({ e with mirrors := e.mirrors ++ [(a.a32 % 131072, a.a8 % 8)] }, none)
  | 0x06 => (e.pushVlan a, none)
  | 0x07 => ((e.first 2).elim e.skip (fun o => e.remove (o - 2) 4 o), none)
  | 0x08 => (e.setVlan a, none)
  | 0x09 => (e.pushMpls a, none)
  | 0x0A => (e.popMpls a, none)
  | 0x0B => (e.put (e.firstHdr 8) 0 (fun _ => be 2 a.a16), none)
  | 0x0C => (e.put ((e.hdrs.filter (fun h => h.vbit == a.a8 / 16 && h.cur.isSome)).getLast?) a.a16 (fun _ => be (a.a8 % 8) a.a32), none)
  | 0x0D => (e.setDscp a.a8, none)
  | 0x0E => (e, some (.recirc a.a8 a.a16))
  | _ => (e.skip, none)

/-- An action list in order. -/
def Edit.run : List Action → Edit → Edit × ActEnd
  | [], e => (e, .result)
  | a :: t, e =>
    match e.act a with
    | (e, some x) => (e, x)
    | (e, none) => Edit.run t e

/-! ### Checksums (R238) -/

/-- Fold a sum to 16 bits in ones'-complement arithmetic. -/
def fold16 (x : Nat) : Nat :=
  let a := x / 65536 + x % 65536
  let b := a / 65536 + a % 65536
  b / 65536 + b % 65536

/-- 16-bit words of a byte string, an odd last byte padded. -/
def words16 : Bytes → List Nat
  | [] => []
  | [a] => [a.toNat * 256]
  | a :: b :: t => (a.toNat * 256 + b.toNat) :: words16 t

/-- The checksum over words. -/
def csum (l : List Nat) : Nat := 65535 - fold16 (sumOf l)

/-- An incremental update of a checksum for changed words. -/
def csumUpdate (c : Nat) (old new : List Nat) : Nat :=
  let ch := (List.zip old new).filter (fun p => p.1 != p.2)
  65535 - fold16 ((65535 - c) + sumOf (ch.map (fun p => 65535 - p.1)) + sumOf (ch.map (fun p => p.2)))

/-- The checksum field of an IPv4 header that changed: recomputed where it was correct, else updated incrementally (true: it was wrong). -/
def fixIpv4 (before data : Bytes) (h : EdHdr) (o : Nat) : Bytes × Bool :=
  let n := byteAt data o % 16 * 4
  let n := h.reach.elim n (fun r => if r < n then r else n)
  let old := slice before h.orig n
  let new := slice data o n
  if old = new ∨ data.length < o + n ∨ n < 12 then (data, false)
  else
    let ok := fold16 (sumOf (words16 old)) == 65535
    let zero (l : Bytes) : Bytes := overwrite l 10 [0, 0]
    let c := if ok then csum (words16 (zero new)) else csumUpdate (beAt new 10 2) (words16 (zero old)) (words16 (zero new))
    (overwrite data (o + 10) (be 2 c), !ok)

/-- The length in the pseudo-header of the L4 header at `o4` behind the IP header at `o`: the UDP length, or for TCP what the length of the IP header leaves
from `o4` on. -/
def pseudoLength (l : Bytes) (typ o l4 o4 : Nat) : Nat :=
  if l4 = 6 then beAt l (o4 + 4) 2
  else if typ = 4 then (beAt l (o + 2) 2 + 65536 - (o4 - o)) % 65536
  else (beAt l (o + 4) 2 + 40 + 65536 - (o4 - o)) % 65536

/-- The protocol of the L4 header at `o4`: the next header of the last IPv6 extension header before it; `nh` announces the header at `o`. -/
def ipv6Proto (l : Bytes) (o4 : Nat) : (fuel nh o : Nat) → Nat
  | 0, nh, _ => nh
  | n + 1, nh, o =>
    if o4 ≤ o ∨ !([0, 43, 44, 51, 60, 135, 139, 140].contains nh) then nh
    else
      let len := if nh = 44 then 8 else if nh = 51 then (byteAt l (o + 1) + 2) * 4 else (byteAt l (o + 1) + 1) * 8
      ipv6Proto l o4 n (byteAt l o) (o + len)

/-- The pseudo-header words: addresses, protocol and length. -/
def pseudo (l : Bytes) (typ o l4 o4 : Nat) : List Nat :=
  (if typ = 4 then words16 (slice l (o + 12) 8) ++ [byteAt l (o + 9)] else words16 (slice l (o + 8) 32) ++ [ipv6Proto l o4 16 (byteAt l (o + 6)) (o + 40)]) ++
    [pseudoLength l typ o l4 o4]

/-- The checksum of a UDP or TCP header, updated for the changed bytes of the header and of its pseudo-header. -/
def fixL4 (before data : Bytes) (ip : Option EdHdr) (h : EdHdr) (o : Nat) : Bytes :=
  let n := if h.typ = 6 then 8 else byteAt data (o + 12) / 16 * 4
  let at_ := if h.typ = 6 then 6 else 16
  if data.length < o + n ∨ n < at_ + 2 ∨ h.reach.elim false (fun r => decide (r < n)) then data
  else
    let zero (l : Bytes) : Bytes := overwrite l at_ [0, 0]
    let old := words16 (zero (slice before h.orig n)) ++ ip.elim [] (fun p => pseudo before p.typ p.orig h.typ h.orig)
    let new := words16 (zero (slice data o n)) ++ ip.elim [] (fun p => pseudo data p.typ (p.cur.getD 0) h.typ o)
    let c := beAt data (o + at_) 2
    if old = new ∨ (h.typ = 6 ∧ c = 0 ∧ ip.elim false (fun p => p.typ = 4)) then data
    else
      let u := csumUpdate c old new
      overwrite data (o + at_) (be 2 (if h.typ = 6 ∧ u = 0 then 0xFFFF else u))

/-- The headers that a list of records names: two nodes may record one header, which is one all the same. -/
def distinctHdrs : List EdHdr → List EdHdr
  | [] => []
  | h :: t => h :: (distinctHdrs t).filter (fun x => !(x.typ == h.typ && x.orig == h.orig))

/-- Bring the checksums up to date after the list, each header once: the bytes, and whether a received IPv4 checksum was wrong. -/
def fixChecksums (before : Bytes) (e : Edit) : Bytes × Bool :=
  let step (acc : Bytes × Bool × Option EdHdr) (h : EdHdr) : Bytes × Bool × Option EdHdr :=
    match h.cur with
    | none => acc
    | some o =>
      if h.typ = 4 then
        let r := fixIpv4 before acc.1 h o
        (r.1, acc.2.1 || r.2, some h)
      else if h.typ = 5 then (acc.1, acc.2.1, some h)
      else if h.typ = 6 ∨ h.typ = 7 then (fixL4 before acc.1 acc.2.2 h o, acc.2.1, acc.2.2)
      else acc
  let r := (distinctHdrs e.hdrs).foldl step (e.data, false, none)
  (r.1, r.2.1)

/-! ### A pass (R233, R234, R239) -/

/-- How a pass of the classifier ends: the packet goes on with a result, is dropped, redirected, or waits for a second pass. `mirrors` are the copies of the
rule's MIRROR entries, which a DROP or TO_MGMT behind them leaves (R236). -/
inductive ClsEnd where
  | result (flow cls : Nat) (mirrors : List (Nat × Nat))
  | drop (mirrors : List (Nat × Nat))
  | mgmt (ring : Nat) (mirrors : List (Nat × Nat))
  | recirc (start tag : Nat)
deriving DecidableEq, Repr

/-- Count a statistic of the classifier per INPUT and per device (R248). -/
def Dev.countCls (d : Dev) (st : Stat) (input : Nat) (n : Nat := 1) : Dev := (d.count 9 st input n).countDev st n

def Dev.slot (d : Dev) (i : Nat) : Slot := lget d.cls.slots i Slot.reset
def Dev.modSlot (d : Dev) (i : Nat) (f : Slot → Slot) : Dev := { d with cls := { d.cls with slots := lmod d.cls.slots i Slot.reset f } }

/-- The number of the strictest of the actions that apply: 0 DROP, 1 TO_MGMT, 2 forward. -/
def strictest (deep conflict : Bool) (deepAct lenAct : Nat) : Nat :=
  let a := if deep then deepAct else 2
  let b := if conflict then lenAct else 2
  if a < b then a else b

/-- One pass of a packet under its entry version. A rule that sets no flow leaves IN_FLOW of a tree parcel, and a rule that sets no class leaves a free
value, as it does for the flow of another input (log entry 30). -/
def Dev.classPass (d : Dev) (pk : Pkt) (start : Nat) (second : Bool) (tag : Nat) : ClsEnd × Pkt × Dev :=
  let v := d.slot pk.slot
  let w := walk v pk.data 17 start 0 Walk.start
  let extents := extentsOf pk.data w.recs
  let conflict := extents.2
  let where_ := le 1 pk.input ++ le 1 pk.port
  let d := if w.short then d.countCls .parseShort pk.input else d
  let d := if w.deep then (d.countCls .parseDeep pk.input).raiseFirst 0x362 where_ else d
  let d := if conflict then (d.countCls .lengthConflict pk.input).raiseFirst 0x363 where_ else d
  match strictest w.deep conflict v.deepAct v.lenAct with
  | 0 => (.drop [], pk, d)
  | 1 => (.mgmt v.mgmtRing [], pk, d)
  | _ =>
    let hdr := w.recs.find? (fun h => h.typ == 8)
    let pk : Pkt :=
      { pk with key := buildKey w pk second tag w.deep conflict, iec := hdr.map (fun h => (beAt pk.data h.off 2, some h.off)) }
    let r := winner v.rules pk.key
    let d := if r.2 then d.countCls .equalPrio pk.input else d
    match r.1 with
    | none =>
      let m := lget v.miss pk.input (0, 0, 0)
      (match m.1 with
        | 0 => (.drop [], pk, d)
        | 1 => (.mgmt v.mgmtRing [], pk, d)
        | _ => (.result (if pk.input = 0 then pk.inFlow.getD 0 else m.2.2) m.2.1 [], pk, d))
    | some rule =>
      let e0 : Edit :=
        { data := pk.data,
          hdrs := w.recs.map (fun h =>
            { typ := h.typ, vbit := h.vbit, orig := h.off, cur := some h.off, reach := if conflict then reachOf extents.1 h.off else none }),
          growth := 0, tags := 0, labels := 0, skips := 0, flow := none, cls := none, mirrors := [] }
      let x := Edit.run rule.acts e0
      let d := if x.1.skips = 0 then d else d.countCls .editSkip pk.input x.1.skips
      let c := fixChecksums pk.data x.1
      let d := if c.2 then (d.countCls .ipcsumBad pk.input).raiseFirst 0x365 where_ else d
      let pk : Pkt :=
        { pk with data := c.1, iec := pk.iec.map (fun i => (i.1, (x.1.hdrs.find? (fun h => h.typ == 8)).bind (·.cur))) }
      match x.2 with
      | .drop => (.drop x.1.mirrors, pk, d)
      | .mgmt ring => (.mgmt ring x.1.mirrors, pk, d)
      | .recirc s t => if second then (.drop [], pk, d.countCls .recircLimit pk.input) else (.recirc s t, pk, d)
      | .result =>
        let (a, d) := d.draw
        let (b, d) := d.draw
        (.result (x.1.flow.getD (pk.inFlow.getD (a % 131072))) (x.1.cls.getD (b % 8)) x.1.mirrors, pk, d)

/-- Redirect a frame (R233, R236). -/
def Dev.redirect (d : Dev) (ring : Nat) (pk : Pkt) : Dev := { d with cls := { d.cls with redirects := d.cls.redirects ++ [(ring, pk)] } }

/-- The recirculation buffer of a pipeline: 0 upstream, 1 downstream. -/
def Classifier.buffer (c : Classifier) (down : Nat) : List Recirc := if down = 0 then c.upRecirc else c.downRecirc
def Dev.setBuffer (d : Dev) (down : Nat) (l : List Recirc) : Dev :=
  if down = 0 then { d with cls := { d.cls with upRecirc := l } } else { d with cls := { d.cls with downRecirc := l } }

/-- The pipeline of a packet: upstream for tree parcels. -/
def Pkt.pipeline (pk : Pkt) : Nat := if pk.input = 0 then 0 else 1

/-- A packet dropped from recirculation (R240). -/
def Dev.recircDrop (d : Dev) (pk : Pkt) : Dev := (d.countCls .recircDrop pk.input).raiseFirst 0x364 (le 1 pk.pipeline)

/-- A packet's first pass (R228, R239 to R242): the end of its classification, none while it waits for a second pass. -/
def Dev.classify (d : Dev) (pk : Pkt) : Option ClsEnd × Pkt × Dev :=
  match (List.range 4).find? (fun i => (d.slot i).state = .current) with
  | none => (some (.drop []), pk, d.countCls .noVersion pk.input)
  | some i =>
    let pk : Pkt := { pk with slot := i, version := (d.slot i).version }
    match d.classPass pk (lget (d.slot i).start pk.input 0xFE) false 0 with
    | (.recirc s t, pk, d) =>
      let b := d.cls.buffer pk.pipeline
      if 262144 < sumOf (b.map (fun r => r.pkt.data.length)) + pk.data.length then (some (.drop []), pk, d.recircDrop pk)
      else
        let d := d.setBuffer pk.pipeline (b ++ [{ pkt := pk, start := s, tag := t, since := d.clk pk.now }])
        (none, pk, d.modSlot i (fun v => { v with inflight := v.inflight + 1 }))
    | (x, pk, d) => (some x, pk, d)

/-- The oldest waiting packet leaves a recirculation buffer. -/
def Dev.takeRecirc (d : Dev) (down : Nat) : Option Recirc × Dev :=
  match d.cls.buffer down with
  | [] => (none, d)
  | r :: t => (some r, (d.setBuffer down t).modSlot r.pkt.slot (fun v => { v with inflight := v.inflight - 1 }))

/-- Has a waiting packet waited 4 µs at clock `now`? -/
def Recirc.late (r : Recirc) (clk : Nat) : Bool := decide (r.since + 5000 ≤ clk)

/-- RECIRC_TIMEOUT (R240): the oldest packet of a buffer, once it has waited 4 µs. -/
def recircTimeout (down now : Nat) (d : Dev) : Dev :=
  match d.takeRecirc down with
  | (some r, d2) => if r.late (d.clk now) then d2.recircDrop r.pkt else d
  | (none, d) => d
def execRecircTimeout (pipeline now : Nat) (s : State) : Host.Outcome State Fault Refusal := s.onDev (recircTimeout pipeline now)

/-! ### Versions (R241 to R247) -/

/-- A field of a parse node is out of range (R229). Bits 7:4 of VBIT, and ADV_FMASK and ADV_FSCALE of a node with no variable advance, are ignored (R7). -/
def nodeBad (n : ParseNode) : Bool :=
  decide (8 < n.hdrType) || decide (62 < n.selOff) || decide (65535 < n.selMask) || decide (64 < n.advFixed) ||
    (decide (63 < n.advFoff) && n.advFoff != 0xFF) || decide (255 < n.advFmask) || (n.advFoff != 0xFF && n.advFmask == 0) ||
    (n.advFoff != 0xFF && !(n.advFscale == 1 || n.advFscale == 2 || n.advFscale == 4 || n.advFscale == 8)) || (n.transCount != 0 && decide (511 < n.transFirst)) || decide (64 < n.transCount) ||
    (decide (63 < n.defaultNext) && n.defaultNext != 0xFE) || decide (32 < n.extLen) ||
    (n.extLen != 0 && (decide (63 < n.extOff) || decide (64 < n.extKey + n.extLen)))

/-- A slot that may be loaded (R241): STAGING, also while its BUILD runs. -/
def Slot.open_ (v : Slot) : Bool := v.state = .staging

/-- PARSE_GRAPH_LOAD (R244). -/
def parseGraphLoad (r : ParseReq) (ref : CmdRef) (d : Dev) : Dev :=
  let bad :=
    if r.kind = 0 then r.nodes.isEmpty || decide (64 < r.first + r.nodes.length) || r.nodes.any nodeBad
    else r.trans.isEmpty || decide (512 < r.first + r.trans.length) || r.trans.any (fun t => decide (65535 < t.1) || (decide (63 < t.2) && t.2 != 0xFE))
  if 3 < r.slot ∨ 1 < r.kind ∨ !(d.slot r.slot).open_ ∨ bad then d.complete ref .invalid
  else
    let put {α : Type} (t : Tbl α) (l : List α) : Tbl α := (l.zip (List.range l.length)).foldl (fun t e => tset t (r.first + e.2) e.1) t
    (d.modSlot r.slot (fun v =>
      if r.kind = 0 then { v with nodes := put v.nodes r.nodes } else { v with trans := put v.trans r.trans })).complete ref .ok
def execParseGraphLoad (ctx : Nat) (r : ParseReq) (s : State) : Host.Outcome State Fault Refusal := s.onDev (·.mailbox ctx 0x0501 (parseGraphLoad r))

/-- A ring of a redirect: 0 to 3, or 0xFF. -/
def ringOk (r : Nat) : Bool := decide (r ≤ 3) || r == 0xFF

/-- A MISS entry (ACTION, CLASS, FLOW) of an INPUT is out of range. CLASS is used by FLOW alone, and FLOW not by INPUT 0, whose packets keep their flow (R7). -/
def missBad (input : Nat) (m : Nat × Nat × Nat) : Bool :=
  decide (2 < m.1) || (m.1 == 2 && (decide (7 < m.2.1) || (input != 0 && decide (131071 < m.2.2))))

/-- RULESET_STAGE BEGIN (R245): the lowest FREE slot. -/
def stageBegin (r : StageBegin) (ref : CmdRef) (d : Dev) : Dev :=
  let bad := r.start.length != 5 || r.start.any (fun n => decide (63 < n)) || decide (2 < r.deepAct) || decide (2 < r.lenAct) ||
    ((r.deepAct == 1 || r.lenAct == 1 || r.miss.any (fun m => m.1 == 1)) && !ringOk r.mgmtRing) || r.miss.length != 5 || ((List.range 5).zip r.miss).any (fun m => missBad m.1 m.2)
  if bad then d.complete ref .invalid
  else
    match (List.range 4).find? (fun i => (d.slot i).state = .free) with
    | none => d.complete ref .busy
    | some i =>
      let n := d.cls.nextVersion
      let d := d.modSlot i (fun _ =>
        { Slot.reset with
          state := .staging, version := n, start := r.start, deepAct := r.deepAct, lenAct := r.lenAct, mgmtRing := r.mgmtRing, miss := r.miss })
      ({ d with cls := { d.cls with nextVersion := n + 1 } }).complete ref .ok (le 1 i ++ le 3 0 ++ le 4 n)
def execRulesetStageBegin (ctx : Nat) (r : StageBegin) (s : State) : Host.Outcome State Fault Refusal := s.onDev (·.mailbox ctx 0x0502 (stageBegin r))

/-- A field of an action is out of range (R236). -/
def actionBad (a : Action) : Bool :=
  decide (255 < a.a8) || decide (65535 < a.a16) || decide (2 ^ 32 ≤ a.a32) ||
  match a.op with
  | 0x01 => decide (131071 < a.a32)
  | 0x02 => decide (7 < a.a8)
  | 0x04 => !ringOk a.a8
  | 0x05 => decide (131071 < a.a32) || decide (7 < a.a8)
  | 0x0C => a.a8 % 8 == 0 || decide (4 < a.a8 % 8)
  | 0x0E => decide (63 < a.a8)
  | _ => false

def ruleBad (r : Rule) : Bool :=
  decide (65535 < r.priority) || r.value.length != 80 || r.mask.length != 80 || decide (8 < r.acts.length) || r.acts.any actionBad ||
    decide (2 < (r.acts.filter (fun a => a.op == 0x05)).length)

/-- No rule number twice. -/
def idsDistinct : List Nat → Bool
  | [] => true
  | i :: t => !t.contains i && idsDistinct t

/-- RULESET_STAGE ADD. -/
def stageAdd (slot : Nat) (rules : List Rule) (ref : CmdRef) (d : Dev) : Dev :=
  let v := d.slot slot
  if 3 < slot ∨ !v.open_ ∨ rules.isEmpty ∨ 15 < rules.length ∨ rules.any ruleBad ∨
      !idsDistinct (v.rules.map (·.id) ++ rules.map (·.id)) then d.complete ref .invalid
  else (d.modSlot slot (fun v => { v with rules := v.rules ++ rules })).complete ref .ok
def execRulesetStageAdd (ctx slot : Nat) (rules : List Rule) (s : State) : Host.Outcome State Fault Refusal :=
  s.onDev (·.mailbox ctx 0x0502 (stageAdd slot rules))

/-- Every NEXT and DEFAULT_NEXT names a node that was written, or end (R244). -/
def Slot.closed (v : Slot) : Bool :=
  let ok (n : Nat) : Bool := n == 0xFE || (tget v.nodes n).isSome
  v.nodes.all (fun e => ok e.2.defaultNext) && v.trans.all (fun e => ok e.2.2)

/-- RULESET_STAGE BUILD: a heavy operation (R235, R493). A second BUILD while one runs finds the slot in the wrong state (log entry 96). -/
def stageBuild (slot : Nat) (ref : CmdRef) (d : Dev) : Dev :=
  let v := d.slot slot
  if 3 < slot ∨ !v.open_ ∨ v.building.isSome ∨ !v.closed then d.complete ref .invalid
  else if 65536 < v.rules.length then d.complete ref .noResource
  else
    let r := d.request (.rulesetInstall slot) ref.ctx (some ref)
    if r.2 then r.1.modSlot slot (fun v => { v with building := some ref }) else r.1.complete ref .notAdmitted
def execRulesetStageBuild (ctx slot : Nat) (s : State) : Host.Outcome State Fault Refusal := s.onDev (·.mailbox ctx 0x0502 (stageBuild slot))

/-- RULESET_COMPILE_DONE (R235, R241): an admitted compile ends; `words` is what its trees take. The version is built from the entries as they stand then
(log entry 96). -/
def compileDone (slot words : Nat) (d : Dev) : Dev :=
  let v := d.slot slot
  if !d.sluice.held.any (fun h => h.op == .rulesetInstall slot && h.ended.isNone) then d
  else
    match v.building with
    | none => d
    | some ref =>
      let used := sumOf (d.cls.slots.map (fun x => x.words))
      let d := d.endOp (fun o => o = .rulesetInstall slot)
      if !v.closed then (d.modSlot slot (fun v => { v with building := none })).complete ref .invalid
      else if 131072 < used + words ∨ 65536 < v.rules.length then (d.modSlot slot (fun v => { v with building := none })).complete ref .noResource
      else (d.modSlot slot (fun v => { v with building := none, state := .built, words })).complete ref .ok
        (le 4 v.rules.length ++ le 4 words ++ le 4 (equalOverlap v.rules))
def execRulesetCompileDone (slot words : Nat) (s : State) : Host.Outcome State Fault Refusal := s.onDev (compileDone slot words)

/-- The memory of a slot is released; a BUILD of it that has not ended completes INVALID and its operation ends (log entry 96). -/
def Dev.releaseSlot (d : Dev) (slot : Nat) : Dev :=
  let v := d.slot slot
  let d := d.modSlot slot (fun _ => Slot.reset)
  v.building.elim d (fun ref =>
    ((d.withdrawOp (fun o => o = .rulesetInstall slot)).endOp (fun o => o = .rulesetInstall slot)).complete ref .invalid)

/-- RULESET_STAGE FREE. -/
def stageFree (slot : Nat) (ref : CmdRef) (d : Dev) : Dev :=
  let v := d.slot slot
  if 3 < slot then d.complete ref .invalid
  else match v.state with
    | .current | .retiring => d.complete ref .denied
    | .free => d.complete ref .invalid
    | .staging | .built => (d.releaseSlot slot).complete ref .ok
def execRulesetStageFree (ctx slot : Nat) (s : State) : Host.Outcome State Fault Refusal := s.onDev (·.mailbox ctx 0x0502 (stageFree slot))

/-- RULESET_COMMIT (R243, R246): one in each tick. -/
def rulesetCommit (slot : Nat) (keep : Bool) (ref : CmdRef) (d : Dev) : Dev :=
  let st := (d.slot slot).state
  if d.cls.commit.isSome then d.complete ref .busy
  else if 3 < slot ∨ !(st = .built || st = .retiring) then d.complete ref .invalid
  else { d with cls := { d.cls with commit := some (ref, slot, keep) } }
def execRulesetCommit (ctx slot : Nat) (keep : Bool) (s : State) : Host.Outcome State Fault Refusal :=
  s.onDev (·.mailbox ctx 0x0503 (rulesetCommit slot keep))

/-- A RETIRING slot retires (R241). -/
def Dev.retireSlot (d : Dev) (i : Nat) : Dev :=
  let v := d.slot i
  let d := d.modSlot i (fun v => if v.keep then { v with state := .built, keep := false } else Slot.reset)
  d.raise 0x361 (le 1 i ++ le 4 v.version)

/-- VERSION_SWITCH at boundary C (R21 step 3): the commit, then the slots that were RETIRING before and hold no packet. -/
def Dev.versionSwitch (d : Dev) : Dev :=
  let old := (List.range 4).filter (fun i => (d.slot i).state = .retiring)
  let d : Dev := match d.cls.commit with
    | none => d
    | some (ref, slot, keep) =>
      let d : Dev := { d with cls := { d.cls with commit := none } }
      let st := (d.slot slot).state
      if !(st = .built || st = .retiring) then d.complete ref .invalid
      else
        let d := (List.range 4).foldl (fun d i =>
          if (d.slot i).state = .current then d.modSlot i (fun v => { v with state := .retiring, keep }) else d) d
        let d := d.modSlot slot (fun v => { v with state := .current, keep := false })
        (d.raise 0x360 (le 1 slot ++ le 4 (d.slot slot).version)).complete ref .ok (fromResp d.now)
  old.foldl (fun d i => if (d.slot i).state = .retiring ∧ (d.slot i).inflight = 0 then d.retireSlot i else d) d

/-- RULESET_STATUS (R247). -/
def execRulesetStatus (ctx : Nat) (s : State) : Host.Outcome State Fault Refusal :=
  s.onDev (·.mailbox ctx 0x0504 (fun ref d => d.complete ref .ok (d.cls.slots.flatMap (fun v =>
    le 1 v.state.code ++ le 3 0 ++ le 4 (if v.state = .free then 0 else v.version) ++ le 4 v.inflight ++ le 4 v.words))))

end Sys2Proof.Machine
end

