-- ==== Sys2Proof/Machine/HostIface.lean ====
section
/-!
DEFINITION. Registers, mailbox transport, events and identity (chapter 18): the rows of the host interface but for the host packet
rings, which the pipelines serve.
-/
namespace Sys2Proof.Machine

/-! ### Mailbox transport -/

/-- The page address of a DOORBELL_LO write (R436). -/
def pageAddr (c : MbCtx) (value : Nat) : Nat := c.doorbellHi * 2 ^ 32 + value % 2 ^ 32 / 4096 * 4096

/-- Opcodes of R442. -/
def opcodeListed (op : Nat) : Bool :=
  [0x0101, 0x0102, 0x0103, 0x0104, 0x0105, 0x0106, 0x0201, 0x0202, 0x0203, 0x0204, 0x0205, 0x0206,
   0x0301, 0x0302, 0x0303, 0x0304, 0x0305, 0x0401, 0x0402, 0x0403, 0x0404, 0x0405, 0x0406, 0x0407, 0x0408, 0x0409].contains op ||
  [0x0501, 0x0502, 0x0503, 0x0504, 0x0601, 0x0602, 0x0603, 0x0604, 0x0701, 0x0702, 0x0703, 0x0704, 0x0705, 0x0706,
   0x0801, 0x0802, 0x0803, 0x0804, 0x0901, 0x0902, 0x0903, 0x0904, 0x0A01, 0x0A02].contains op ||
  [0x0B01, 0x0B02, 0x0B03, 0x0C01, 0x0C02, 0x0C03, 0x0C04, 0x0C05, 0x0C06, 0x0C07, 0x0D01, 0x0D02, 0x0D03, 0x0D04,
   0x0E01].contains op

/-- Bytes of the request of each opcode (R440 check 4), where it depends on the operation byte at the operation's own length. -/
def requestBytes (op : Nat) (p : Bytes) : Nat :=
  let b0 := leAt p 0 1
  match op with
  | 0x0102 => 8 | 0x0103 => 16 | 0x0104 => 1 | 0x0105 => 16
  | 0x0201 => 2 | 0x0202 => 1 | 0x0203 => 4 | 0x0204 => 4 | 0x0205 => 8 | 0x0206 => 1
  | 0x0301 => 16 | 0x0302 => 16 | 0x0303 => 16 | 0x0304 => 16 | 0x0305 => 4
  | 0x0401 => 16 | 0x0402 => 8 | 0x0403 => 28 | 0x0404 => 16 | 0x0405 => 16 | 0x0406 => 16 | 0x0407 => 8 | 0x0408 => 344
  | 0x0409 => if b0 = 0 then 40 + 8 * leAt p 4 2 else if b0 = 1 then 112 else 16
  | 0x0501 => 8 + (if leAt p 1 1 = 0 then 16 else 4) * leAt p 4 2
  | 0x0502 => if b0 = 0 then 56 else if b0 = 1 then 8 + 256 * leAt p 2 1 else 2
  | 0x0503 => 4
  | 0x0601 => 16 | 0x0602 => 24 | 0x0603 => 16 | 0x0604 => 96
  | 0x0801 => 24 | 0x0802 => 16 | 0x0803 => 28 | 0x0804 => 56
  | 0x0901 => 16 | 0x0902 => 2 | 0x0903 => 8 | 0x0904 => 16
  | 0x0A01 => 16 | 0x0A02 => 1
  | 0x0B01 => 32 | 0x0B02 => 4 | 0x0B03 => 24
  | 0x0C01 => 64 | 0x0C02 => 16 | 0x0C06 => 1 | 0x0C07 => 1136
  | 0x0701 => 108 | 0x0702 => 8 | 0x0703 => 3
  | 0x0704 => 32
  | 0x0705 => 288
  | 0x0706 => if b0 = 1 then 224 else 32
  | 0x0D01 => 32 + 8 * leAt p 1 1
  | 0x0D02 => 16 | 0x0D03 => 8 | 0x0D04 => 16
  | _ => 0

/-- Where the operation byte of an opcode stands in its request, and how many operations the opcode has. -/
def operationByte (op : Nat) : Option (Nat × Nat) :=
  match op with
  | 0x0102 => some (0, 2) | 0x0204 => some (1, 2) | 0x0403 => some (1, 6) | 0x0404 => some (0, 2) | 0x0406 => some (0, 3) | 0x0409 => some (0, 3)
  | 0x0502 => some (0, 4) | 0x0601 => some (0, 4) | 0x0602 => some (0, 5) | 0x0604 => some (0, 3)
  | 0x0702 => some (0, 5) | 0x0704 => some (0, 3) | 0x0705 => some (0, 5) | 0x0706 => some (0, 4)
  | 0x0801 => some (0, 4) | 0x0802 => some (0, 3) | 0x0803 => some (1, 3) | 0x0804 => some (1, 2)
  | 0x0901 => some (2, 2) | 0x0903 => some (2, 3) | 0x0904 => some (0, 2) | 0x0A01 => some (0, 2) | 0x0A02 => some (0, 3)
  | 0x0B01 => some (0, 4) | 0x0B03 => some (0, 5) | 0x0C01 => some (0, 2) | 0x0C06 => some (0, 2) | 0x0C07 => some (1, 4)
  | 0x0D02 => some (0, 5) | 0x0D04 => some (0, 2)
  | _ => none

/-- The operation byte names no operation of its opcode: a field out of range (log entry 98). -/
def operationBad (op : Nat) (payload : Bytes) : Bool :=
  (operationByte op).elim false (fun x => decide (x.2 ≤ leAt payload x.1 1))

/-- A 4-byte field that reads as none where it is 0xFFFF_FFFF. -/
def optionAt (b : Bytes) (o : Nat) : Option Nat := if leAt b o 4 = 0xFFFFFFFF then none else some (leAt b o 4)

/-- The command that the 28 bytes of a GRANT_SET request spell (R173), little-endian: OP is byte 1, and 0 in POLL selects 8 where the command is executed. None
for an OP above 5, which completes INVALID. -/
def grantSetOf (ctx : Nat) (b : Bytes) : Option Instr :=
  let tree := leAt b 0 1
  let queue : QueueGrantReq := { tree, cls := leAt b 3 1, flow := leAt b 4 4, weight := leAt b 18 1, ar := leAt b 20 4, pr := leAt b 24 4 }
  match leAt b 1 1 with
  | 0 => some (.grantSetWeir ctx { tree, id := leAt b 2 1, start := optionAt b 8, ncw := leAt b 12 2 })
  | 1 => some (.grantSetCadence ctx
      { tree, id := leAt b 2 1, slot := leAt b 3 1, hint := optionAt b 4, start := optionAt b 8, ncw := leAt b 12 2, n := leAt b 14 2, phase := leAt b 16 2 })
  | 2 => some (.grantSetReported ctx queue)
  | 3 => some (.grantSetBest ctx queue)
  | 4 => some (.grantSetDefault ctx queue)
  | 5 => some (.grantSetTreeParams ctx tree (leAt b 19 1))
  | _ => none

/-- The header checks of R440, 1 to 4, in order, then the operation byte. -/
def headerCheck (c : MbCtx) (p : PageRead) : Option Status :=
  let g := p.opcode / 256
  if p.format ≠ 1 then some .version
  else if 1 ≤ g ∧ g ≤ 14 ∧ !bitOf c.allow (g - 1) then some .denied
  else if !opcodeListed p.opcode then some .invalid
  else if p.reqLen < requestBytes p.opcode p.payload then some .invalid
  else if operationBad p.opcode p.payload then some .invalid
  else none

/-- Write the fields of a page that the device writes at completion, STATE 2 last (R438, R439, R440). -/
def writeDone (mem : List Host.Cell) (addr seq cycle : Nat) (st : Status) (resp : Bytes) (withSeq : Bool) :
    List Host.Cell :=
  let mem := memWrite mem (addr + 32) resp
  let mem := memWrite mem (addr + 6) (le 2 resp.length)
  let mem := memWrite mem (addr + 8) (le 1 st.code)
  let mem := if withSeq then memWrite mem (addr + 16) (le 8 seq) else mem
  let mem := memWrite mem (addr + 24) (fromResp cycle)
  memWrite mem (addr + 3) [2]

/-- READY: mailboxes are served (R435). -/
def HostIf.serves (h : HostIf) : Bool := h.ready && !h.fatal

/-- DOORBELL_LO (R439). In D3hot no page can be read: an enabled doorbell waits for D0 (R431, log entry 74). During the management pause it is taken, and STATE 1
written, after the pause (R439, R460). -/
def doorbell (o : Doorbell) (d : Dev) (mem : List Host.Cell) : Dev × List Host.Cell :=
  if 8 ≤ o.ctx then (d, mem) else
  let c := d.ctx o.ctx
  let addr := pageAddr c o.value
  if c.enable ∧ d.host.serves ∧ (d.host.d3 ∨ d.host.pause) then
    ({ d with host := { d.host with rung := d.host.rung ++ [o] } }, mem)
  else if !c.enable || !d.host.serves then
    (d.modCtx o.ctx (fun c => { c with discarded := (c.discarded + 1) % 2 ^ 32 }), mem)
  else if 8 ≤ c.pages.length then
    let seq := c.seq + 1
    let d := d.modCtx o.ctx (fun c =>
      { c with submitted := (c.submitted + 1) % 2 ^ 32, completed := (c.completed + 1) % 2 ^ 32, seq })
    (d.signal o.ctx, writeDone mem addr seq d.now .busy [] true)
  else
    match o.page with
    | none =>
      let d := d.modCtx o.ctx (fun c => { c with discarded := (c.discarded + 1) % 2 ^ 32 })
      (d.raise 0x3D8 (le 1 o.ctx ++ le 8 addr), mem)
    | some p =>
      let seq := c.seq + 1
      let d := d.modCtx o.ctx (fun c =>
        { c with submitted := (c.submitted + 1) % 2 ^ 32, seq,
                 pages := c.pages ++ [{ addr, seq, hostTag := p.hostTag, early := headerCheck c p, opcode := p.opcode, tick := d.now }] })
      let mem := memWrite mem (addr + 16) (le 8 seq)
      let mem := memWrite mem (addr + 8) (le 1 Status.pending.code)
      (d, memWrite mem (addr + 3) [1])

/-- The doorbells that waited are taken in the order in which they were written. -/
def takeRung (d : Dev) (mem : List Host.Cell) : Dev × List Host.Cell :=
  match d.host.rung with
  | [] => (d, mem)
  | l => l.foldl (fun r o => doorbell o r.1 r.2) ({ d with host := { d.host with rung := [] } }, mem)

def execDoorbellLo (o : Doorbell) (s : State) : Host.Outcome State Fault Refusal := s.onBoth (doorbell o)

/-- The finished result at the front of a context, with the results that remain. -/
def takeResult (ctx : Nat) : List MbResult → Option (MbResult × List MbResult)
  | [] => none
  | r :: t =>
    if r.ref.ctx = ctx then (if r.status.isSome then some (r, t) else none)
    else (takeResult ctx t).map (fun p => (p.1, r :: p.2))

/-- The oldest accepted page of a context completes (R439, R440): its response is written, then STATE 2, and the vector is
signalled. It waits while its command runs, in D3hot, and when mailboxes are not served. -/
def mailboxComplete (ctx : Nat) (d : Dev) (mem : List Host.Cell) : Dev × List Host.Cell :=
  if d.host.d3 ∨ d.host.fatal ∨ d.host.pause ∨ !d.host.ready then (d, mem) else
  match (d.ctx ctx).pages with
  | [] => (d, mem)
  | p :: rest =>
    let close (d : Dev) (st : Status) (resp : Bytes) : Dev × List Host.Cell :=
      let d := d.modCtx ctx (fun c => { c with pages := rest, completed := (c.completed + 1) % 2 ^ 32 })
      (d.signal ctx, writeDone mem p.addr p.seq d.now st resp false)
    match p.early with
    | some st => close d st []
    | none =>
      match takeResult ctx d.host.results with
      | none => (d, mem)
      | some (r, others) =>
        close { d with host := { d.host with results := others } } (r.status.getD .ok) r.resp

def execMailboxComplete (ctx : Nat) (s : State) : Host.Outcome State Fault Refusal := s.onBoth (mailboxComplete ctx)

/-! ### Register reads and writes -/

/-- CYCLE_LO read (R434): the low word, and CYCLE_HI latched. -/
def cycleLoRead (d : Dev) : Dev :=
  { d with host := { d.host with readData := d.now % 2 ^ 32, cycleHi := d.now / 2 ^ 32 % 2 ^ 16 } }
def execCycleLoRead (s : State) : Host.Outcome State Fault Refusal := s.onDev cycleLoRead

/-- SNAP_LO read (R485). -/
def snapLoRead (d : Dev) : Dev :=
  { d with host := { d.host with readData := d.ctr.snapC % 2 ^ 32 },
           ctr := { d.ctr with snapHi := d.ctr.snapC / 2 ^ 32 % 2 ^ 16 } }
def execSnapLoRead (s : State) : Host.Outcome State Fault Refusal := s.onDev snapLoRead

/-- A write to a ring's CTRL (R445). SIZE is taken only when ENABLE read 0 and the value is 0 to 10; a change of ENABLE from 0 to
1 resets HEAD and TAIL and starts the first pass. A COALESCE_US beyond 1,000 is stored as written: DESIGN CHOICE
(log entry 114). -/
def Ring.ctrl (r : Ring) (value : Nat) : Ring :=
  let en := bitOf value 0
  let size := field value 8 4
  let r' := { r with coalesce := field value 16 16, enable := en,
                     size := if !r.enable && decide (size ≤ 10) then size else r.size }
  if en && !r.enable then
    { r' with head := 0, tail := 0, phase := true, lastMsg := none, msgDue := false }
  else r'

/-- Rings 0 to 111 are event rings, 112 to 119 host packet rings 0 to 7. -/
def ringCtrlWrite (ring value : Nat) (d : Dev) : Dev :=
  if ring < 112 then d.modRing ring (fun r => r.ctrl value)
  else if ring < 120 then
    { d with host := { d.host with pktRings := lmod d.host.pktRings (ring - 112) Ring.reset (fun r => r.ctrl value) } }
  else d

/-- A write to BASE_LO, BASE_HI or TAIL of a ring (R445); the other registers are RO or have behaviour of their own. A TAIL beyond the ring is stored modulo its entries: DESIGN
CHOICE, the spec does not say (log entry 114). -/
def Ring.write (r : Ring) (off v : Nat) : Ring :=
  match off with
  | 0 => if r.enable then r else { r with baseLo := v / 4096 * 4096 }
  | 4 => if r.enable then r else { r with baseHi := v }
  | 16 => { r with tail := v % r.entries }
  | _ => r

/-- A write to a word of the MSI-X table: a vector that is unmasked sends its pending message (PCIe; log entry 6). -/
def HostIf.msixWrite (h : HostIf) (word v : Nat) : HostIf :=
  let h := { h with msix := tset h.msix word v }
  let vec := word / 4
  if word % 4 = 3 ∧ !bitOf v 0 ∧ h.pba.contains vec then
    ({ h with pba := h.pba.filter (· != vec) }).signal vec
  else h

/-- A write to a register without behaviour of its own (R8, R433): RW fields take the value, everything else is ignored. -/
def registerWrite (off value : Nat) (d : Dev) : Dev :=
  let v := value % 2 ^ 32
  if off % 4 ≠ 0 then d
  else if 0x1000 ≤ off ∧ off < 0x2000 then
    let c := (off - 0x1000) / 0x200
    match (off - 0x1000) % 0x200 with
    | 4 => d.modCtx c (fun x => { x with doorbellHi := v })
    | 8 => d.modCtx c (fun x => { x with allow := field v 17 14, enable := bitOf v 0 })
    | _ => d
  else if 0x4000 ≤ off ∧ off < 0x4000 + 112 * 0x40 then
    d.modRing ((off - 0x4000) / 0x40) (fun r => r.write ((off - 0x4000) % 0x40) v)
  else if off = 0x6000 then { d with ctr := { d.ctr with permit := v % 2 ^ 22 } }
  else if off = 0x6010 then { d with ctr := { d.ctr with dumpTail := v } }
  else if 0x8000 ≤ off ∧ off < 0x8200 then
    { d with host := { d.host with
        pktRings := lmod d.host.pktRings ((off - 0x8000) / 0x40) Ring.reset (fun r => r.write ((off - 0x8000) % 0x40) v) } }
  else if 0xC000 ≤ off ∧ off < 0xC800 then { d with host := d.host.msixWrite ((off - 0xC000) / 4) v }
  else d

/-! ### Events -/

/-- The 32 bytes of an event record (R446). -/
def EvRec.bytes (e : EvRec) (phase : Bool) (drops : Nat) : Bytes :=
  let lostSome := decide (0 < drops)
  le 2 e.src ++ le 1 e.cause ++ le 1 (b2n e.flag + 64 * b2n lostSome + 128 * b2n phase) ++ le 2 e.index ++
    le 2 (if drops < 65535 then drops else 65535) ++ le 6 e.cycle ++ le 2 0 ++ fit 16 e.data

/-- The address of entry `i` of a ring. -/
def Ring.entryAddr (r : Ring) (i : Nat) : Nat := r.baseHi * 2 ^ 32 + r.baseLo + 32 * i

/-- The oldest staged record passes staging (R447): written and signalled, or dropped at a disabled or full ring. Records wait
during a management pause or restart, and in D3hot. `now` is the clock within the tick, for coalescing. -/
def eventRaise (now : Nat) (d : Dev) (mem : List Host.Cell) : Dev × List Host.Cell :=
  if d.host.idle ∨ d.host.d3 then (d, mem) else
  match d.ev.staging with
  | [] => (d, mem)
  | e :: rest =>
    let d := { d with ev := { d.ev with staging := rest } }
    let r := d.ring e.ring
    if !r.enable then (d.modRing e.ring Ring.drop, mem)
    else if (r.head + 1) % r.entries = r.tail % r.entries then (d.modRing e.ring Ring.drop, mem)
    else
      let mem := memWrite mem (r.entryAddr r.head) (e.bytes r.phase r.drops)
      let head := (r.head + 1) % r.entries
      let t := d.clk now
      let hold := r.lastMsg.elim false (fun m => decide (t < m + r.coalesce * Config.clocksPerMicrosecond))
      let d := d.modRing e.ring (fun r =>
        { r with head, phase := if head = 0 then !r.phase else r.phase, drops := 0,
                 msgDue := hold, lastMsg := if hold then r.lastMsg else some t })
      (if hold then d else d.signal (16 + e.ring), mem)
def execEventRaise (now : Nat) (s : State) : Host.Outcome State Fault Refusal := s.onBoth (eventRaise now)

/-- A ring's pending message is due at clock `t`. -/
def Ring.expired (r : Ring) (t : Nat) : Bool :=
  r.msgDue && r.lastMsg.elim true (fun m => decide (m + r.coalesce * Config.clocksPerMicrosecond ≤ t))

/-- A ring's coalescing interval ends and its pending message is sent (R447); rings 112 to 119 are the host packet rings. -/
def coalesceExpiry (ring now : Nat) (d : Dev) : Dev :=
  if ring < 112 then
    if (d.ring ring).expired (d.clk now) then
      (d.modRing ring (fun r => { r with msgDue := false, lastMsg := some (d.clk now) })).signal (16 + ring)
    else d
  else
    let k := ring - 112
    let r := lget d.host.pktRings k Ring.reset
    if k < 8 ∧ r.expired (d.clk now) then
      ({ d with host := { d.host with pktRings := lset d.host.pktRings k { r with msgDue := false, lastMsg := some (d.clk now) } } }).signal (8 + k)
    else d
def execEventCoalesceExpiry (ring now : Nat) (s : State) : Host.Outcome State Fault Refusal :=
  s.onDev (coalesceExpiry ring now)

/-- EVENT_ROUTE (R448). -/
def eventRoute (r : EventRouteReq) (ref : CmdRef) (d : Dev) : Dev :=
  if 1024 < r.first + r.count ∨ (111 < r.ring ∧ r.ring ≠ 255) then d.complete ref .invalid
  else
    let d := { d with ev := { d.ev with
      routes := (rangeFrom r.first r.count).foldl (fun t n => tput t n 0 r.ring) d.ev.routes } }
    d.complete ref .ok
def execEventRoute (ctx : Nat) (r : EventRouteReq) (s : State) : Host.Outcome State Fault Refusal :=
  s.onDev (·.mailbox ctx 0x0D03 (eventRoute r))

/-! ### Identity and reset of the host interface -/

/-- BOARD_ID of the tree section in force (R54, R443). -/
def Dev.boardId (d : Dev) : Nat := d.profile.tree.elim 0 (fun b => leAt b 4 4)

/-- The SYS_INFO response (R443). -/
def sysInfoResp (d : Dev) : Bytes :=
  le 1 d.dev.variant ++ le 1 d.dev.devAddr ++ le 1 d.sec.lifecycle.code ++ le 1 d.dev.slot ++ le 4 d.boardId ++
    le 8 (2 ^ d.treeCount - 1) ++ le 1 (2 ^ d.uplinkCount - 1) ++ le 1 d.dev.stepping ++ le 2 0 ++
    le 4 d.dev.fwVersion ++ le 8 d.dev.unitId ++ le 8 d.dev.eui64 ++ fromResp d.now

def execSysInfo (ctx : Nat) (s : State) : Host.Outcome State Fault Refusal :=
  s.onDev (·.mailbox ctx 0x0101 (fun ref d => d.complete ref .ok (sysInfoResp d)))

/-- A context after a host-interface reset (R432): reset registers; the accepted commands that have not begun are remembered,
because no response is written for them. -/
def MbCtx.afterReset (c : MbCtx) (begun : Nat) : MbCtx :=
  { MbCtx.reset with orphans := c.orphans ++ ((c.pages.filter (fun p => p.early.isNone)).drop begun).map (fun p => (p.opcode, p.tick)) }

/-- HOST_INTERFACE_RESET (R432, R452): contexts, rings and the MSI-X table return to reset; running commands lose their response.
The raised record meets disabled rings. -/
def hostReset (cause : Nat) (d : Dev) : Dev :=
  let h := d.host
  let h := { h with
    ctxs := (List.range 8).map (fun c => (lget h.ctxs c MbCtx.reset).afterReset (h.begun c)),
    evRings := List.replicate 112 Ring.reset, pktRings := List.replicate 8 Ring.reset,
    results := (h.results.filter (fun r => r.status.isNone)).map (fun r => { r with noResponse := true }),
    msix := [], pba := [], rung := [], d3 := false }
  ({ d with host := h }).raise 0x3DB [] cause

/-- D3HOT_TRANSITION (R431): device DMA stops, messages included, or resumes: the messages held back are sent, and the doorbells that waited are taken. -/
def d3hotTransition (d3 : Bool) (d : Dev) (mem : List Host.Cell) : Dev × List Host.Cell :=
  let h := { d.host with d3 }
  if d3 then ({ d with host := h }, mem)
  else
    let held := h.pba.filter (fun v => !h.masked v)
    takeRung { d with host := held.foldl HostIf.signal { h with pba := h.pba.filter h.masked } } mem
def execD3hotTransition (d3 : Bool) (s : State) : Host.Outcome State Fault Refusal := s.onBoth (d3hotTransition d3)

end Sys2Proof.Machine
end

