-- ==== Sys2Proof/Machine/Forward.lean ====
section
/-!
DEFINITION. Stage 6 of both pipelines (chapter 10): forwarding domains, the learning table with its engine, limits, aging, relocation and eviction, and
the exact-match store.
-/
namespace Sys2Proof.Machine

/-! ### Keys, sources and limits (R250, R251, R255) -/

/-- The two candidate buckets of a key (R251). -/
def fdbBuckets (salt fid mac : Nat) : Nat × Nat :=
  let v := crc32c (be 4 salt ++ be 2 fid ++ be 6 mac)
  let b1 := v % 65536
  let b2 := v / 65536 % 65536
  (b1, if b2 = b1 then Nat.xor b1 1 else b2)

/-- The entry indices of a bucket. -/
def waysOf (b : Nat) : List Nat := rangeFrom (b * 4) 4

/-- A code whose tree or uplink, if it names one, is not fused off (R3): terminals, uplink sub-ports and tree scopes (R250). -/
def Dev.scopeOk (d : Dev) (s : Nat) : Bool :=
  if s < 0x4000 then d.treePresent (s / 256)
  else if s < 0x4020 then decide ((s - 0x4000) / 4 < d.uplinkCount)
  else if s < 0x4040 then true
  else decide (s ≤ 0x407F) && d.treePresent (s - 0x4040)

/-- A source code that names a source (R250) which the variant has (R3). -/
def Dev.sourceOk (d : Dev) (s : Nat) : Bool :=
  (decide (s ≤ 0x4020) || (decide (0x4028 ≤ s) && decide (s ≤ 0x402F)) || (decide (0x4030 ≤ s) && decide (s ≤ 0x4033))) && d.scopeOk s

/-- The scopes that charge a source: its own code, and for a terminal its tree (R250, R255). -/
def scopesOf (s : Nat) : List Nat := if s < 0x4000 then [s, 0x4040 + s / 256] else [s]

/-- Is a source in a scope? -/
def inScope (scope s : Nat) : Bool := (scopesOf s).contains scope

/-- The learned entries of a scope. -/
def Fdb.scopeCount (f : Fdb) (scope : Nat) : Nat := (f.entries.filter (fun e => !e.2.static && inScope scope e.2.source)).length

/-- The first scope that a learned entry for source `s`, in place of one charged to `old`, would carry past its limit (R255). -/
def Fdb.overLimit (f : Fdb) (s : Nat) (old : Option Nat) : Option Nat :=
  (scopesOf s).find? (fun scope =>
    match tget f.limits scope with
    | some (some n, _) => !(old.elim false (inScope scope)) && decide (n ≤ f.scopeCount scope)
    | _ => false)

/-- EXCESS of a source (R255), set at its own code: true FLOOD. -/
def Fdb.excessFlood (f : Fdb) (source : Nat) : Bool := (tget f.limits source).elim false (·.2)

/-- The record of a member (R249). -/
def Fdb.member (f : Fdb) (fid s : Nat) : Option Member := f.members.find? (fun m => m.fid == fid && m.source == s)

/-- The domain whose domain flow a packet's result flow is (R253). -/
def Fdb.domainOf (f : Fdb) (flow : Nat) : Option (Nat × Domain) := f.domains.find? (fun e => e.2.flow == flow)

/-- A lookup (R254): the valid entry of the key with the lowest index. -/
def Fdb.lookup (f : Fdb) (fid mac : Nat) : Option (Nat × FdbEnt) :=
  let b := fdbBuckets f.salt fid mac
  f.entries.find? (fun e => (e.1 / 4 == b.1 || e.1 / 4 == b.2) && e.2.fid == fid && e.2.mac == mac)

def Dev.modFdb (d : Dev) (g : Fdb → Fdb) : Dev := { d with fdb := g d.fdb }
def Dev.putEnt (d : Dev) (i : Nat) (e : FdbEnt) : Dev := d.modFdb (fun f => { f with entries := tset f.entries i e })
def Dev.delEnt (d : Dev) (i : Nat) : Dev := d.modFdb (fun f => { f with entries := tdel f.entries i })

/-- A refusal under R255: the source's EXCESS setting says which statistic counts it, against the scope that refused. -/
def Dev.limitRefused (d : Dev) (source scope : Nat) : Dev :=
  (d.count 11 (if d.fdb.excessFlood source then .fdbLimitFlood else .fdbLimitDrop) scope).raiseFirst 0x370 (le 2 scope)

/-! ### Insertion, relocation and eviction (R256 to R258) -/

/-- The free ways of a bucket, lowest first. -/
def Fdb.freeWays (f : Fdb) (b : Nat) : List Nat := (waysOf b).filter (fun i => (tget f.entries i).isNone)

/-- The other candidate bucket of the entry at index `i`. -/
def Fdb.altBucket (f : Fdb) (i : Nat) (e : FdbEnt) : Nat :=
  let b := fdbBuckets f.salt e.fid e.mac
  if i / 4 = b.1 then b.2 else b.1

/-- The occupants of a list of entry indices. -/
def Fdb.occupants (f : Fdb) (l : List Nat) : List (Nat × FdbEnt) := l.filterMap (fun i => (tget f.entries i).map (fun e => (i, e)))

/-- A move: from an entry index to a free one. -/
abbrev FdbMove := Nat × Nat

/-- A path of one move (R257, step 1): the first occupant with a free way in its alternate bucket. -/
def Fdb.onePath (f : Fdb) (occ : List (Nat × FdbEnt)) : Option FdbMove :=
  occ.findSome? (fun o => ((f.freeWays (f.altBucket o.1 o.2)).head?).map (fun w => (o.1, w)))

/-- The search of R257 for the buckets `b1` and `b2`: the moves in the order in which they are executed, from the far end. -/
def Fdb.path (f : Fdb) (b1 b2 : Nat) : Option (List FdbMove) :=
  let occ := sortBy (fun a b => decide (a.1 ≤ b.1)) (f.occupants (waysOf b1 ++ waysOf b2))
  match f.onePath occ with
  | some m => some [m]
  | none =>
    let second := occ.flatMap (fun o => (f.occupants (waysOf (f.altBucket o.1 o.2))).map (fun p => (p, o)))
    let second := sortBy (fun (a b : (Nat × FdbEnt) × (Nat × FdbEnt)) => decide (a.1.1 ≤ b.1.1)) second
    second.findSome? (fun x =>
      ((f.freeWays (f.altBucket x.1.1 x.1.2)).head?).map (fun w => [(x.1.1, w), (x.2.1, x.1.1)]))

/-- One move: the copy with every field and flag, then the old way cleared. Counted in FDB.RELOCATED. -/
def Dev.relocate (d : Dev) (m : FdbMove) : Dev :=
  match tget d.fdb.entries m.1 with
  | none => d
  | some e => ((d.putEnt m.2 e).delEnt m.1).countDev .fdbRelocated

/-- The learned occupant that EVICT chooses (R258). -/
def Fdb.victim (f : Fdb) (occ : List (Nat × FdbEnt)) : Option (Nat × FdbEnt) :=
  let learned := occ.filter (fun o => !o.2.static)
  if f.oldest then
    let age (e : FdbEnt) : Nat := (f.sweepNo + 32768 - e.lastSeen % 32768) % 32768
    learned.foldl (fun (b : Option (Nat × FdbEnt)) o => match b with
      | none => some o
      | some x => if age x.2 < age o.2 then some o else some x) none
  else learned[Config.evictPick f.lfsr.toNat learned.length % learned.length]?

/-- Write a new entry (R256 to R258): where it goes, none where every occupant is static. -/
def Dev.insertEnt (d : Dev) (e : FdbEnt) : Option Nat × Dev :=
  let b := fdbBuckets d.fdb.salt e.fid e.mac
  let f1 := d.fdb.freeWays b.1
  let f2 := d.fdb.freeWays b.2
  match (if f1.length < f2.length then f2 else f1) with
  | w :: _ => (some w, d.putEnt w e)
  | [] =>
    match d.fdb.path b.1 b.2 with
    | some moves =>
      let d := moves.foldl Dev.relocate d
      let w := (moves.getLast?).elim 0 (·.1)
      (some w, d.putEnt w e)
    | none =>
      let occ := sortBy (fun a b => decide (a.1 ≤ b.1)) (d.fdb.occupants (waysOf b.1 ++ waysOf b.2))
      match d.fdb.victim occ with
      | none => (none, d)
      | some v =>
        let d := if d.fdb.oldest then d else d.modFdb (fun f => { f with lfsr := lfsrStep f.lfsr })
        (some v.1, ((d.delEnt v.1).count 10 .fdbEvicted v.2.fid).putEnt v.1 e)

/-- A learned entry as it is first written: HIT and AGED clear, LAST_SEEN the sweep of the refresh. SWEEP of an entry that no sweep has visited is a free
value (log entry 31). -/
def Dev.newEnt (d : Dev) (static : Bool) (fid mac source dest : Nat) : FdbEnt × Dev :=
  let (x, d) := d.draw
  ({ static, hit := false, aged := false, sweep := x % 2 = 1, fid, mac, source, dest, lastSeen := d.fdb.sweepNo % 32768 }, d)

/-- The engine handles a learn request (R256). A request of a domain or member that has gone meanwhile has no effect. -/
def Dev.learn (d : Dev) (r : LearnReq) : Dev :=
  match d.fdb.member r.fid r.source with
  | none => d
  | some m =>
    if (tget d.fdb.domains r.fid).isNone then d
    else
      match d.fdb.lookup r.fid r.mac with
      | some (i, e) =>
        if e.static then (d.count 10 .fdbStaticConflict r.fid).raiseFirst 0x373 (le 2 r.fid ++ le 2 r.source)
        else if e.source = r.source ∧ e.dest = m.flow then d.putEnt i { e with hit := true }
        else
          match d.fdb.overLimit r.source (some e.source) with
          | some scope => d.limitRefused r.source scope
          | none => (d.putEnt i { e with source := r.source, dest := m.flow, lastSeen := d.fdb.sweepNo % 32768 }).count 10 .fdbMoved r.fid
      | none =>
        match d.fdb.overLimit r.source none with
        | some scope => d.limitRefused r.source scope
        | none =>
          let (e, d) := d.newEnt false r.fid r.mac r.source m.flow
          match d.insertEnt e with
          | (some _, d) => d.count 10 .fdbLearned r.fid
          | (none, d) => (d.count 10 .fdbLearnFail r.fid).raiseFirst 0x371 (le 2 r.fid)

/-- FDB_LEARN (R256): the oldest request of the FIFO. -/
def fdbLearn (d : Dev) : Dev :=
  match d.fdb.fifo with
  | [] => d
  | r :: t => (d.modFdb (fun f => { f with fifo := t })).learn r
def execFdbLearn (s : State) : Host.Outcome State Fault Refusal := s.onDev fdbLearn

/-- AGE_PERIOD in ticks. -/
def Fdb.ageTicks (f : Fdb) : Nat := f.agePeriod * Config.ticksPerSecond

/-- The first tick in which the visit of the next entry is due: the visits of a sweep are spread evenly over its AGE_PERIOD (log entry 95). -/
def Fdb.visitDue (f : Fdb) : Nat := f.sweepFrom + (f.sweepNext - f.sweepBase) * f.ageTicks / 262144

/-- The sweeper moves to the next index; after the last one the next sweep begins one AGE_PERIOD after this one began. -/
def Fdb.sweepOn (f : Fdb) : Fdb :=
  if f.sweepNext + 1 = 262144 then 
    { f with sweepNext := 0, sweepNo := f.sweepNo + 1, sweepBase := 0, sweepFrom := f.sweepFrom + (262144 - f.sweepBase) * f.ageTicks / 262144 }
  else { f with sweepNext := f.sweepNext + 1 }

/-- The visit of a learned entry by sweep `n` (R259): none where the entry ages out. -/
def FdbEnt.visit (e : FdbEnt) (n : Nat) : Option FdbEnt :=
  if e.hit then some { e with hit := false, aged := false, lastSeen := n % 32768, sweep := decide (n % 2 = 1) }
  else if e.aged then none
  else some { e with aged := true, sweep := decide (n % 2 = 1) }

/-- FDB_AGE_SWEEP (R259): the sweeper visits the next entry in index order, once its visit is due. -/
def fdbAgeSweep (d : Dev) : Dev :=
  if d.up < d.fdb.visitDue then d
  else
    let n := d.fdb.sweepNo
    let swept : Dev := match tget d.fdb.entries d.fdb.sweepNext with
      | none => d
      | some e =>
        if e.static ∨ e.sweep = decide (n % 2 = 1) then d
        else match e.visit n with
          | some e => d.putEnt d.fdb.sweepNext e
          | none => (d.delEnt d.fdb.sweepNext).count 10 .fdbAgedOut e.fid
    swept.modFdb Fdb.sweepOn
def execFdbAgeSweep (s : State) : Host.Outcome State Fault Refusal := s.onDev fdbAgeSweep

/-! ### Forwarding (R253 to R255) -/

/-- What becomes of a packet: dropped, redirected, or sent as copies (flow, class). -/
inductive FwdEnd where
  | drop
  | mgmt (ring : Nat)
  | out (copies : List (Nat × Nat))
deriving DecidableEq, Repr

/-- The FIFO with a request (R256): behind those waiting, but requests of one clock stand in R9 order of packet lane. -/
def Fdb.queued (f : Fdb) (cycle : Nat) (r : LearnReq) : List LearnReq :=
  let later (x : LearnReq) : Bool := x.at_ == r.at_ && (if cycle % 2 = 0 then decide (r.lane < x.lane) else decide (x.lane < r.lane))
  let tail := (f.fifo.reverse.takeWhile later).reverse
  f.fifo.take (f.fifo.length - tail.length) ++ r :: tail

/-- A request enters the FIFO of 4,096; the one that finds it full is discarded (R256). -/
def Dev.learnEnter (d : Dev) (r : LearnReq) : Dev :=
  let q := d.fdb.queued d.now r
  let d := d.modFdb (fun f => { f with fifo := q.take 4096 })
  match q.drop 4096 with
  | [] => d
  | x :: _ => (d.countDev .fdbLearnOverflow).raiseFirst 0x372 (le 1 x.lane)

/-- Submit a learn request (R255, R256): true where the refusal of the request drops the frame. -/
def Dev.submitLearn (d : Dev) (fid mac s lane now : Nat) : Bool × Dev :=
  let e := d.fdb.lookup fid mac
  let refused := match e with
    | some (_, e) => if e.static then none else d.fdb.overLimit s (some e.source)
    | none => d.fdb.overLimit s none
  match refused with
  | some scope => (!d.fdb.excessFlood s, d.limitRefused s scope)
  | none => (false, d.learnEnter { fid, mac, source := s, lane, at_ := d.clk now })

/-- `forward` of R253 for domain `fid`; true says that the packet ends there, without the CAM stage. -/
def Dev.forwardIn (d : Dev) (pk : Pkt) (fid : Nat) (dom : Domain) (cls : Nat) : Bool × FwdEnd × Dev :=
  match d.fdb.member fid pk.source with
  | none => (true, .drop, d.count 10 .fdbNotMember fid)
  | some m =>
    let src := beAt pk.data 6 6
    let dst := beAt pk.data 0 6
    let (dropped, d) : Bool × Dev :=
      if !(dom.learn && d.fdb.learn) then (false, d)
      else match d.fdb.lookup fid src with
        | some (i, e) =>
          if e.source = pk.source ∧ e.dest = m.flow then (false, d.putEnt i { e with hit := true }) else d.submitLearn fid src pk.source pk.lane pk.now
        | none => d.submitLearn fid src pk.source pk.lane pk.now
    if dropped then (true, .drop, d)
    else
      match d.fdb.lookup fid dst with
      | some (_, e) => if e.dest = m.flow then (true, .drop, d.count 10 .fdbHairpinDrop fid) else (false, .out [(e.dest, cls)], d)
      | none =>
        match dom.missAct with
        | 0 =>
          let members := d.fdb.members.filter (fun x => x.fid == fid && x.flood && x.source != pk.source)
          if members.isEmpty then (false, .drop, d.count 10 .fdbMissDrop fid) else (false, .out (members.map (fun x => (x.flow, cls))), d)
        | 1 => (false, .drop, d.count 10 .fdbMissDrop fid)
        | _ => (false, .mgmt dom.mgmtRing, d)

/-! ### The exact-match store (R260 to R264) -/

/-- The place of an entry in the store. -/
def camKey (t i : Nat) : Nat := t * 65536 + i

/-- The words of a table's lookup key. -/
def CamTable.words (t : CamTable) (key : Bytes) : Bytes := (t.segOff.take t.width).flatMap (fun o => slice key o 20)

/-- Ranked candidates of a table (R262): highest priority first, then lowest index. -/
def Cam.ranked (c : Cam) (t : Nat) (w : Bytes) : List (Nat × CamEnt) :=
  sortBy (fun a b => decide (b.2.priority ≤ a.2.priority)) (c.entries.filter (fun e => e.1 / 65536 == t && e.2.rows == w))

/-- Verify the candidates in order (R263): the match, and the indices of false hits. -/
def camVerify (w : Bytes) : List (Nat × CamEnt) → Option CamEnt × List Nat
  | [] => (none, [])
  | (i, e) :: t => if e.copy = w then (some e, []) else let r := camVerify w t; (r.1, i :: r.2)

/-- A lookup in one table. -/
def Dev.camTable (d : Dev) (t : Nat) (x : CamTable) (key : Bytes) : Option CamEnt × Dev :=
  let w := x.words key
  let all := d.cam.ranked t w
  let tie := match all with
    | a :: b :: _ => a.2.priority == b.2.priority
    | _ => false
  let r := camVerify w (all.take 4)
  -- records of one clock go in ascending SOURCE (R447)
  let d : Dev := r.2.foldl (fun (d : Dev) (i : Nat) => (d.count 12 .camFalseHit t).raise 0x374 (le 1 t ++ le 2 (i % 65536))) d
  let d := if tie then (d.count 12 .camPrioTie t).raiseFirst 0x375 (le 1 t) else d
  let d := if 4 ≤ r.2.length then d.count 12 .camVerifyMiss t else d
  (r.1, d.count 12 (if r.1.isSome then .camHit else .camMiss) t)

/-- The CAM stage (R261): every table of the packet's INPUT is searched, the first verified match replaces the result. -/
def Dev.camStage (d : Dev) (pk : Pkt) (x : FwdEnd) : FwdEnd × Dev :=
  let ts := d.cam.tables.filter (fun t => bitOf t.2.inputMask pk.input)
  let r := ts.foldl (fun (acc : Option (CamTable × CamEnt) × Dev) t =>
    let q := acc.2.camTable t.1 t.2 pk.key
    (if acc.1.isSome then acc.1 else q.1.map (fun e => (t.2, e)), q.2)) ((none : Option (CamTable × CamEnt)), d)
  match r.1 with
  | none => (x, r.2)
  | some (t, e) =>
    match e.action with
    | 0 => (.out [(e.flow, e.cls)], r.2)
    | 1 => (.drop, r.2)
    | _ => (.mgmt t.mgmtRing, r.2)

/-- Stage 6 (R253, R261) for a packet whose classification ended with a flow. -/
def Dev.stage6 (d : Dev) (pk : Pkt) (flow cls : Nat) : FwdEnd × Dev :=
  match d.fdb.domainOf flow with
  | none => d.camStage pk (.out [(flow, cls)])
  | some (fid, dom) =>
    match d.forwardIn pk fid dom cls with
    | (true, x, d) => (x, d)
    | (false, x, d) => d.camStage pk x

/-- CAM_VERIFY_REWRITE (R263): rinse rewrites a row from its verify copy; a copy with an uncorrectable error invalidates its entry. -/
def camRewrite (t i : Nat) (eccBad : Bool) (d : Dev) : Dev :=
  match tget d.cam.entries (camKey t i) with
  | none => d
  | some e =>
    if eccBad then ({ d with cam := { d.cam with entries := tdel d.cam.entries (camKey t i) } }).raise 0x376 (le 1 t ++ le 2 i)
    else { d with cam := { d.cam with entries := tset d.cam.entries (camKey t i) { e with rows := e.copy } } }
def execCamVerifyRewrite (table index : Nat) (eccBad : Bool) (s : State) : Host.Outcome State Fault Refusal := s.onDev (camRewrite table index eccBad)

/-! ### FDB_CONFIG (R265) -/

/-- A number for a background table operation. -/
def Dev.newFdbJob (d : Dev) : Nat × Dev := (d.fdb.nextJob, d.modFdb (fun f => { f with nextJob := f.nextJob + 1 }))

/-- FDB_CONFIG GLOBAL: LEARN, EVICT and AGE_PERIOD take effect at the next boundary. A new SALT is a table rebuild, which Sluice admits (R493); the command
then completes when the rehash is complete (R251). -/
def fdbGlobal (ctx : Nat) (r : FdbGlobalReq) (ref : CmdRef) (d : Dev) : Dev :=
  if 2 ^ 32 ≤ r.salt ∨ r.agePeriod = 0 ∨ 65535 < r.agePeriod then d.complete ref .invalid
  else if r.salt = d.fdb.salt then d.later (.fdbGlobal (some ref) r)
  else
    let (job, d) := d.newFdbJob
    let q := d.request (.tableRebuild job) ctx (some ref)
    if q.2 then
      (q.1.modFdb (fun f => { f with rebuilds := f.rebuilds ++ [{ job, ref, what := .salt r.salt, running := false }] })).later (.fdbGlobal none r)
    else q.1.complete ref .notAdmitted
def execFdbConfigGlobal (ctx : Nat) (r : FdbGlobalReq) (s : State) : Host.Outcome State Fault Refusal := s.onDev (·.mailbox ctx 0x0601 (fdbGlobal ctx r))

/-- The boundary of a GLOBAL; `ref` is none where a rehash completes the command. -/
def Dev.applyFdbGlobal (d : Dev) (ref : Option CmdRef) (r : FdbGlobalReq) : Dev :=
  let d := if r.agePeriod = d.fdb.agePeriod then d else d.modFdb (fun f => { f with sweepBase := f.sweepNext, sweepFrom := d.upNext })
  let d := d.modFdb (fun f => { f with learn := r.learn, oldest := r.oldest, agePeriod := r.agePeriod })
  ref.elim d (fun ref => d.complete ref .ok)

/-- Sluice admits a table operation. -/
def Dev.admitRebuild (d : Dev) (job : Nat) : Dev :=
  let rebuilds := d.fdb.rebuilds.map (fun (x : Rebuild) => if x.job = job then { x with running := true } else x)
  let flushes := d.fdb.flushes.map (fun (x : FlushJob) => if x.job = job then { x with running := true } else x)
  d.modFdb (fun f => { f with rebuilds, flushes })

/-- A table operation that waited WAIT_LIMIT has no effect. -/
def Dev.dropRebuild (d : Dev) (job : Nat) : Dev :=
  d.modFdb (fun f => { f with rebuilds := f.rebuilds.filter (fun x => x.job != job), flushes := f.flushes.filter (fun x => x.job != job) })

/-- A DOMAIN or DOMAIN_FLOW that cannot be taken. -/
def Dev.domainBad (d : Dev) (r : FdbDomainReq) : Bool :=
  decide (4095 < r.fid) ||
    (r.enable && (decide (131071 < r.flow) || decide (2 < r.missAct) || (r.missAct == 2 && !ringOk r.mgmtRing) ||
      d.fdb.domains.any (fun e => e.1 != r.fid && e.2.flow == r.flow)))

def fdbDomain (r : FdbDomainReq) (ref : CmdRef) (d : Dev) : Dev :=
  if d.domainBad r then d.complete ref .invalid else d.later (.fdbDomain ref r)
def execFdbConfigDomain (ctx : Nat) (r : FdbDomainReq) (s : State) : Host.Outcome State Fault Refusal := s.onDev (·.mailbox ctx 0x0601 (fdbDomain r))

/-- The clearing of learned entries starts; TABLE_REBUILD_DONE ends it. -/
def Dev.startClearing (d : Dev) (ref : CmdRef) (what : RebuildWhat) : Dev :=
  let (job, d) := d.newFdbJob
  d.modFdb (fun f => { f with rebuilds := f.rebuilds ++ [{ job, ref, what, running := true }] })

/-- The boundary of a DOMAIN: a deleted domain takes its members with it (log entry 32). -/
def Dev.applyFdbDomain (d : Dev) (ref : CmdRef) (r : FdbDomainReq) : Dev :=
  if d.domainBad r then d.complete ref .invalid
  else if r.enable then
    (d.modFdb (fun f => { f with domains := tset f.domains r.fid { flow := r.flow, learn := r.learn, missAct := r.missAct, mgmtRing := r.mgmtRing } })).complete ref .ok
  else
    (d.modFdb (fun f => { f with domains := tdel f.domains r.fid, members := f.members.filter (fun m => m.fid != r.fid) })).startClearing ref (.domain r.fid)

/-- The status that a MEMBER ends with, if it is not OK. -/
def Dev.memberBad (d : Dev) (r : FdbMemberReq) : Option Status :=
  if 4095 < r.fid ∨ !d.sourceOk r.source ∨ (r.add ∧ 131071 < r.returnFlow) then some .invalid
  else if r.add ∧ (d.fdb.member r.fid r.source).isNone ∧
      (256 ≤ (d.fdb.members.filter (fun m => m.fid == r.fid)).length ∨ 32768 ≤ d.fdb.members.length) then some .noResource
  else none

def fdbMember (r : FdbMemberReq) (ref : CmdRef) (d : Dev) : Dev :=
  match d.memberBad r with
  | some st => d.complete ref st
  | none => d.later (.fdbMember ref r)
def execFdbConfigMember (ctx : Nat) (r : FdbMemberReq) (s : State) : Host.Outcome State Fault Refusal := s.onDev (·.mailbox ctx 0x0601 (fdbMember r))

/-- The boundary of a MEMBER: records are kept in ascending source code. -/
def Dev.applyFdbMember (d : Dev) (ref : CmdRef) (r : FdbMemberReq) : Dev :=
  match d.memberBad r with
  | some st => d.complete ref st
  | none =>
    let others := d.fdb.members.filter (fun m => !(m.fid == r.fid && m.source == r.source))
    if r.add then
      let m : Member := { fid := r.fid, source := r.source, flow := r.returnFlow, flood := r.flood }
      (d.modFdb (fun f => { f with members := insertBy (fun a b => decide (a.fid * 65536 + a.source ≤ b.fid * 65536 + b.source)) m others })).complete ref .ok
    else (d.modFdb (fun f => { f with members := others })).startClearing ref (.member r.fid r.source)

/-- FDB_CONFIG LIMIT. -/
def fdbLimit (r : FdbLimitReq) (ref : CmdRef) (d : Dev) : Dev :=
  if !d.scopeOk r.scope ∨ r.limit.elim false (fun n => decide (262144 < n)) then d.complete ref .invalid else d.later (.fdbLimit ref r)
def execFdbConfigLimit (ctx : Nat) (r : FdbLimitReq) (s : State) : Host.Outcome State Fault Refusal := s.onDev (·.mailbox ctx 0x0601 (fdbLimit r))
def Dev.applyFdbLimit (d : Dev) (ref : CmdRef) (r : FdbLimitReq) : Dev :=
  (d.modFdb (fun f => { f with limits := tput f.limits r.scope (none, false) (r.limit, r.excessFlood) })).complete ref .ok (le 4 (d.fdb.scopeCount r.scope))

/-- Rehash the static entries under a new SALT (R251), in ascending index; an entry for which no place is left counts as a failed learn. -/
def Dev.rehash (d : Dev) (salt : Nat) : Dev :=
  let old := d.fdb.entries.filter (fun e => e.2.static)
  let d := d.modFdb (fun f => { f with salt, entries := [] })
  old.foldl (fun d e =>
    match d.insertEnt e.2 with
    | (some _, d) => d
    | (none, d) => (d.count 10 .fdbLearnFail e.2.fid).raiseFirst 0x371 (le 2 e.2.fid)) d

/-- TABLE_REBUILD_DONE (R251, R265). -/
def tableRebuildDone (job : Nat) (d : Dev) : Dev :=
  match d.fdb.rebuilds.find? (fun x => x.job == job && x.running) with
  | none => d
  | some x =>
    let d := d.modFdb (fun f => { f with rebuilds := f.rebuilds.filter (fun y => y.job != job) })
    let d : Dev := match x.what with
      | .salt salt => (d.rehash salt).endOp (fun o => o = .tableRebuild job)
      | .domain fid => d.modFdb (fun f => { f with entries := f.entries.filter (fun e => e.2.static || e.2.fid != fid) })
      | .member fid s => d.modFdb (fun f => { f with entries := f.entries.filter (fun e => e.2.static || e.2.fid != fid || e.2.source != s) })
    d.complete x.ref .ok
def execTableRebuildDone (job : Nat) (s : State) : Host.Outcome State Fault Refusal := s.onDev (tableRebuildDone job)

/-! ### FDB_ENTRY (R252, R266) -/

/-- The 16 bytes of an entry (R252). -/
def FdbEnt.bytes (e : FdbEnt) : Bytes :=
  le 1 (1 + 2 * b2n e.static + 4 * b2n e.hit + 8 * b2n e.aged + 16 * b2n e.sweep) ++ le 1 0 ++ le 2 e.fid ++ be 6 e.mac ++ le 2 e.source ++
    le 4 (e.dest + e.lastSeen * 131072)

/-- INDEX and entry of ADD, DELETE and READ_KEY. -/
def fdbResp (x : Option (Nat × FdbEnt)) : Bytes := x.elim (le 4 0xFFFFFFFF ++ zeros 16) (fun p => le 4 p.1 ++ p.2.bytes)

/-- The domain exists and the MAC is one. -/
def Dev.fdbKeyOk (d : Dev) (fid mac : Nat) : Bool := decide (fid ≤ 4095) && (tget d.fdb.domains fid).isSome && decide (mac < 2 ^ 48)

/-- FDB_ENTRY ADD: through the engine; an existing entry of the key is overwritten. A learned entry is held to the limits of R255 (log entry 33). -/
def fdbAdd (r : FdbAddReq) (ref : CmdRef) (d : Dev) : Dev :=
  if !d.fdbKeyOk r.fid r.mac ∨ 131071 < r.dest ∨ (!r.static ∧ !d.sourceOk r.source) then d.complete ref .invalid
  else
    let src := if r.static then 0xFFFF else r.source
    let here := d.fdb.lookup r.fid r.mac
    let old := here.bind (fun p => if p.2.static then none else some p.2.source)
    if !r.static ∧ (d.fdb.overLimit src old).isSome then d.complete ref .noResource
    else
      match here with
      | some (i, e) =>
        let e := { e with static := r.static, source := src, dest := r.dest, hit := false, aged := false, lastSeen := d.fdb.sweepNo % 32768 }
        (d.putEnt i e).complete ref .ok (fdbResp (some (i, e)))
      | none =>
        let (e, d) := d.newEnt r.static r.fid r.mac src r.dest
        match d.insertEnt e with
        | (some i, d) => d.complete ref .ok (fdbResp (some (i, e)))
        | (none, d) => d.complete ref .noResource
def execFdbEntryAdd (ctx : Nat) (r : FdbAddReq) (s : State) : Host.Outcome State Fault Refusal := s.onDev (·.mailbox ctx 0x0602 (fdbAdd r))

/-- FDB_ENTRY DELETE. -/
def fdbDelete (fid mac : Nat) (ref : CmdRef) (d : Dev) : Dev :=
  if !d.fdbKeyOk fid mac then d.complete ref .invalid
  else
    let x := d.fdb.lookup fid mac
    (x.elim d (fun p => d.delEnt p.1)).complete ref .ok (fdbResp x)
def execFdbEntryDelete (ctx fid mac : Nat) (s : State) : Host.Outcome State Fault Refusal := s.onDev (·.mailbox ctx 0x0602 (fdbDelete fid mac))

/-- FDB_ENTRY READ_KEY. -/
def fdbReadKey (fid mac : Nat) (ref : CmdRef) (d : Dev) : Dev :=
  if !d.fdbKeyOk fid mac then d.complete ref .invalid else d.complete ref .ok (fdbResp (d.fdb.lookup fid mac))
def execFdbEntryReadKey (ctx fid mac : Nat) (s : State) : Host.Outcome State Fault Refusal := s.onDev (·.mailbox ctx 0x0602 (fdbReadKey fid mac))

/-- FDB_ENTRY FLUSH: a table rebuild (R493). -/
def fdbFlush (ctx : Nat) (r : FdbFlushReq) (ref : CmdRef) (d : Dev) : Dev :=
  if r.fid.elim false (fun n => decide (4095 < n) || (tget d.fdb.domains n).isNone) ∨ r.scope.elim false (fun n => !d.scopeOk n) then d.complete ref .invalid
  else
    let (job, d) := d.newFdbJob
    let q := d.request (.tableRebuild job) ctx (some ref)
    if q.2 then
      q.1.modFdb (fun f => { f with flushes := f.flushes ++ [{ job, ref, fid := r.fid, scope := r.scope, next := 0, removed := 0, running := false }] })
    else q.1.complete ref .notAdmitted
def execFdbEntryFlush (ctx : Nat) (r : FdbFlushReq) (s : State) : Host.Outcome State Fault Refusal := s.onDev (·.mailbox ctx 0x0602 (fdbFlush ctx r))

/-- Does a flush clear this entry? -/
def FlushJob.hits (j : FlushJob) (e : FdbEnt) : Bool :=
  !e.static && j.fid.elim true (fun n => n == e.fid) && j.scope.elim true (fun n => inScope n e.source)

/-- The flushes of a tick, in order: up to 65,536 entries; a flush that reaches the end completes. -/
def Dev.flushTick (d : Dev) : Dev :=
  let rec go : (budget : Nat) → List FlushJob → Dev → Dev
    | _, [], d => d
    | b, j :: t, d =>
      let k := if b < 262144 - j.next then b else 262144 - j.next
      let gone := d.fdb.entries.filter (fun e => decide (j.next ≤ e.1) && decide (e.1 < j.next + k) && j.hits e.2)
      let d := d.modFdb (fun f =>
        { f with entries := f.entries.filter (fun e => !(decide (j.next ≤ e.1) && decide (e.1 < j.next + k) && j.hits e.2)) })
      let removed := j.removed + gone.length
      if j.next + k = 262144 then
        let d := d.modFdb (fun f => { f with flushes := f.flushes.filter (fun x => x.job != j.job) })
        go (b - k) t ((d.endOp (fun o => o = .tableRebuild j.job)).complete j.ref .ok (le 4 removed))
      else
        let flushes := d.fdb.flushes.map (fun (x : FlushJob) => if x.job = j.job then { x with next := j.next + k, removed } else x)
        d.modFdb (fun f => { f with flushes })
  go 65536 (d.fdb.flushes.filter (fun j => j.running)) d

/-- FDB_ENTRY READ_INDEX: COUNT entries from INDEX, up to the end of the table; an entry that is not valid reads as zeros. -/
def fdbReadIndex (index count : Nat) (ref : CmdRef) (d : Dev) : Dev :=
  if 262143 < index ∨ count = 0 ∨ 64 < count then d.complete ref .invalid
  else
    let n := if 262144 - index < count then 262144 - index else count
    d.complete ref .ok (le 4 n ++ (rangeFrom index n).flatMap (fun i => (tget d.fdb.entries i).elim (zeros 16) FdbEnt.bytes))
def execFdbEntryReadIndex (ctx index count : Nat) (s : State) : Host.Outcome State Fault Refusal := s.onDev (·.mailbox ctx 0x0602 (fdbReadIndex index count))

/-! ### CAM commands (R267, R268) -/

/-- Entries a table has room for. -/
def CamTable.depth (t : CamTable) : Nat := t.banks / t.width * 4096

/-- A table holds a valid entry. -/
def Cam.holds (c : Cam) (t : Nat) : Bool := c.entries.any (fun e => e.1 / 65536 == t)

/-- The status of a CAM_LAYOUT that is not OK. Bits 7:5 of INPUT_MASK and the offsets beyond WIDTH are ignored (R7). -/
def Dev.layoutBad (d : Dev) (r : CamLayoutReq) : Option Status :=
  let overlap := d.cam.tables.any (fun e => e.1 != r.table && decide (e.2.firstBank < r.firstBank + r.banks) && decide (r.firstBank < e.2.firstBank + e.2.banks))
  let fields := decide (r.banks = 0) || decide (16 < r.firstBank + r.banks) || !(r.width == 1 || r.width == 2 || r.width == 4) ||
    decide (r.firstBank % r.width ≠ 0) || decide (r.banks % r.width ≠ 0) || (r.segOff.take r.width).any (fun o => decide (60 < o)) || !ringOk r.mgmtRing
  if 7 < r.table ∨ (r.enable ∧ (fields ∨ overlap)) then some .invalid
  else if d.cam.holds r.table then some .denied
  else none

def camLayout (r : CamLayoutReq) (ref : CmdRef) (d : Dev) : Dev :=
  match d.layoutBad r with
  | some st => d.complete ref st
  | none => d.later (.camLayout ref r)
def execCamLayout (ctx : Nat) (r : CamLayoutReq) (s : State) : Host.Outcome State Fault Refusal := s.onDev (·.mailbox ctx 0x0603 (camLayout r))
def Dev.applyCamLayout (d : Dev) (ref : CmdRef) (r : CamLayoutReq) : Dev :=
  match d.layoutBad r with
  | some st => d.complete ref st
  | none =>
    let tables :=
      if r.enable then
        tset d.cam.tables r.table
          { firstBank := r.firstBank, banks := r.banks, width := r.width, inputMask := r.inputMask % 32, segOff := r.segOff.take r.width, mgmtRing := r.mgmtRing }
      else tdel d.cam.tables r.table
    ({ d with cam := { d.cam with tables } }).complete ref .ok

/-- The table of a CAM_ENTRY command, where it is enabled and the index lies within its depth. -/
def Dev.camAt (d : Dev) (t i : Nat) : Option CamTable := (tget d.cam.tables t).filter (fun x => decide (i < x.depth))

/-- CAM_ENTRY WRITE (R264): rows, result and verify copy in one clock. CLASS and FLOW are for ACTION FLOW, KEY words beyond the width unused (R7, R268). -/
def camWrite (r : CamWriteReq) (ref : CmdRef) (d : Dev) : Dev :=
  match d.camAt r.table r.index with
  | none => d.complete ref .invalid
  | some t =>
    if 2 < r.action ∨ (r.action = 0 ∧ (7 < r.cls ∨ 131071 < r.flow)) then d.complete ref .invalid
    else
      let k := fit (20 * t.width) r.key
      let e : CamEnt :=
        { rows := k, copy := k, priority := r.priority % 4096, action := r.action, cls := if r.action = 0 then r.cls else 0,
          flow := if r.action = 0 then r.flow else 0 }
      ({ d with cam := { d.cam with entries := tset d.cam.entries (camKey r.table r.index) e } }).complete ref .ok
def execCamEntryWrite (ctx : Nat) (r : CamWriteReq) (s : State) : Host.Outcome State Fault Refusal := s.onDev (·.mailbox ctx 0x0604 (camWrite r))

/-- CAM_ENTRY INVALIDATE. -/
def camInvalidate (table index : Nat) (ref : CmdRef) (d : Dev) : Dev :=
  match d.camAt table index with
  | none => d.complete ref .invalid
  | some _ => ({ d with cam := { d.cam with entries := tdel d.cam.entries (camKey table index) } }).complete ref .ok
def execCamEntryInvalidate (ctx table index : Nat) (s : State) : Host.Outcome State Fault Refusal := s.onDev (·.mailbox ctx 0x0604 (camInvalidate table index))

/-- CAM_ENTRY READ: the request layout from the verify copy. -/
def camRead (table index : Nat) (ref : CmdRef) (d : Dev) : Dev :=
  match d.camAt table index with
  | none => d.complete ref .invalid
  | some _ =>
    let e := tget d.cam.entries (camKey table index)
    d.complete ref .ok (le 1 2 ++ le 1 table ++ le 2 (b2n e.isSome) ++ le 4 index ++
      e.elim (zeros 88) (fun e => le 2 e.priority ++ le 1 e.action ++ le 1 e.cls ++ le 4 e.flow ++ fit 80 e.copy))
def execCamEntryRead (ctx table index : Nat) (s : State) : Host.Outcome State Fault Refusal := s.onDev (·.mailbox ctx 0x0604 (camRead table index))

end Sys2Proof.Machine
end

