-- ==== Sys2Proof/Machine/Recorder.lean ====
section
/-!
DEFINITION. The disturbance recorder (chapter 17): watched streams, Fold, piles, the pre-trigger ring, triggers, captures and their store.
-/
namespace Sys2Proof.Machine

/-! ### Decoding the APDUs (R413, R422); the encoding is that of IEC 61850-9-2 and 8-1, log entry 35 -/

/-- A tag, its length and its content at the front of a BER string: the tag, the content, the rest. -/
def berTake (l : Bytes) : Option (Nat × Bytes × Bytes) :=
  match l with
  | t :: n :: r =>
    let n := n.toNat
    let x : Option (Nat × Bytes) := if n < 128 then some (n, r) else if n = 129 then some (leAt r 0 1, r.drop 1) else if n = 130 then some (beAt r 0 2, r.drop 2) else none
    x.bind (fun p => if p.2.length < p.1 then none else some (t.toNat, p.2.take p.1, p.2.drop p.1))
  | _ => none

/-- The elements of a BER string; none where it does not decode. -/
def berAll : (fuel : Nat) → Bytes → Option (List (Nat × Bytes))
  | 0, _ => none
  | _ + 1, [] => some []
  | f + 1, l => (berTake l).bind (fun x => (berAll f x.2.2).map (fun r => (x.1, x.2.1) :: r))

def berItems (l : Bytes) : Option (List (Nat × Bytes)) := berAll (l.length + 1) l
def berGet (xs : List (Nat × Bytes)) (tag : Nat) : Option Bytes := (xs.find? (fun x => x.1 == tag)).map (·.2)

/-- The APDU behind an APPID header at offset `o`: eight bytes, the second word its length. -/
def apduAt (pkt : Bytes) (o : Nat) : Option Bytes :=
  let n := beAt pkt (o + 2) 2
  if n < 8 ∨ pkt.length < o + n then none else some (slice pkt (o + 8) (n - 8))

/-- The pairs of value and quality of a seqData. -/
def pairsOf : (n : Nat) → Bytes → List (Int × Nat)
  | 0, _ => []
  | n + 1, l => (signed 32 (beAt l 0 4), beAt l 4 4) :: pairsOf n (l.drop 8)

/-- One ASDU. -/
def asduOf (st : Stamp) (nch : Nat) (l : Bytes) : Option Asdu :=
  (berItems l).bind fun xs =>
    match berGet xs 0x82, berGet xs 0x83, berGet xs 0x85, berGet xs 0x87 with
    | some c, some r, some y, some d =>
      if c.length = 2 ∧ r.length = 4 ∧ y.length = 1 ∧ d.length = 8 * nch then
        some { st, smpCnt := ofBE c, confRev := ofBE r, smpSynch := ofBE y, data := pairsOf nch d }
      else none
    | _, _, _, _ => none

/-- The ASDUs of an SV frame; none where it cannot be decoded or carries another number of pairs (R413). -/
def asdusOf (st : Stamp) (nch : Nat) (pkt : Bytes) (o : Nat) : Option (List Asdu) :=
  (apduAt pkt o).bind fun a =>
    (berTake a).bind fun x =>
      if x.1 ≠ 0x60 then none
      else (berItems x.2.1).bind fun xs => (berGet xs 0xA2).bind fun s => (berItems s).bind fun l =>
        if l.isEmpty ∨ l.any (fun e => e.1 != 0x30) then none else l.mapM (fun e => asduOf st nch e.2)

/-- stNum of a GOOSE frame. -/
def stNumOf (pkt : Bytes) (o : Nat) : Option Nat :=
  (apduAt pkt o).bind fun a =>
    (berTake a).bind fun x => if x.1 ≠ 0x61 then none else (berItems x.2.1).bind fun xs => (berGet xs 0x85).map ofBE

/-! ### Fold (R414 to R419) -/

/-- The zig-zag of R415. -/
def zigzag (q : Int) : Nat := if 0 ≤ q then (2 * q).toNat else (-2 * q - 1).toNat

/-- The code of a value under a Rice parameter; none where it takes the escape. -/
def rice (p u : Nat) : Option (List Bool) :=
  if 32 ≤ u / 2 ^ p then none else some (List.replicate (u / 2 ^ p) true ++ false :: natBits p u)

/-- The escape: 32 ones and the value as 32 bits. -/
def escape (x : Int) : List Bool := List.replicate 32 true ++ natBits 32 (unsign 32 x)

def ChanRun.start : ChanRun := { y1 := 0, y2 := 0, n := 0, quality := none }

/-- The prediction of R415. -/
def ChanRun.predict (r : ChanRun) : Int := if r.n = 0 then 0 else if r.n = 1 then r.y1 else 2 * r.y1 - r.y2

/-- `q` and the decoded value of a sample (R415): `d` is 0 in lossless mode and 2^k − 1 in bounded mode. -/
def quantise (d : Nat) (xh x : Int) : Int × Int :=
  let r := x - xh
  let m : Int := ((r.natAbs + d) / (2 * d + 1) : Nat)
  let q := if 0 ≤ r then m else -m
  (q, xh + q * (2 * d + 1 : Nat))

/-- Code one sample (R415) under parameter `p`: its bits and the run after it. -/
def foldSample (d p : Nat) (r : ChanRun) (x : Int) : List Bool × ChanRun :=
  let qy := quantise d r.predict x
  let far := decide (qy.2 < -2147483648) || decide (2147483647 < qy.2)
  match (if far then none else rice p (zigzag qy.1)) with
  | some bits => (bits, { r with y2 := r.y1, y1 := qy.2, n := r.n + 1 })
  | none => (escape x, { r with y2 := r.y1, y1 := x, n := r.n + 1 })

/-- Code the samples of a channel. -/
def foldChan (d p : Nat) (r : ChanRun) (xs : List Int) : List Bool × ChanRun :=
  xs.foldl (fun acc x => let s := foldSample d p acc.2 x; (acc.1 ++ s.1, s.2)) ([], r)

/-- The parameter of fewest bits, the lowest where several give them (R417). -/
def bestParam (f : Nat → List Bool) : Nat :=
  ((List.range 31).foldl (fun (b : Nat × Option Nat) p =>
    let n := (f p).length
    if b.2.elim true (fun m => decide (n < m)) then (p, some n) else b) (0, none)).1

/-- The clock of a stamp. -/
def Stamp.clk (s : Stamp) : Nat := s.cycle * Config.clocksPerTick + s.pos

/-- The time codes of ASDUs 2 and later (R417). -/
def timeCodes (p : Nat) : List Asdu → List Bool
  | a :: b :: t =>
    let x : Int := (b.st.clk : Int) - (a.st.clk : Int)
    (match rice p (zigzag x) with
      | some l => l
      | none => escape x) ++ timeCodes p (b :: t)
  | _ => []

/-- Quality codes of one ASDU (R417): the bits and the words to compare with next. -/
def qualCodes : List (Option Nat) → List (Int × Nat) → List Bool × List (Option Nat)
  | o :: os, x :: xs =>
    let r := qualCodes os xs
    ((if o = some x.2 then [false] else true :: natBits 32 x.2) ++ r.1, some x.2 :: r.2)
  | _, _ => ([], [])

/-- Bits as bytes, padded with zero bits. -/
def packPad (l : List Bool) : Bytes := packBits (l ++ List.replicate ((8 - l.length % 8) % 8) false)

/-- The SV_FOLD record of a stream's block (R419) and the stream after it; RUN_START where a run begins. -/
def Stream.encode (s : Stream) (i : Nat) : Bytes × Stream :=
  match s.block with
  | [] => ([], s)
  | a :: _ =>
    let n := s.set.nch
    let runs := if s.newRun then List.replicate n ChanRun.start else s.runs
    let d := if s.set.bounded then 2 ^ s.set.k - 1 else 0
    let pt := bestParam (fun p => timeCodes p s.block)
    let chans := (List.range n).map (fun c =>
      let r := lget runs c ChanRun.start
      let xs := s.block.map (fun a => (lget a.data c (0, 0)).1)
      let p := bestParam (fun p => (foldChan d p r xs).1)
      let o := foldChan d p r xs
      (natBits 5 p ++ o.1, o.2))
    let q := s.block.foldl (fun (acc : List Bool × List (Option Nat)) a =>
      let x := qualCodes acc.2 a.data
      (acc.1 ++ x.1, x.2)) (([] : List Bool), runs.map (·.quality))
    let bits := packPad (natBits 5 pt ++ timeCodes pt s.block ++ chans.flatMap (·.1) ++ q.1)
    let flags := b2n s.set.bounded + 2 * (s.set.k - 1) + 16 * b2n s.newRun
    let rec_ := le 1 1 ++ le 1 flags ++ le 2 i ++ le 2 (28 + bits.length) ++ le 1 s.block.length ++ le 1 n ++ le 6 a.st.cycle ++ le 4 a.st.pos ++
      le 2 a.smpCnt ++ le 4 a.confRev ++ le 1 a.smpSynch ++ zeros 3 ++ bits
    let runs := (List.range n).map (fun c => { (lget chans c ([], ChanRun.start)).2 with quality := lget q.2 c none })
    (rec_, { s with block := [], runs, newRun := false })

/-- The head of the other records (R420). -/
def recHead (typ stream len : Nat) (st : Stamp) : Bytes := le 1 typ ++ le 1 0 ++ le 2 stream ++ le 2 (16 + len) ++ le 6 st.cycle ++ le 4 st.pos

/-! ### Piles and the ring (R418, R421) -/

def Dev.modRec (d : Dev) (f : Recorder → Recorder) : Dev := { d with recd := f d.recd }
def Dev.stream (d : Dev) (i : Nat) : Option Stream := tget d.recd.streams i
def Dev.modStream (d : Dev) (i : Nat) (f : Stream → Stream) : Dev := d.modRec (fun r => { r with streams := tmod r.streams i f })

/-- The stamp of this tick at clock `pos`. -/
def Dev.stamp (d : Dev) (pos : Nat) : Stamp :=
  { cycle := d.now, pos, tod := d.time.latched, valid := d.time.todValid, inc := d.time.inc }

/-- The bytes of a pile (R418). -/
def OpenPile.bytes (p : OpenPile) (seq : Nat) (step : Bool) : Bytes :=
  let flags := b2n p.gap + 2 * b2n step + 4 * b2n p.first.valid
  let tod := if p.first.valid then p.first.tod else 0
  let head := le 4 0x454C4950 ++ le 2 1 ++ le 2 flags ++ le 8 seq ++ le 8 p.first.cycle ++ le 8 p.lastCycle ++ le 8 (secOf tod) ++ le 4 (nsOf tod) ++
    le 4 (fracOf tod) ++ le 8 p.first.inc ++ le 4 p.records.length
  fit 65536 (head ++ le 4 (crc32c (head ++ p.records)) ++ p.records)

/-- Slots of the ring (R421). -/
def Recorder.ringSlots (r : Recorder) : Nat := r.set.ring * 16

/-- A record of the pile lies in S to E of a capture. -/
def Capture.includes (c : Capture) (clocks : List Nat) : Bool := clocks.any (fun x => decide (c.s ≤ x) && decide (x ≤ c.e))

/-- A ring slot is pinned by a capture that has not stored it (R421). -/
def Recorder.pinned (r : Recorder) (slot : Nat) : Bool :=
  r.captures.any (fun c => c.pins.contains slot)

/-- Does a slot of the store belong to an entry (R426)? -/
def DirEnt.owns (e : DirEnt) (area slot : Nat) : Bool := decide ((slot + area - e.firstSlot) % area < e.piles)

/-- The stored piles of an entry, by slot. -/
def DirEnt.slots (e : DirEnt) (area : Nat) : List Nat := (List.range e.piles).map (fun i => 64 + (e.firstSlot - 64 + i) % area)

/-- Data area of the store in piles. -/
def Recorder.area (r : Recorder) : Nat := r.storeSlots - 64

/-- Remove an entry from the directory and deallocate its slots. -/
def Recorder.delete (r : Recorder) (id : Nat) : Recorder :=
  match r.dir.find? (fun e => e.id == id) with
  | none => r
  | some e =>
    { r with dir := r.dir.filter (fun x => x.id != id), store := (e.slots r.area).foldl tdel r.store, nvme := r.nvme ++ [.deallocate (e.slots r.area)] }

/-- The directory holds 65,536 entries (R426). -/
def dirEntries : Nat := 65536

/-- The capture being stored: the first that Sluice has admitted; captures are stored one after another, so that each is contiguous (R426). -/
def Recorder.active (r : Recorder) : Option Capture := (r.captures.head?).filter (fun c => c.phase != .waiting)

def Recorder.modActive (r : Recorder) (f : Capture → Capture) : Recorder :=
  match r.captures with
  | [] => r
  | c :: t => { r with captures := f c :: t }

/-- Take the next store slot for the next pile of the capture being stored (R426). Where it belongs to a KEEP capture, this one ends. -/
def Dev.nextWrite (d : Dev) (c : Capture) (pin : Nat) : Dev :=
  let slot := d.recd.storeNext
  let old := d.recd.dir.find? (fun e => e.owns d.recd.area slot)
  if old.elim false (fun e => e.keep) then
    let full (c : Capture) : Capture :=
      { c with e := if c.ended then c.e else (d.stamp 0).clk, ended := true, pins := c.pins.filter (fun x => c.writing.any (fun w => w.pin == x)), ent := { c.ent with full := true } }
    (d.modRec (fun r => { (r.modActive full) with full := true })).raise 0x385 (le 8 (old.elim 0 (·.id)))
  else
    let d : Dev := match old with
      | some e => (d.modRec (fun r => r.delete e.id)).countDev .recEvicted
      | none => d
    let first := c.ent.piles = 0 ∧ c.writing.isEmpty
    d.modRec (fun r => { (r.modActive (fun c =>
        { c with writing := c.writing ++ [{ pin, slot, retried := false }], ent := if first then { c.ent with firstSlot := slot } else c.ent })) with
      storeNext := if slot + 1 < r.storeSlots then slot + 1 else 64 })

/-- The store goes on: every pinned pile is written, as long as fewer than 1,024 commands are in flight (R26); after the last pile of an ended
capture follows its first Flush (R424). -/
def Dev.pumpGo : (fuel : Nat) → Dev → Dev
  | 0, d => d
  | f + 1, d =>
    match d.recd.active with
    | none => d
    | some c =>
      if c.phase ≠ .piles then d
      else
        match c.pins.find? (fun p => !c.writing.any (fun w => w.pin == p)) with
        | some pin => if Config.nvmeSlots ≤ c.writing.length + d.recd.nvme.length then d else Dev.pumpGo f (d.nextWrite c pin)
        | none => if c.ended ∧ c.writing.isEmpty ∧ c.pins.isEmpty then d.modRec (·.modActive (fun c => { c with phase := .flush1 })) else d
def Dev.pump (d : Dev) : Dev := Dev.pumpGo (d.recd.active.elim 0 (fun c => c.pins.length) + 1) d

/-- The open pile is closed and written to the ring, as 256 HBM transactions of requester 82, or discarded at a pinned slot (R421). Every stream's next block starts a run. -/
def Dev.finalize (d : Dev) (step : Bool) (now : Nat) : Dev :=
  match d.recd.pile with
  | none => d
  | some p =>
    let seq := d.recd.pileSeq
    let slot := d.recd.ringNext
    let streams := tmap d.recd.streams (fun _ (s : Stream) => { s with newRun := true })
    let d := d.modRec (fun r => { r with pile := none, pileSeq := seq + 1, streams })
    if d.recd.ringSlots = 0 then d
    else if d.recd.pinned slot then
      let captures := d.recd.captures.map (fun (c : Capture) => if c.ended then c else { c with ent := { c.ent with gap := true } })
      ((d.modRec (fun r => { r with captures })).countDev .recRingOverrun).raiseFirst 0x383 (le 8 seq)
    else
      let x : RingPile := { slot, seq, clocks := p.clocks, bytes := p.bytes seq step }
      let captures := d.recd.captures.map (fun (c : Capture) =>
        if !c.ended && c.includes p.clocks then { c with pins := c.pins ++ [slot] } else c)
      (d.modRec (fun r =>
        { r with ring := r.ring.filter (fun y => y.slot != slot) ++ [x], ringNext := (slot + 1) % r.ringSlots, captures })).pump.hbmAsk 82 256 (some (d.clk now)) (.pile slot)

/-- Append a record to the open pile, opening one. -/
def Dev.append (d : Dev) (rec_ : Bytes) (st : Stamp) (now : Nat) : Dev :=
  let p : OpenPile := match d.recd.pile with
    | some p => p
    | none => { opened := (d.stamp now).clk, gap := false, first := st, lastCycle := st.cycle, clocks := [], records := [] }
  let p := { p with lastCycle := st.cycle, clocks := p.clocks ++ [st.clk], records := p.records ++ rec_ }
  d.modRec (fun r => { r with pile := some p })

/-- A record fits into the open pile (or into a new one). -/
def Dev.recFits (d : Dev) (n : Nat) : Bool := d.recd.pile.elim true (fun p => decide (p.records.length + n ≤ 65472))

/-- The GAP record that goes before a stream's next record (R420). -/
def Stream.gap (s : Stream) (i : Nat) (st : Stamp) : Bytes := if s.dropped = 0 then [] else recHead 4 i 4 st ++ le 4 s.dropped

/-- Write the block of a stream, where it fits; true says that it was written. -/
def Dev.writeBlock (d : Dev) (i now : Nat) : Bool × Dev :=
  match d.stream i with
  | none => (true, d)
  | some s =>
    match s.block with
    | [] => (true, d)
    | a :: _ =>
      let o := s.encode i
      let rec_ := s.gap i a.st ++ o.1
      if d.recFits rec_.length then (true, (d.append rec_ a.st now).modStream i (fun _ => { o.2 with dropped := 0 })) else (false, d)

/-- The streams whose block is open. -/
def Dev.openBlocks (d : Dev) : List Nat := (d.recd.streams.filter (fun e => !e.2.block.isEmpty)).map (·.1)

/-- The open pile closes (R414, R418): the open blocks close with it, in stream order; those that do not fit begin the next pile. -/
def Dev.closePile (d : Dev) (step : Bool) (now : Nat) : Dev :=
  let d := d.openBlocks.foldl (fun d i => (d.writeBlock i now).2) d
  let d := d.finalize step now
  d.openBlocks.foldl (fun d i =>
    match d.writeBlock i now with
    | (true, d) => d
    | (false, d) => ((d.finalize step now).writeBlock i now).2) d

/-- Everything gathered so far is closed: a step of time, the end of a capture, the stop of the recorder. -/
def Dev.closeAll (d : Dev) (step : Bool) (now : Nat) : Dev :=
  if d.recd.pile.isNone ∧ d.openBlocks.isEmpty then d else (d.closePile step now).finalize step now

/-- Close the block of a stream. -/
def Dev.closeBlock (d : Dev) (i now : Nat) : Dev :=
  match d.writeBlock i now with
  | (true, d) => d
  | (false, d) => d.closePile false now

/-- Write a record that is no block. -/
def Dev.writeRec (d : Dev) (rec_ : Bytes) (st : Stamp) (now : Nat) : Dev :=
  let d := if d.recFits rec_.length then d else d.closePile false now
  -- the blocks that did not fit the pile before may fill the new one
  let d := if d.recFits rec_.length then d else d.finalize false now
  d.append rec_ st now

/-- TRIGGER records of one clock stand in ascending SOURCE, then DETAIL (R422): the one just written, at the end of the open pile, takes its place among those
already there. -/
def OpenPile.sortTriggers (p : OpenPile) (st : Stamp) (rec_ : Bytes) : OpenPile :=
  let same := p.trigs.filter (fun e => leAt e.2 6 6 == st.cycle && leAt e.2 12 4 == st.pos)
  let trigs := same ++ [(p.records.length - rec_.length, rec_)]
  let key (b : Bytes) : Nat := leAt b 16 1 * 256 + leAt b 17 1
  let trigs := (trigs.map (·.1)).zip (sortBy (fun a b => decide (key a ≤ key b)) (trigs.map (·.2)))
  { p with trigs, records := trigs.foldl (fun l e => l.take e.1 ++ e.2 ++ l.drop (e.1 + e.2.length)) p.records }

/-- FOLD_BLOCK_TIMEOUT (R414): 2 ms after a block's first ASDU. -/
def foldTimeout (i now : Nat) (d : Dev) : Dev :=
  match (d.stream i).bind (fun s => s.block.head?) with
  | none => d
  | some a => if a.st.clk + 16 * Config.clocksPerTick ≤ (d.stamp now).clk then d.closeBlock i now else d
def execFoldBlockTimeout (stream now : Nat) (s : State) : Host.Outcome State Fault Refusal := s.onDev (foldTimeout stream now)

/-- PILE_TIMEOUT (R418): 16 ms after the pile opened. -/
def pileTimeout (now : Nat) (d : Dev) : Dev :=
  match d.recd.pile with
  | none => d
  | some p => if p.opened + 128 * Config.clocksPerTick ≤ (d.stamp now).clk then d.closePile false now else d
def execPileTimeout (now : Nat) (s : State) : Host.Outcome State Fault Refusal := s.onDev (pileTimeout now)

/-! ### Triggers and captures (R422 to R424) -/

/-- Clocks of a number of milliseconds: 8 ticks each. -/
def msClocks (ms : Nat) : Nat := ms * 8 * Config.clocksPerTick

/-- A capture fails (R424): its piles are unpinned. -/
def Dev.captureFail (d : Dev) (id : Nat) : Dev :=
  let d := (d.modRec (fun r => { r with captures := r.captures.filter (fun c => c.ent.id != id) })).raise 0x382 (le 8 id)
  (d.endOp (fun o => o = .recorderFlush id)).pump

/-- A trigger opens a capture (R423); it is put to Sluice at once (R424). -/
def Dev.openCapture (d : Dev) (s t source detail tag : Nat) (fresh : Bool) (st : Stamp) : Dev :=
  let held := d.recd.ring.flatMap (·.clocks) ++ d.recd.pile.elim [] (·.clocks)
  let oldest := minOf t held
  let short := fresh && decide (s < oldest)
  let s := if short then oldest else s
  let id := d.recd.nextId
  let ent : DirEnt :=
    { id, firstSlot := 64, piles := 0, keep := false, shortPre := short, gap := false, full := false, triggers := 1, startCycle := s / Config.clocksPerTick,
      endCycle := 0, trigCycle := st.cycle, trigPos := st.pos, source, detail, tag }
  let pins := (d.recd.ring.filter (fun p => p.clocks.any (fun x => decide (s ≤ x)))).map (·.slot)
  let c : Capture :=
    { s, e := t + msClocks d.recd.set.postMs, t, ended := false, pins, writing := [], phase := .waiting, retried := false, ent }
  let d := (d.modRec (fun r => { r with nextId := id + 1, captures := r.captures ++ [c] })).countDev .recCaptures
  let d := d.raise 0x380 (le 8 id ++ le 1 source ++ le 1 detail)
  let q := d.request (.recorderFlush id) 10 none
  if q.2 then q.1 else q.1.captureFail id

/-- A trigger fires (R422, R423): its record, and the capture it opens or extends (0 where it opens none). -/
def Dev.trigger (d : Dev) (st : Stamp) (source detail tag now : Nat) : Nat × Dev :=
  if !d.recd.set.run then (0, d)
  else
    let t := st.clk
    let open_ := (d.recd.captures.filter (fun c => !c.ended && decide (t ≤ c.e))).getLast?
    let id : Nat × Dev := match open_ with
      | none =>
        if d.recd.full then (0, d)
        else (d.recd.nextId, d.openCapture (t - msClocks d.recd.set.preMs) t source detail tag true st)
      | some c =>
        let limit := c.t + msClocks d.recd.set.maxMs
        if c.e = limit then (if d.recd.full then (0, d) else (d.recd.nextId, d.openCapture c.e t source detail tag false st))
        else
          let e := Nat.min (Nat.max c.e (t + msClocks d.recd.set.postMs)) limit
          -- of several triggers in the clock of the first, the one of lowest SOURCE and DETAIL is the first (R422)
          let first := t = c.t ∧ source * 256 + detail < c.ent.source * 256 + c.ent.detail
          let ent := if first then { c.ent with source, detail, tag } else c.ent
          let captures := d.recd.captures.map (fun (x : Capture) =>
            if x.ent.id = c.ent.id then { x with e, ent := { ent with triggers := Nat.min 65535 (x.ent.triggers + 1) } } else x)
          (c.ent.id, d.modRec (fun r => { r with captures }))
    let rec_ := recHead 5 0xFFFF 8 st ++ le 1 source ++ le 1 detail ++ le 2 0 ++ le 4 tag
    (id.1, (id.2.writeRec rec_ st now).modRec (fun r => { r with pile := r.pile.map (fun p => p.sortTriggers st rec_) }))

/-- CAPTURE_END (R423): E is reached, and the last pile closes. -/
def captureEnd (id now : Nat) (d : Dev) : Dev :=
  match d.recd.captures.find? (fun c => c.ent.id == id && !c.ended) with
  | none => d
  | some c =>
    if (d.stamp now).clk < c.e then d
    else
      let d := d.closeAll false now
      let captures := d.recd.captures.map (fun (x : Capture) => if x.ent.id = id then { x with ended := true } else x)
      (d.modRec (fun r => { r with captures })).pump
def execCaptureEnd (id now : Nat) (s : State) : Host.Outcome State Fault Refusal := s.onDev (captureEnd id now)

/-- Sluice admits the store of a capture (R424). -/
def Dev.admitFlush (d : Dev) (id : Nat) : Dev :=
  let captures := d.recd.captures.map (fun (c : Capture) => if c.ent.id = id ∧ c.phase = .waiting then { c with phase := .piles } else c)
  (d.modRec (fun r => { r with captures })).pump

/-- FLAGS of a directory entry. -/
def DirEnt.flags (e : DirEnt) : Nat := b2n e.keep + 2 * b2n e.shortPre + 4 * b2n e.gap + 8 * b2n e.full

/-- The 64 bytes of a directory entry (R426). -/
def DirEnt.bytes (e : DirEnt) : Bytes :=
  let b := le 8 e.id ++ le 8 e.firstSlot ++ le 4 e.piles ++ le 2 e.flags ++ le 2 e.triggers ++ le 8 e.startCycle ++ le 8 e.endCycle ++ le 8 e.trigCycle ++
    le 4 e.trigPos ++ le 1 e.source ++ le 1 e.detail ++ le 2 0 ++ le 4 e.tag
  b ++ le 4 (crc32c b)

/-- A step of the store succeeds (R424); `cmd` names the write. -/
def Dev.stored (d : Dev) (c : Capture) (cmd : Nat) : Dev :=
  match c.phase with
  | .waiting => d
  | .piles =>
    (match c.writing[cmd]? with
      | none => d
      | some w =>
        let bytes := (d.recd.ring.find? (fun p => p.slot == w.pin)).elim [] (·.bytes)
        let done (c : Capture) : Capture :=
          { c with pins := c.pins.filter (· != w.pin), writing := c.writing.eraseIdx cmd, ent := { c.ent with piles := c.ent.piles + 1 } }
        let d := d.modRec (fun r => { (r.modActive done) with store := tset r.store w.slot bytes })
        (d.countDev .recPilesStored).pump)
  | .flush1 => d.modRec (·.modActive (fun c => { c with phase := .entry, retried := false, ent := { c.ent with endCycle := c.e / Config.clocksPerTick } }))
  | .entry => d.modRec (·.modActive (fun c => { c with phase := .flush2, retried := false }))
  | .flush2 =>
    -- in a full directory the entry of the oldest capture goes (log entry 111)
    let oldest := if d.recd.dir.length < dirEntries then none else ((d.recd.dir.find? (fun e => !e.keep)).orElse (fun _ => d.recd.dir.head?))
    let d := match oldest with
      | some e => (d.modRec (fun r => r.delete e.id)).countDev .recEvicted
      | none => d
    let d := d.modRec (fun r => { r with dir := r.dir ++ [c.ent], captures := r.captures.drop 1 })
    let d := d.raise 0x381 (le 8 c.ent.id ++ le 4 c.ent.piles ++ le 2 c.ent.flags)
    (d.endOp (fun o => o = .recorderFlush c.ent.id)).pump

/-- A failed NVMe command is counted and reported (R430). -/
def Dev.nvmeError (d : Dev) (r : NvmeDone) : Dev := (d.countDev .recNvmeErr).raise 0x386 (le 1 r.opcode ++ le 2 r.status)

/-- A command of the capture being stored ends (R424). A failed one is retried once. -/
def storeDone (r : NvmeDone) (d : Dev) : Dev :=
  match d.recd.active with
  | none => d
  | some c =>
    if c.phase = .piles ∧ c.writing.length ≤ r.cmd then d
    else if r.ok then d.stored c r.cmd
    else
      let d := d.nvmeError r
      let again := if c.phase = .piles then (c.writing[r.cmd]?).elim false (·.retried) else c.retried
      if again then d.captureFail c.ent.id
      else d.modRec (·.modActive (fun c =>
        if c.phase = .piles then { c with writing := c.writing.modify r.cmd (fun w => { w with retried := true }) } else { c with retried := true }))

/-- A Read or a deallocation ends (R425, R429): a pile that was read is written to host memory and READ_PILE completes; a Read that fails completes it INVALID (log
entry 111). A Read cannot end while the endpoint is in D3hot, where the host's buffer cannot be written (R431). -/
def otherDone (r : NvmeDone) (d : Dev) (mem : List Host.Cell) : Dev × List Host.Cell :=
  let room := Config.nvmeSlots - d.recd.active.elim 0 (fun c => c.writing.length)
  let gone (d : Dev) : Dev := (d.modRec (fun x => { x with nvme := x.nvme.eraseIdx r.cmd })).pump
  match (d.recd.nvme.take room)[r.cmd]? with
  | none => (d, mem)
  | some (.deallocate _) => (gone (if r.ok then d else d.nvmeError r), mem)
  | some (.read ref addr pile) =>
    if d.host.d3 then (d, mem)
    else if r.ok then ((gone d).complete ref .ok, memWrite mem addr pile)
    else ((gone (d.nvmeError r)).complete ref .invalid, mem)

/-- NVME_COMPLETION (R424, R425, R430). -/
def nvmeCompletion (r : NvmeDone) (d : Dev) (mem : List Host.Cell) : Dev × List Host.Cell :=
  match r.kind with
  | 0 => (storeDone r d, mem)
  | 1 => otherDone r d mem
  | _ => (if r.ok then d else d.nvmeError r, mem)
def execNvmeCompletion (r : NvmeDone) (s : State) : Host.Outcome State Fault Refusal := s.onBoth (nvmeCompletion r)

/-- NVME_LINK_CHANGE (R430). -/
def execNvmeLinkChange (up : Bool) (s : State) : Host.Outcome State Fault Refusal :=
  s.onDev (fun d => if d.recd.link = up then d else (d.modRec (fun r => { r with link := up })).raise 0x387 (le 1 (b2n up)))

/-! ### Copies (R410 to R413) -/

/-- The lowest-numbered stream that a frame matches. -/
def Dev.watched (d : Dev) (pk : Pkt) : Option (Nat × Stream) :=
  pk.iec.bind (fun i => d.recd.streams.find? (fun e => e.2.set.enable && e.2.set.appid == i.1 && (e.2.set.source == 0xFFFF || e.2.set.source == pk.source)))

/-- A copy is dropped (R411). -/
def Dev.copyDrop (d : Dev) (i : Nat) (quota : Bool) : Dev :=
  let d := (d.count 18 .recMirrorDrop i).raiseFirst 0x384 (le 1 i)
  let d := if quota then d.count 4 .dropQuota 82 else d
  let d := d.modStream i (fun s => { s with afterDrop := true, dropped := s.dropped + 1, stNum := none })
  d.modRec (fun r => { r with pile := r.pile.map (fun p => { p with gap := true }) })

/-- Bytes of copies that the input takes in one tick: 100 Gbit/s (R411). -/
def copyRate : Nat := 1562500

/-- Whether a copy is taken: 0 yes, 1 no, 2 no because of back-pressure; cells wait for Fold within the command. -/
def Dev.copyTest (d : Dev) (len : Nat) : Nat :=
  let used := if d.recd.copied.1 = d.now then d.recd.copied.2 else 0
  let n := cellsOf len
  let quota := if d.pool.quotasOn then some (lget d.pool.quota 82 0) else none
  if d.backPressure then 2
  else if copyRate < used + len ∨
      (claims (d.pool.weirReserve + d.pool.refillReserve) quota (d.pool.basinState == .emergency) n d.pool.basin.length (d.pool.charged 82)).2 ≠ .ok then 1
  else 0

/-- The samples of an ASDU pass the SV rules of their stream (R422): the rules that fire. -/
def svRules (rules : Tbl SvRule) (stream : Nat) (a : Asdu) : Tbl SvRule × List Nat :=
  let step (r : SvRule) : SvRule × Bool :=
    let v := (lget a.data r.set.channel (0, 0)).1
    let holds := match r.set.cmp with
      | 0 => decide (r.set.level < v)
      | 1 => decide (v < r.set.level)
      | _ => decide (r.set.level < (v.natAbs : Int))
    if holds then
      let n := r.holdRun + 1
      let fire := r.armed && decide (r.set.hold ≤ n)
      ({ r with holdRun := n, offRun := 0, armed := r.armed && !fire }, fire)
    else
      let n := r.offRun + 1
      ({ r with holdRun := 0, offRun := n, armed := r.armed || decide (r.set.hold ≤ n) }, false)
  let here (r : SvRule) : Bool := r.set.enable && r.set.stream == stream && decide (r.set.channel < a.data.length)
  (tmap rules (fun _ r => if here r then (step r).1 else r), (rules.filter (fun e => here e.2 && (step e.2).2)).map (·.1))

/-- Fold takes an ASDU (R414); the SV rules that fire on it are added to `fired`. -/
def Dev.foldAsdu (d : Dev) (fired : List Nat) (i : Nat) (a : Asdu) (now : Nat) : List Nat × Dev :=
  match d.stream i with
  | none => (fired, d)
  | some s =>
    let wrap := if s.set.smpWrap = 0 then 65536 else s.set.smpWrap
    let jump := s.last.elim false (fun l => a.smpCnt != (l.1 + 1) % wrap)
    let rev := s.last.elim false (fun l => l.2.1 != a.confRev)
    let syn := s.last.elim false (fun l => l.2.2 != a.smpSynch)
    let d := if !s.block.isEmpty && (jump || rev || syn) then d.closeBlock i now else d
    let d := d.modStream i (fun s =>
      { s with newRun := s.newRun || jump || rev || (s.block.isEmpty && s.afterDrop), afterDrop := s.afterDrop && !s.block.isEmpty,
               last := some (a.smpCnt, a.confRev, a.smpSynch), block := s.block ++ [a] })
    let d := if (d.stream i).elim false (fun s => decide (16 ≤ s.block.length)) then d.closeBlock i now else d
    let r := svRules d.recd.rules i a
    (fired ++ r.2, d.modRec (fun x => { x with rules := r.1 }))

/-- Fold takes the ASDUs of a frame; the SV rules that fired have its stamp and are logged in ascending DETAIL (R422). -/
def Dev.foldAsdus (d : Dev) (i : Nat) (l : List Asdu) (st : Stamp) (now : Nat) : Dev :=
  let x := l.foldl (fun (acc : List Nat × Dev) a => acc.2.foldAsdu acc.1 i a now) ([], d)
  (sortBy (fun a b => decide (a ≤ b)) x.1).foldl (fun d n => (d.trigger st 2 n 0 now).2) x.2

/-- A record of a stream other than a block, behind its GAP record. -/
def Dev.verbatim (d : Dev) (i typ : Nat) (frame : Bytes) (st : Stamp) (now : Nat) : Dev :=
  let gap := (d.stream i).elim [] (fun s => s.gap i st)
  (d.writeRec (gap ++ recHead typ i frame.length st ++ frame) st now).modStream i (fun s => { s with dropped := 0 })

/-- RECORDER_COPY (R410): a frame leaves the forwarding stage. -/
def Dev.recorderCopy (d : Dev) (pk : Pkt) : Dev :=
  if !d.recd.set.run then d
  else
    match d.watched pk with
    | none => d
    | some (i, s) =>
      let len := pk.data.length
      match d.copyTest len with
      | 0 =>
        let used := if d.recd.copied.1 = d.now then d.recd.copied.2 else 0
        let d := (d.modRec (fun r => { r with copied := (d.now, used + len) })).count 18 .recMirrorFrames i
        let st := d.stamp pk.now
        let o := (pk.iec.bind (·.2)).getD pk.data.length
        if s.set.goose then
          let d := d.verbatim i 2 pk.data st pk.now
          let n := stNumOf pk.data o
          let fire := s.set.trig && n.isSome && s.stNum.isSome && n != s.stNum
          let d := d.modStream i (fun s => { s with stNum := if n.isSome then n else s.stNum })
          if fire then (d.trigger st 1 i 0 pk.now).2 else d
        else
          match asdusOf st s.set.nch pk.data o with
          | none => (d.count 18 .recSvRaw i).verbatim i 3 pk.data st pk.now
          | some l => d.foldAsdus i l st pk.now
      | n => d.copyDrop i (n == 2)

/-- TEV_CAPTURE (R347, R422): an edge on a pin, which may trigger the recorder. -/
def tevCapture (pin : Nat) (rising : Bool) (now : Nat) (d : Dev) : Dev :=
  match d.tevEdge pin rising now with
  | (d, false) => d
  | (d, true) => if bitOf d.recd.set.tevMask pin then (d.trigger (d.stamp now) 3 pin 0 now).2 else d
def execTevCapture (pin : Nat) (rising : Bool) (now : Nat) (s : State) : Host.Outcome State Fault Refusal := s.onDev (tevCapture pin rising now)

/-! ### Commands (R427 to R429) -/

def Dev.recPend (d : Dev) (c : RecChange) : Dev := d.modRec (fun r => { r with pend := r.pend ++ [c] })

/-- RING_PILES and STORE_PILES of the response to OP 0 and OP 3. -/
def recResp (d : Dev) : Bytes := le 4 d.recd.ringSlots ++ le 4 0 ++ le 8 d.recd.area

/-- The status of a GLOBAL that is not OK. -/
def recGlobalBad (d : Dev) (r : RecGlobalReq) : Option Status :=
  if d.recd.set.run ∧ r.ring ≠ d.recd.set.ring then some .denied
  else if 2048 < r.ring ∨ r.ring % 64 ≠ 0 ∨ 10000 < r.preMs ∨ r.postMs = 0 ∨ 60000 < r.postMs ∨ r.maxMs < r.postMs ∨ 600000 < r.maxMs then
    some .invalid
  else none
def recGlobal (r : RecGlobalReq) (ref : CmdRef) (d : Dev) : Dev :=
  match recGlobalBad d r with
  | some st => d.complete ref st
  | none => d.recPend (.global ref r)
def execRecorderConfigGlobal (ctx : Nat) (r : RecGlobalReq) (s : State) : Host.Outcome State Fault Refusal := s.onDev (·.mailbox ctx 0x0B01 (recGlobal r))

/-- RECORDER_CONFIG STREAM. A GOOSE stream uses none of Fold's fields, and a lossless one no K: fields not used are ignored (R7). -/
def recStreamBad (d : Dev) (r : RecStreamReq) : Bool :=
  decide (255 < r.stream) || decide (65535 < r.appid) || (r.source != 0xFFFF && !d.sourceOk r.source) ||
    (!r.goose && ((r.bounded && (decide (r.k = 0) || decide (8 < r.k))) || decide (r.nch = 0) || decide (32 < r.nch) || decide (65535 < r.smpWrap)))
def recStream (r : RecStreamReq) (ref : CmdRef) (d : Dev) : Dev :=
  if recStreamBad d r then d.complete ref .invalid
  else d.recPend (.stream ref { r with k := if r.bounded then r.k else 1 })
def execRecorderConfigStream (ctx : Nat) (r : RecStreamReq) (s : State) : Host.Outcome State Fault Refusal := s.onDev (·.mailbox ctx 0x0B01 (recStream r))

/-- RECORDER_CONFIG RULE. -/
def recRuleBad (d : Dev) (r : RecRuleReq) : Bool :=
  decide (63 < r.rule) || decide (2 < r.cmp) || decide (255 < r.stream) || decide (31 < r.channel) || decide (r.hold = 0) || decide (255 < r.hold) ||
    decide (r.level < -2147483648) || decide (2147483647 < r.level) || (d.stream r.stream).elim false (fun s => s.set.goose)
def recRule (r : RecRuleReq) (ref : CmdRef) (d : Dev) : Dev := if recRuleBad d r then d.complete ref .invalid else d.recPend (.rule ref r)
def execRecorderConfigRule (ctx : Nat) (r : RecRuleReq) (s : State) : Host.Outcome State Fault Refusal := s.onDev (·.mailbox ctx 0x0B01 (recRule r))

/-- RECORDER_CONFIG STORE. A namespace whose LBA format is not one of R425 cannot be used, as one that is absent (log entry 111). -/
def recStoreBad (d : Dev) (r : RecStoreReq) : Option Status :=
  if d.recd.set.run then some .denied
  else if r.nsids.isEmpty ∨ 4 < r.nsids.length ∨ r.nsids.any (fun n => n == 0 || decide (2 ^ 32 ≤ n)) ∨ r.absent ∨
    r.lba.any (fun n => n != 512 && n != 4096) ∨ r.metadata then some .invalid
  else none
def recStore (r : RecStoreReq) (ref : CmdRef) (d : Dev) : Dev :=
  match recStoreBad d r with
  | some st => d.complete ref st
  | none => d.recPend (.store ref r)
def execRecorderConfigStore (ctx : Nat) (r : RecStoreReq) (s : State) : Host.Outcome State Fault Refusal := s.onDev (·.mailbox ctx 0x0B01 (recStore r))

/-- RECORDER_TRIGGER (R428). -/
def recTrigger (tag : Nat) (ref : CmdRef) (d : Dev) : Dev :=
  if !d.recd.set.run ∨ d.recd.full then d.complete ref .denied else d.recPend (.trigger ref tag)
def execRecorderTrigger (ctx tag : Nat) (s : State) : Host.Outcome State Fault Refusal := s.onDev (·.mailbox ctx 0x0B02 (recTrigger tag))

def Stream.fresh (r : RecStreamReq) : Stream :=
  { set := r, block := [], runs := [], last := none, newRun := true, afterDrop := false, dropped := 0, stNum := none }

/-- The ring takes its size from the HBM, the reservoir the rest (R25): its free cells follow. -/
def Dev.resized (d : Dev) : Dev := { d with pool := { d.pool with resvFree := d.resvCells - d.pool.resv.length } }

/-- RUN changes at a boundary (R427): a start begins PILE_SEQ and the streams afresh; a stop closes the open pile and ends open captures. -/
def Dev.setRun (d : Dev) (r : RecGlobalReq) : Dev :=
  if r.run ∧ !d.recd.set.run then
    d.modRec (fun x => { x with set := r, pileSeq := 0, ring := x.ring.filter (fun p => x.pinned p.slot), ringNext := 0, streams := tmap x.streams (fun _ s => Stream.fresh s.set) })
  else if !r.run ∧ d.recd.set.run then
    let d := d.closeAll false 0
    let captures := d.recd.captures.map (fun (c : Capture) => if c.ended then c else { c with ended := true, e := (d.stamp 0).clk })
    (d.modRec (fun x => { x with set := r, captures })).pump
  else d.modRec (fun x => { x with set := r })

/-- One change at the boundary. -/
def Dev.applyRec (d : Dev) (c : RecChange) : Dev :=
  match c with
  | .global ref r =>
    (match recGlobalBad d r with
      | some st => d.complete ref st
      | none => let d := (d.setRun { r with tevMask := r.tevMask % 16 }).resized; d.complete ref .ok (recResp d))
  | .stream ref r =>
    let d := d.closeBlock r.stream 0
    (d.modRec (fun x => { x with streams := tset x.streams r.stream (Stream.fresh r) })).complete ref .ok
  | .rule ref r =>
    if recRuleBad d r then d.complete ref .invalid
    else (d.modRec (fun x => { x with rules := tset x.rules r.rule { set := r, holdRun := 0, offRun := 0, armed := true } })).complete ref .ok
  | .store ref r =>
    (match recStoreBad d r with
      | some st => d.complete ref st
      | none =>
        let slots := Nat.min r.slots (2 ^ 27)
        let d := d.modRec (fun x => { x with nsids := r.nsids, storeSlots := slots })
        let d := if r.format then d.modRec (fun x => { x with dir := [], store := [], nvme := x.nvme ++ [.deallocate (tkeys x.store)], storeNext := 64, nextId := 1, full := false }) else d
        d.complete ref .ok (recResp d))
  | .trigger ref tag =>
    if !d.recd.set.run ∨ d.recd.full then d.complete ref .denied
    else let x := d.trigger (d.stamp 0) 0 0 tag 0; x.2.complete ref .ok (le 8 x.1)

/-- The changes of the boundary, in request order. -/
def Dev.recBoundary (d : Dev) : Dev :=
  let pend := d.recd.pend
  pend.foldl Dev.applyRec (d.modRec (fun r => { r with pend := [] }))

/-- The entries of the directory in ascending CAPTURE_ID. -/
def Recorder.listing (r : Recorder) : List DirEnt := sortBy (fun a b => decide (a.id ≤ b.id)) r.dir

/-- STORE_FULL holds on while the next slot belongs to a KEEP capture (R426). -/
def Recorder.refull (r : Recorder) : Recorder :=
  { r with full := r.full && r.dir.any (fun e => e.keep && e.owns r.area r.storeNext) }

/-- RECORDER_INDEX LIST (R429). -/
def indexList (id count : Nat) (ref : CmdRef) (d : Dev) : Dev :=
  if count = 0 ∨ 32 < count then d.complete ref .invalid
  else
    let l := (d.recd.listing.filter (fun e => decide (id ≤ e.id))).take count
    d.complete ref .ok (le 4 l.length ++ le 4 0 ++ l.flatMap DirEnt.bytes)
def execRecorderIndexList (ctx id count : Nat) (s : State) : Host.Outcome State Fault Refusal := s.onDev (·.mailbox ctx 0x0B03 (indexList id count))

/-- KEEP and UNKEEP: of a capture in the directory, or of one that is open or being stored. Clearing KEEP lifts STORE_FULL. -/
def indexKeep (id : Nat) (keep : Bool) (ref : CmdRef) (d : Dev) : Dev :=
  if d.recd.dir.any (fun e => e.id == id) then
    let dir := d.recd.dir.map (fun (e : DirEnt) => if e.id = id then { e with keep } else e)
    (d.modRec (fun r => { r with dir }.refull)).complete ref .ok
  else if d.recd.captures.any (fun c => c.ent.id == id) then
    let captures := d.recd.captures.map (fun (c : Capture) => if c.ent.id = id then { c with ent := { c.ent with keep } } else c)
    (d.modRec (fun r => { r with captures })).complete ref .ok
  else d.complete ref .invalid
def execRecorderIndexKeep (ctx id : Nat) (s : State) : Host.Outcome State Fault Refusal := s.onDev (·.mailbox ctx 0x0B03 (indexKeep id true))
def execRecorderIndexUnkeep (ctx id : Nat) (s : State) : Host.Outcome State Fault Refusal := s.onDev (·.mailbox ctx 0x0B03 (indexKeep id false))

/-- RECORDER_INDEX DELETE. -/
def indexDelete (id : Nat) (ref : CmdRef) (d : Dev) : Dev :=
  if d.recd.captures.any (fun c => c.ent.id == id) then d.complete ref .denied
  else if d.recd.dir.any (fun e => e.id == id) then (d.modRec (fun r => (r.delete id).refull)).complete ref .ok
  else d.complete ref .invalid
def execRecorderIndexDelete (ctx id : Nat) (s : State) : Host.Outcome State Fault Refusal := s.onDev (·.mailbox ctx 0x0B03 (indexDelete id))

/-- What a slot of the store holds (R426): slots 0 to 63 the directory, 1,024 entries each, in the order in which they were written. -/
def Recorder.slotBytes (r : Recorder) (slot : Nat) : Option Bytes :=
  if slot < 64 then some (fit 65536 (((r.dir.drop (1024 * slot)).take 1024).flatMap DirEnt.bytes)) else tget r.store slot

/-- RECORDER_INDEX READ_PILE: a Read of the pile, of a complete capture or stored so far of one being stored, is issued; the command completes when the pile has
been written to host memory. -/
def indexReadPile (id pile addr : Nat) (ref : CmdRef) (d : Dev) : Dev :=
  let e := (d.recd.dir ++ d.recd.captures.map (·.ent)).find? (fun e => e.id == id)
  let bytes := e.bind (fun e => if pile < e.piles then (e.slots d.recd.area)[pile]?.bind d.recd.slotBytes else none)
  match bytes with
  | none => d.complete ref .invalid
  | some b => d.modRec (fun r => { r with nvme := r.nvme ++ [.read ref addr b] })
def execRecorderIndexReadPile (ctx id pile addr : Nat) (s : State) : Host.Outcome State Fault Refusal :=
  s.onDev (·.mailbox ctx 0x0B03 (indexReadPile id pile addr))

end Sys2Proof.Machine
end

