-- ==== Sys2Proof/Machine/Uplinks.lean ====
section
/-!
DEFINITION. The settings and the line side of the uplinks and the service port (chapter 11): link state, time gates, preemption, Low Power Idle, GATE_LIST_SET.
Reception and selection stand with the pipelines.
-/
namespace Sys2Proof.Machine

/-! ### Ports -/

def Dev.upPort (d : Dev) (p : Nat) : UpPort := tgetD d.upl.ports p (UpPort.reset p)
def Dev.modUp (d : Dev) (p : Nat) (f : UpPort → UpPort) : Dev := { d with upl := { d.upl with ports := tmod d.upl.ports p f } }

/-- The instance of a port in the uplink statistics: sub-ports 0 to 31, the service port 32. -/
def upInst (p : Nat) : Nat := if p = 0xA4 then 32 else p - 0x40

/-- The event source of a port (R285). -/
def upSource (p k : Nat) : Nat := if p = 0xA4 then 0x230 + k else 0x200 + 6 * ((p - 0x40) / 4) + k
/-- The sub-port that a record carries. -/
def subPort (p : Nat) : Nat := if p = 0xA4 then 0 else p % 4

/-- Count a statistic of a port. -/
def Dev.countUp (d : Dev) (p : Nat) (st : Stat) (n : Nat := 1) : Dev := d.count 13 st (upInst p) n

/-- A port that GATE_LIST_SET may name (R284): present on the part, whatever its mode. -/
def Dev.upPresent (d : Dev) (p : Nat) : Bool := (p == 0xA4 || (decide (0x40 ≤ p) && decide (p < 0x60))) && d.pointPresent p

/-- A byte of the uplink section's entry in force of a port (R271, R272). -/
def Dev.upEntry (d : Dev) (p o : Nat) : Option Nat := (tget d.upl.entries (if p = 0xA4 then 8 else (p - 0x40) / 4)).map (fun b => leAt b o 1)

/-- The entry `i` of the section of the profile comes into force (R272); entries of fused-off uplinks are never applied (R271). -/
def Dev.applyEntry (d : Dev) (i : Nat) : Dev :=
  if i < 8 ∧ d.uplinkCount ≤ i then d
  else
    let entries := match d.profile.uplink with
      | some b => tset d.upl.entries i (slice b (16 + 24 * i) 24)
      | none => tdel d.upl.entries i
    { d with upl := { d.upl with entries } }

/-- RS-FEC runs on a port (R270): always at 100 Gbit/s, unless switched off per sub-port at 25 Gbit/s, never on the service port. -/
def Dev.upFec (d : Dev) (p : Nat) : Bool :=
  p != 0xA4 && (d.upEntry p 0 != some 1 || !bitOf ((d.upEntry p 2).getD 0) (1 + p % 4))

/-- The line rate in Mbit/s: 100 G or 25 G by MODE; the service port's as its link came up. -/
def Dev.upRate (d : Dev) (p : Nat) : Nat :=
  if p = 0xA4 then (d.upPort p).speed else if d.upEntry p 0 = some 1 then 25000 else 100000

/-- Does the port carry frames: its link is up and its entry not disabled (R273)? -/
def Dev.upLive (d : Dev) (p : Nat) : Bool := d.upPresent p && (d.upPort p).up

/-! ### Time gates (R278 to R280) -/

/-- The entries of a list as they run in one cycle: the last extended, the list cut at the cycle time. -/
def cutEntries : (left : Nat) → List GateEntry → List GateEntry
  | _, [] => []
  | left, [e] => [{ e with interval := left }]
  | left, e :: t => if left ≤ e.interval then [{ e with interval := left }] else e :: cutEntries (left - e.interval) t
def GateList.run (g : GateList) : List GateEntry := cutEntries g.cycle g.entries

/-- The position in the cycle at a time in ns (R280). -/
def GateList.pos (g : GateList) (t : Nat) : Nat := (((t : Int) - (g.base : Int)) % (g.cycle : Int)).toNat

/-- The entries from the one that contains a position, with what is left of it. -/
def fromPos : (pos : Nat) → List GateEntry → List GateEntry
  | _, [] => []
  | pos, e :: t => if pos < e.interval then { e with interval := e.interval - pos } :: t else fromPos (pos - e.interval) t

/-- The gate states at a time. -/
def GateList.states (g : GateList) (t : Nat) : Nat := ((fromPos (g.pos t) g.run).head?).elim 255 (·.states)

/-- Is SetAndHoldMAC in force: the last hold or release operation up to the entry in force, round the cycle? -/
def GateList.holds (g : GateList) (t : Nat) : Bool :=
  let here := fromPos (g.pos t) g.run
  let before := g.run.take (g.run.length + 1 - here.length)
  let ops := (g.run ++ before).filter (fun e => e.op != 0)
  (ops.getLast?).elim false (fun e => e.op == 1)

/-- ns until a class's gate closes; none where it never does. -/
def openFor (cls : Nat) : List GateEntry → Option Nat
  | [] => none
  | e :: t => if bitOf e.states cls then (openFor cls t).map (· + e.interval) else some 0
def GateList.untilClose (g : GateList) (t cls : Nat) : Option Nat := openFor cls (fromPos (g.pos t) g.run ++ g.run)

/-- The longest open window of a class in ns; none where the gate never closes (R279). -/
def GateList.longest (g : GateList) (cls : Nat) : Option Nat :=
  if g.run.all (fun e => bitOf e.states cls) then none
  else
    let r := (g.run ++ g.run).foldl (fun (a : Nat × Nat) e => if bitOf e.states cls then (a.1 + e.interval, Nat.max a.2 (a.1 + e.interval)) else (0, a.2)) (0, 0)
    some r.2

/-- A frame of a charged length fits into a window at a rate in Mbit/s. -/
def fits (charged rate window : Nat) : Bool := decide (charged * 8000 ≤ window * rate)

/-- What is left of the counter's time until a class's gate closes, from the value `v` on, in units of 2^−32 ns. -/
def GateList.room (g : GateList) (v cls : Nat) : Option Nat := (g.untilClose (v / 2 ^ 32) cls).map (fun w => w * 2 ^ 32 - v % 2 ^ 32)

/-- A transmission of a charged length at a rate in Mbit/s ends within a stretch of the counter, which gains `inc` units of 2^−32 ns every 5 ns (R279, R280). -/
def fitsRoom (charged rate inc room : Nat) : Bool := decide (charged * 8000 * inc ≤ room * rate * 5)

/-- The gate list that runs on a port. -/
def UpPort.list (x : UpPort) : Option GateList := x.gate.filter (fun g => g.enable)

/-- The time of the counter in ns at clock `now` of the tick. -/
def Dev.ptpNs (d : Dev) (now : Nat) : Nat := d.time.ns now

/-- The queues of the DRR level of a port that hold a linked frame. -/
def Dev.drrOf (d : Dev) (p : Nat) : List Nat :=
  (d.pool.queues.filter (fun e => decide (4 ≤ e.1 % 8) && !e.2.basin.isEmpty && d.pointOf e.1 == p)).map (·.1)

/-- A change of a port that opens or closes it for classes: the queues of the DRR level leave and join the active list at once (R208, R209). -/
def Dev.modGate (d : Dev) (p : Nat) (f : UpPort → UpPort) : Dev :=
  let qs := d.drrOf p
  let e := d.modUp p f
  let e := (qs.filter (fun q => d.gateOpen p q && !e.gateOpen p q)).foldl Dev.leaveDrr e
  e.joinAll (qs.filter (fun q => !d.gateOpen p q && e.gateOpen p q))

/-- The queues of the opened classes whose head frame the gate has held are looked at again. -/
def Dev.releaseHeld (d : Dev) (p opened : Nat) : Dev :=
  let qs := (d.pool.queues.filter (fun e => e.2.heldGate && bitOf opened (e.1 % 8) && d.pointOf e.1 == p)).map (·.1)
  qs.foldl (fun d q => d.modQueue q (fun y => { y with heldGate := false })) d

/-- Clocks of 0.8 ns that a charged length takes at a rate in Mbit/s. -/
def sendClocks (charged rate : Nat) : Nat := ceilDiv (charged * 10000) rate

/-- The next permitted point at which the preemptable frame in transmission may be cut (R282): a fragment has at least 64 × (1 + ADD_FRAG)
bytes, and 64 bytes at least are left for the last one; none where the frame goes on to its end. -/
def Dev.cutPoint (d : Dev) (p now : Nat) : Option Nat :=
  let x := d.upPort p
  match x.tx with
  | none => none
  | some f =>
    let least := f.start + sendClocks (64 * (1 + x.set.addFrag)) (d.upRate p)
    let c := if least < d.clk now then d.clk now else least
    if f.express ∨ f.stop ≤ d.clk now ∨ f.stop < c + sendClocks 64 (d.upRate p) then none else some c

/-- The clock at which a frame selected at clock `now` would start: as soon as the line is free, or the frame on it can be cut (R282). -/
def Dev.txFree (d : Dev) (p now : Nat) : Nat :=
  let free := (d.upPort p).tx.elim 0 (·.stop)
  if d.clk now < free then (d.cutPoint p now).getD free else d.clk now

/-- A frame of a class and charged length that starts as soon as it may ends before its gate closes (R279). -/
def Dev.endsInGate (d : Dev) (p now cls charged : Nat) : Bool :=
  let v := d.time.stamp (now + (d.txFree p now - d.clk now))
  ((d.upPort p).list.bind (fun g => g.room v cls)).elim true (fitsRoom charged (d.upRate p) d.time.inc)

/-- The frame in transmission is preempted at its next permitted point (R282): what is left of it waits. -/
def Dev.preempt (d : Dev) (p now : Nat) : Dev :=
  match d.cutPoint p now, (d.upPort p).tx with
  | some c, some f =>
    (d.modUp p (fun x => { x with tx := some { f with stop := c, express := true }, pre := some (f.stop - c, f.cls) })).countUp p .uplPreemptFrag
  | _, _ => d

/-- A preemptable frame in transmission at clock `now` can be cut. -/
def Dev.preemptable (d : Dev) (p now : Nat) : Bool :=
  let x := d.upPort p
  x.preemptActive && x.pre.isNone && (d.cutPoint p now).isSome

/-- The gate states of a port are taken from the list at clock `now`; gates that open release their held frames, and SetAndHoldMAC
preempts. -/
def Dev.setGates (d : Dev) (p now : Nat) : Dev :=
  let x := d.upPort p
  let t := d.ptpNs now
  let new := x.list.elim 255 (fun g => g.states t)
  let opened := Nat.land new (255 - x.gates)
  let d := (d.releaseHeld p opened).modGate p (fun x => { x with gates := new, hold := x.list.elim false (fun g => g.holds t) })
  if (d.upPort p).hold ∧ d.preemptable p now then d.preempt p now else d

/-- GATE_LIST_ENTRY (R278). -/
def gateEntry (p now : Nat) (d : Dev) : Dev := if (d.upPort p).list.isSome then d.setGates p now else d
def execGateListEntry (port now : Nat) (s : State) : Host.Outcome State Fault Refusal := s.onDev (gateEntry port now)

/-- GATE_LIST_OPERATIONAL (R280): the accepted list's first cycle start is reached. The frames the old list held are looked at afresh, and Low Power Idle ends
where the list is enabled (R283). -/
def gateOperational (p now : Nat) (d : Dev) : Dev :=
  match (d.upPort p).gatePend with
  | none => d
  | some (ref, g, at_) =>
    if d.ptpNs now < at_ then d
    else
      let d := (d.modUp p (fun x => { x with gate := some g, gatePend := none, gates := 0, inLpi := x.inLpi && !g.enable })).setGates p now
      d.complete ref .ok (le 8 (at_ / 1000000000) ++ le 4 (at_ % 1000000000))
def execGateListOperational (port now : Nat) (s : State) : Host.Outcome State Fault Refusal := s.onDev (gateOperational port now)

/-- A frame in transmission passes a close of its gate (R280). -/
def UpPort.overruns (x : UpPort) (v inc clk : Nat) : Bool :=
  match x.tx, x.list with
  | some f, some g => decide (clk < f.stop) && (g.room v f.cls).elim false (fun w => decide (w * 25 < (f.stop - clk) * 4 * inc))
  | _, _ => false

/-- After a step of the time counter at a boundary: list positions are recomputed at once, and overruns counted. -/
def Dev.gatesStepped (d : Dev) : Dev :=
  (tkeys d.upl.ports).foldl (fun d p =>
    if (d.upPort p).list.isNone then d
    else
      let late := (d.upPort p).overruns (d.time.value 0) d.time.inc (d.clk 0)
      let d := d.setGates p 0
      if late then (d.countUp p .uplGateOverrun).raise (upSource p 3) (le 1 (subPort p)) else d) d

/-! ### Preemption, LPI and links (R273, R282, R283) -/

/-- PREEMPT_VERIFY (R282): the verify procedure that runs since `verifyFrom` ends. It fails when its verify time has passed without an answer. -/
def preemptVerify (p : Nat) (ok : Bool) (d : Dev) : Dev :=
  match (d.upPort p).verifyFrom with
  | none => d
  | some c =>
    if ok then d.modGate p (fun x => { x with preemptActive := true, verifyFrom := none })
    else if d.now < c + 8 * (d.upPort p).set.verifyMs then d
    else (d.modGate p (fun x => { x with preemptActive := false, verifyFrom := none })).raise (upSource p 4) (le 1 (subPort p))
def execPreemptVerify (port : Nat) (ok : Bool) (s : State) : Host.Outcome State Fault Refusal := s.onDev (preemptVerify port ok)

/-- An interface that has Low Power Idle (R283). -/
def Dev.lpiAble (d : Dev) (p : Nat) : Bool :=
  if p = 0xA4 then d.upEntry p 0 == some 0 else d.upEntry p 1 == some 1 || d.upEntry p 1 == some 2

/-- An idle port: no frame in transmission, and no queue of the point holds a linked frame. -/
def Dev.upIdle (d : Dev) (p now : Nat) : Bool :=
  (d.upPort p).pre.isNone && (d.upPort p).tx.elim true (fun x => decide (x.stop ≤ d.clk now)) && d.pool.queues.all (fun e => e.2.basin.isEmpty || d.pointOf e.1 != p)

/-- LPI_ENTRY (R283). -/
def lpiEntry (p now : Nat) (d : Dev) : Dev :=
  let x := d.upPort p
  if x.up ∧ x.set.lpi ∧ d.lpiAble p ∧ x.list.isNone ∧ !x.inLpi ∧ d.upIdle p now then
    (d.modUp p (fun x => { x with inLpi := true })).countUp p .uplLpiEntries
  else d
def execLpiEntry (port now : Nat) (s : State) : Host.Outcome State Fault Refusal := s.onDev (lpiEntry port now)

/-- The link of a port goes up or down (R273): LINK at each change; preemption starts again with its verification. -/
def Dev.setLink (d : Dev) (p : Nat) (up : Bool) (speed : Nat) : Dev :=
  let x := d.upPort p
  if x.up = up then d
  else
    let d := d.modGate p (fun x =>
      { x with up, speed := if up ∧ p = 0xA4 then speed else x.speed, preemptActive := up && x.set.preempt && !x.set.verify,
               verifyFrom := if up && x.set.preempt && x.set.verify then some d.now else none, inLpi := false, tx := none, pre := none })
    d.raise (upSource p 0) (le 1 (subPort p)) 0 up

/-- A link of a port can come up at a speed (R270, R273): its entry is in force and not disabled, and the service port takes 10 and 100 Mbit/s
with SGMII only. -/
def Dev.linkAble (d : Dev) (p speed : Nat) : Bool :=
  d.upPresent p && (p == 0xA4 || (d.dev.power != .quiet && d.dev.power != .doze)) &&
    (if p = 0xA4 then speed == 1000 || (d.upEntry p 0 == some 1 && (speed == 10 || speed == 100))
     else (d.upEntry p 0).elim false (fun m => m != 255))

/-- UPLINK_LINK_CHANGE (R273): a link that comes up ends the retrain of its port (R493). -/
def uplinkLinkChange (p : Nat) (up : Bool) (speed : Nat) (d : Dev) : Dev :=
  if up ∧ !d.linkAble p speed then d
  else
    let d := d.setLink p up speed
    if up then d.endOp (fun o => o = .wakeUplink (if p = 0xA4 then 8 else (p - 0x40) / 4)) else d
def execUplinkLinkChange (port : Nat) (up : Bool) (speed : Nat) (s : State) : Host.Outcome State Fault Refusal :=
  s.onDev (uplinkLinkChange port up speed)

/-! ### PTP messages (R339, R340)

The fields that the manual or its profiles fix are written; all others, and the length of messages with TLVs, are those of Config.ptpFrame (log entry 100). -/

/-- Bytes of a PTP message: Sync and Follow_Up, the three of the peer delay mechanism, Announce without TLVs. -/
def ptpLength (msg : Nat) : Nat := if msg = 0 ∨ msg = 8 then 44 else if msg = 2 ∨ msg = 3 ∨ msg = 10 then 54 else 64

/-- A PTP message of a port (R339): multicast over Ethernet, the clock identity of the unit's EUI-64, logMessageInterval from −4 to +1, the two-step flag of a Sync or
Pdelay_Resp. -/
def Dev.ptpMake (d : Dev) (p msg : Nat) : Bytes × Dev :=
  let (v, e) := d.draw
  let raw := (Config.ptpFrame p d.freeCtr).take 1518
  let n := 14 + ptpLength msg
  let f := if 11 ≤ msg ∧ n ≤ raw.length then raw else fit n raw
  let dst := if msg = 2 ∨ msg = 3 ∨ msg = 10 then 0x0180C200000E else 0x011B19000000
  let two := (tget d.time.ports p).elim false (fun x => !x.oneStep) && (msg == 0 || msg == 3)
  (be 6 dst ++ slice f 6 6 ++ be 2 0x88F7 ++ be 1 msg ++ be 1 0x12 ++ be 2 (f.length - 14) ++ slice f 18 2 ++ be 1 (2 * b2n two) ++ slice f 21 1 ++ zeros 8 ++
    slice f 30 4 ++ be 8 d.dev.eui64 ++ be 2 (upInst p + 1) ++ slice f 44 3 ++ beInt 1 ((v % 6 : Nat) - 4 : Int) ++ f.drop 48, e)

/-- Queue a message of the port's own; messageTypes below 4 are event messages. -/
def Dev.ptpQueue (d : Dev) (p : Nat) (f : Bytes) : Dev := d.modUp p (fun x => { x with own := x.own ++ [(f, decide (beAt f 14 1 % 16 < 4))] })

/-- A timestamp of a PTP message. -/
def ptpTime (v : Int) : Bytes :=
  let n := v.toNat % counterSpan
  be 6 (secOf n) ++ be 4 (nsOf n)

/-- PTP_MESSAGE_INTERVAL (R339): Adesa, in which the best master clock algorithm runs, has the port in a state and gives it a message to send: a Sync or Announce as
MASTER only, a Pdelay_Req, or a message of signalling or management; none in a pause (R460). -/
def ptpInterval (port msg state : Nat) (d : Dev) : Dev :=
  if d.host.idle ∨ !d.upLive port ∨ (tget d.time.ports port).elim true (fun x => !x.enable) then d
  else
    let d := d.ptpState port state
    if !([0, 2, 11, 12, 13].contains msg) ∨ ((msg = 0 ∨ msg = 11) ∧ state ≠ 6) then d
    else
      let r := d.ptpMake port msg
      r.2.ptpQueue port r.1
def execPtpMessageInterval (port : Nat) (event : PtpEvent) (s : State) : Host.Outcome State Fault Refusal :=
  s.onDev (ptpInterval port event.msg event.state)

/-- A Pdelay_Req, whose header begins at `h`, is answered with a Pdelay_Resp (R339): its sequenceId and sender; in two-step mode the time of its receipt. -/
def Dev.ptpReply (d : Dev) (p : Nat) (req : Bytes) (h : Nat) : Dev :=
  let r := d.ptpMake p 3
  let x := tget d.time.ports p
  let t2 := if x.elim true (fun y => y.oneStep) then zeros 10 else ptpTime ((x.bind (fun y => y.reqStamp)).getD 0)
  r.2.ptpQueue p (putAt (putAt (putAt r.1 44 (slice req (h + 30) 2)) 48 t2) 58 (slice req (h + 20) 10))

/-- In two-step mode a Sync is followed by a Follow_Up and a Pdelay_Resp by a Pdelay_Resp_Follow_Up, with the transmit timestamp (R339). -/
def Dev.ptpFollow (d : Dev) (p : Nat) (sent : Bytes) : Dev :=
  let msg := beAt sent 14 1 % 16
  match tget d.time.ports p with
  | none => d
  | some x =>
    if x.oneStep ∨ (msg ≠ 0 ∧ msg ≠ 3) then d
    else d.ptpQueue p (putAt (putAt (putAt sent 14 (be 1 (if msg = 0 then 8 else 10))) 20 (be 1 0)) 48 (ptpTime (x.txStamp.getD 0)))

/-! ### GATE_LIST_SET (R284) -/

/-- The longest frame of a class at a port, in charged bytes (R279). -/
def Dev.maxCharged (d : Dev) (p sdu : Nat) : Nat := d.charge p (sdu + 20 + (if d.macsecOn p then 32 else 0))

/-- A list whose some class's MAX_SDU never fits (R279). -/
def Dev.gateBad (d : Dev) (p : Nat) (g : GateList) : Bool :=
  (List.range 8).any (fun k =>
    let m := lget g.maxSdu k 0
    (g.longest k).elim false (fun w => !fits (d.maxCharged p (if m = 0 then (d.upPort p).set.maxFrame else m)) (d.upRate p) w))

/-- The list that a request carries; BASE_SEC is bits 47:0 of its field. -/
def gateListOf (r : GateListReq) : GateList :=
  { enable := r.enable, base := r.baseSec % 2 ^ 48 * 1000000000 + r.baseNs, cycle := r.cycle, maxSdu := r.maxSdu, entries := r.entries }

/-- GATE_LIST_SET LIST. -/
def gateListSet (r : GateListReq) (ref : CmdRef) (d : Dev) : Dev :=
  let fields := r.entries.isEmpty || decide (256 < r.entries.length) || decide (999999999 < r.baseNs) || decide (r.cycle < 1000) ||
    decide (1000000000 < r.cycle) || r.maxSdu.length != 8 || r.maxSdu.any (fun m => m != 0 && (decide (m < 64) || decide (16384 < m))) ||
    r.entries.any (fun e => decide (2 < e.op) || decide (255 < e.states) || decide (e.interval < 16) || decide (1000000000 < e.interval))
  if !d.upPresent r.port ∨ fields ∨ (r.enable ∧ d.gateBad r.port (gateListOf r)) then d.complete ref .invalid
  else d.later (.gateList ref r)
def execGateListSetList (ctx : Nat) (r : GateListReq) (s : State) : Host.Outcome State Fault Refusal := s.onDev (·.mailbox ctx 0x0409 (gateListSet r))

/-- The first cycle start BASE + k × CYCLE, k ≥ 0, at or after a time. -/
def firstStart (base cycle t : Nat) : Nat := if t ≤ base then base else base + ceilDiv (t - base) cycle * cycle

/-- The boundary at which a list is accepted (R280). A list that it replaces before it was operational completes INVALID (log entry 34). -/
def Dev.applyGateList (d : Dev) (ref : CmdRef) (r : GateListReq) : Dev :=
  let g := gateListOf r
  let d : Dev := match (d.upPort r.port).gatePend with
    | some (old, _, _) => d.complete old .invalid
    | none => d
  d.modUp r.port (fun x => { x with gatePend := some (ref, g, firstStart g.base g.cycle (ceilDiv (d.time.value 0) (2 ^ 32) + 125000)) })

/-- The steering uplinks (R277): those with a sub-port whose STEERING flag is set. -/
def Dev.steering (d : Dev) : List Nat :=
  (List.range 8).filter (fun u => d.upl.ports.any (fun e => decide (0x40 ≤ e.1) && decide (e.1 < 0x60) && (e.1 - 0x40) / 4 == u && e.2.set.steering))

/-- GATE_LIST_SET PORT. STEERING is a bit of the uplinks' alone; at the service port it is ignored (R7). -/
def gatePortBad (d : Dev) (r : UpPortReq) : Option Status :=
  if !d.upPresent r.port ∨ 255 < r.express ∨ (r.preempt ∧ 3 < r.addFrag) ∨ (r.preempt ∧ r.verify ∧ (r.verifyMs = 0 ∨ 128 < r.verifyMs)) ∨ r.maxFrame < 1518 ∨
      16384 < r.maxFrame ∨ (r.lpi ∧ (r.twUs = 0 ∨ 1000 < r.twUs)) ∨ 16 < r.addrs.length ∨ r.addrs.any (fun a => decide (2 ^ 48 ≤ a)) then some .invalid
  else if r.port ≠ 0xA4 ∧ r.steering ∧ !(d.steering.contains ((r.port - 0x40) / 4)) ∧ 2 ≤ d.steering.length then some .noResource
  else none
def gatePortSet (r : UpPortReq) (ref : CmdRef) (d : Dev) : Dev :=
  match gatePortBad d r with
  | some st => d.complete ref st
  | none => d.later (.upPort ref r)
def execGateListSetPort (ctx : Nat) (r : UpPortReq) (s : State) : Host.Outcome State Fault Refusal := s.onDev (·.mailbox ctx 0x0409 (gatePortSet r))

/-- The boundary of a PORT: a lost STEERING designation invalidates the rules of the uplink's sub-ports. -/
def Dev.applyUpPort (d : Dev) (ref : CmdRef) (r : UpPortReq) : Dev :=
  match gatePortBad d r with
  | some st => d.complete ref st
  | none =>
    let d := d.modGate r.port (fun x =>
      let kept := x.set.preempt && x.set.verify && (x.preemptActive || x.verifyFrom.isSome)
      { x with set := r, inLpi := x.inLpi && r.lpi, preemptActive := x.up && r.preempt && (if r.verify then x.preemptActive && kept else true),
               verifyFrom := if x.up && r.preempt && r.verify then (if kept then x.verifyFrom else some d.now) else none })
    let steers := d.upl.steers.filter (fun e => e.2.port == 0xA4 || d.steering.contains ((e.2.port - 0x40) / 4))
    ({ d with upl := { d.upl with steers } }).complete ref .ok

/-- GATE_LIST_SET STEER. -/
def steerBad (d : Dev) (r : SteerReq) : Bool :=
  decide (63 < r.rule) ||
    (r.valid && (!d.upPresent r.port || (r.port != 0xA4 && !d.steering.contains ((r.port - 0x40) / 4)) ||
      decide (7 < r.cls) || (d.flow r.flow).isNone))
def steerSet (r : SteerReq) (ref : CmdRef) (d : Dev) : Dev := if steerBad d r then d.complete ref .invalid else d.later (.steer ref r)
def execGateListSetSteer (ctx : Nat) (r : SteerReq) (s : State) : Host.Outcome State Fault Refusal := s.onDev (·.mailbox ctx 0x0409 (steerSet r))
def Dev.applySteer (d : Dev) (ref : CmdRef) (r : SteerReq) : Dev :=
  if steerBad d r then d.complete ref .invalid
  else
    ({ d with upl := { d.upl with steers := if r.valid then tset d.upl.steers r.rule r else tdel d.upl.steers r.rule } }).complete ref .ok

end Sys2Proof.Machine
end

