-- ==== Sys2Proof/Machine/Pipeline.lean ====
section
/-!
DEFINITION. The two pipelines (R16, R17): pairing, classification, forwarding, the recorder's copy, the twin copy and the enqueue, for parcels, frames of
the uplinks and the service port, Towpath units and host transmit rings.
-/
namespace Sys2Proof.Machine

/-! ### From the end of forwarding to the queues -/

/-- A packet before its classification. -/
def Pkt.make (data : Bytes) (input port : Nat) (source req lane now : Nat) : Pkt :=
  { data, input, port, inFlow := none, source, req, lane, slot := 0, version := 0, now, key := [], iec := none, twin := none }

/-- The twin pair whose flow A is this flow: one of this device's trees first, else one reached through the flow's Towpath destination, or one that this
device sequences (R307, R308). -/
def Dev.twinOf (d : Dev) (flow : Nat) : Option Pair :=
  let me := d.dev.devAddr
  match tget d.prot.pairs (pairKey me flow) with
  | some p => if (d.flow flow).elim false (fun f => f.dir == 0) then some p else none
  | none =>
    (d.prot.pairs.find? (fun e => e.2.flowA == flow && e.2.devA != me && (e.2.seqHere || e.2.backupHere ||
      (d.flow flow).elim false (fun f => f.dir != 0 && f.egress == 0x60 + e.2.devA)))).map (·.2)

/-- One twin copy with its tag: to a queue of this device, or as a TWIN unit to the device of its tree (R308, R406). -/
def Dev.twinTo (d : Dev) (pk : Pkt) (dev flow cls tag : Nat) : Dev :=
  if dev = d.dev.devAddr then
    d.enqueue { data := pk.data, req := pk.req, version := pk.version, input := pk.input, port := pk.port, twinTag := some tag, copies := [(flow, cls)],
                now := pk.now }
  else d.sendUnit dev 1 (some (flow, cls)) (be 4 tag ++ pk.data)

/-- TWIN_COPY (R308): the sequencer gives SEQ and makes both copies; the backup does so for a frame of its own uplinks while the sequencer has no route;
any other device forwards the frame to the sequencer. -/
def Dev.twinCopy (d : Dev) (pk : Pkt) (p : Pair) (cls : Nat) : Dev :=
  let noRoute := (d.nextHop p.seqDev none).isNone
  if p.seqHere ∨ (p.backupHere ∧ pk.input = 1 ∧ noRoute) then
    let d := { d with prot := { d.prot with pairs := tset d.prot.pairs (pairKey p.devA p.flowA) { p with seq := (p.seq + 1) % 2 ^ 24 } } }
    let tag := p.seq * 256 + p.epoch % 128
    (d.twinTo pk p.devA p.flowA cls tag).twinTo pk p.devB p.flowB cls (tag + 128)
  else d.sendUnit p.seqDev 0 (some (p.flowA, cls)) pk.data

/-- The copies of a packet (flow, class): twinned flows through the twin copy; an upstream copy paired at the egress device to that device; all others to
the queues. -/
def Dev.deliver (d : Dev) (pk : Pkt) (copies : List (Nat × Nat)) : Dev :=
  let away (c : Nat × Nat) : Bool :=
    pk.twin.isSome && (d.flow c.1).elim false (fun f => f.dir != 0 && decide (0x60 ≤ f.egress) && decide (f.egress < 0xA0))
  let far := copies.filter away
  let twinned (c : Nat × Nat) : Bool := pk.input != 0 && !away c && (d.twinOf c.1).isSome
  let twins := copies.filter twinned
  let here := copies.filter (fun c => !away c && !twinned c)
  let d := d.enqueue
    { data := pk.data, req := pk.req, version := pk.version, input := pk.input, port := pk.port, twinTag := none, copies := here, now := pk.now }
  let d := twins.foldl (fun (d : Dev) c => (d.twinOf c.1).elim d (fun p => d.twinCopy pk p c.2)) d
  far.foldl (fun (d : Dev) c =>
    match d.flow c.1, pk.twin with
    | some f, some (key, tag) => d.sendUnit (f.egress - 0x60) 1 (some (key % 131072, c.2)) (be 4 tag ++ pk.data)
    | _, _ => d) d

/-- What follows the end of a classification: forwarding, the recorder's copy, and the copies with the mirrors of the rule, which a drop or a redirect
leaves (R236, log entry 97). -/
def Dev.afterEdits (d : Dev) (pk : Pkt) (e : ClsEnd) : Dev :=
  match e with
  | .drop mirrors => d.deliver pk mirrors
  | .mgmt ring mirrors => (d.redirect ring pk).deliver pk mirrors
  | .recirc _ _ => d
  | .result flow cls mirrors =>
    match d.stage6 pk flow cls with
    | (.drop, d) => d.deliver pk mirrors
    | (.mgmt ring, d) => (((d.recorderCopy pk).redirect ring pk)).deliver pk mirrors
    | (.out copies, d) => (d.recorderCopy pk).deliver pk (copies ++ mirrors)

/-- The same, but a frame that its edits made longer than 16,384 bytes is dropped first (R177, R237). -/
def Dev.afterClass (d : Dev) (pk : Pkt) (e : ClsEnd) : Dev :=
  match e with
  | .recirc _ _ => d
  | .drop [] => d
  | e => if 16384 < pk.data.length then d.count 4 .dropOversize pk.req else d.afterEdits pk e

/-- A packet enters the classifier: stage 5 of R16, stage 2 of R17. -/
def Dev.pipeline (d : Dev) (pk : Pkt) : Dev :=
  match d.classify pk with
  | (none, _, d) => d
  | (some e, pk, d) => d.afterClass pk e

/-- RECIRCULATION_PASS (R239, R240): the packet that has waited longest takes its second pass; after 4 µs it is dropped instead. -/
def recircPass (down now : Nat) (d : Dev) : Dev :=
  if d.gated then d else
  match d.takeRecirc down with
  | (none, d) => d
  | (some r, d) =>
    if r.late (d.clk now) then d.recircDrop r.pkt
    else
      match d.classPass { r.pkt with now } r.start true r.tag with
      | (e, pk, d) => d.afterClass pk e
def execRecirculationPass (pipeline now : Nat) (s : State) : Host.Outcome State Fault Refusal := s.onDev (recircPass pipeline now)

/-! ### Tree parcels (R16) -/

/-- The twin pair of an upstream flow of this device, by its key (R307, R309). -/
def Dev.pairOf (d : Dev) (flow : Nat) : Option (Nat × Pair) :=
  d.prot.pairs.find? (fun e => (e.2.devA == d.dev.devAddr && e.2.flowA == flow) || (e.2.devB == d.dev.devAddr && e.2.flowB == flow))

/-- The source code of a flow's terminal (R250); the terminal that sent the parcel where the flow has none. -/
def Dev.flowSource (d : Dev) (flow dflt : Nat) : Nat :=
  (d.flow flow).elim dflt (fun f => if f.dir ≤ 1 then globalIndex f.tree f.id else dflt)

/-- A released parcel: pairing where it takes place here, then the upstream pipeline. -/
def Dev.parcelIn (d : Dev) (u : PlainUnit) (lane now : Nat) : Dev :=
  let g := globalIndex u.tree u.tid
  let go (d : Dev) (inFlow : Nat) (twin : Option (Nat × Nat)) : Dev :=
    d.pipeline { Pkt.make u.frame 0 u.tree (d.flowSource inFlow g) u.tree lane now with inFlow := some inFlow, twin }
  match u.twinTag, d.pairOf u.flow with
  | some tag, some (key, p) =>
    if p.pairHere then
      let r := d.pairCopy key tag 0 now
      if r.1 then go r.2 p.flowA none else r.2
    else go d u.flow (some (key, tag))
  | _, _ => go d u.flow none

/-- Is a parcel an answer on the report flow of its terminal in the push of its tree, running or ended (R464, R465)? It never enters the classifier. -/
def Dev.isReport (d : Dev) (u : PlainUnit) : Bool :=
  (tget d.upd.pushes u.tree).elim false (fun p => tget p.flows u.tid == some u.flow)

/-- Take the first element that passes a test out of a list. -/
def takeFirst {α : Type} (p : α → Bool) : List α → Option (α × List α)
  | [] => none
  | x :: t => if p x then some (x, t) else (takeFirst p t).map (fun r => (r.1, x :: r.2))

/-- UPSTREAM_PARCEL (R16): the oldest released parcel goes through the upstream pipeline. Where none has been released, the oldest parcel in the
cipher gets its verdict first. -/
def upstreamParcel (lane now : Nat) (d : Dev) : Dev :=
  let due (d : Dev) : Option (PlainUnit × List PlainUnit) := takeFirst (fun u => !d.isReport u) d.sec.released
  let d := if (due d).isNone then cipherTagVerify d else d
  match due d with
  | none => d
  | some (u, rest) => ({ d with sec := { d.sec with released := rest } }).parcelIn u lane now
def execUpstreamParcel (lane now : Nat) (s : State) : Host.Outcome State Fault Refusal := s.onDev (upstreamParcel lane now)

/-! ### MACsec reception (R281, R368; the SecTAG of IEEE 802.1AE: log entry 37) -/

/-- A SecTAG: its bytes with the EtherType, AN, SCI, the low half of the PN, SL and the E bit. -/
structure SecTag where
  len : Nat
  an : Nat
  sci : Nat
  pn : Nat
  sl : Nat
  enc : Bool
deriving DecidableEq, Repr

/-- Read the SecTAG behind the addresses. Without an explicit SCI it is the source address and port 1. -/
def secTag (l : Bytes) : Option SecTag :=
  if beAt l 12 2 ≠ 0x88E5 ∨ l.length < 20 then none
  else
    let tci := byteAt l 14
    let sc := bitOf tci 5
    some { len := if sc then 16 else 8, an := tci % 4, sci := if sc then beAt l 20 8 else beAt l 6 6 * 65536 + 1, pn := beAt l 16 4,
           sl := byteAt l 15 % 64, enc := bitOf tci 3 }

/-- The full PN from its low half and the lowest acceptable one. -/
def fullPn (low pn : Nat) : Nat :=
  let hi := low / 2 ^ 32
  (if 2 ^ 31 ≤ low % 2 ^ 32 ∧ pn < 2 ^ 31 then hi + 1 else hi) * 2 ^ 32 + pn

/-- The IV of a frame: SSCI and PN, exclusive or with the salt. -/
def MacsecSa.iv (x : MacsecSa) (pn : Nat) : Nat := Nat.xor (x.ssci % 2 ^ 32 * 2 ^ 64 + pn % 2 ^ 64) (x.salt % 2 ^ 96)

/-- The SAs of a sub-port for a direction, by number. -/
def Dev.portSas (d : Dev) (p : Nat) (tx : Bool) : List (Nat × MacsecSa) :=
  d.sec.macsec.filter (fun e => e.1 / 64 == (p - 0x40) / 4 && e.2.sub == p % 4 && e.2.tx == tx)

/-- A MACsec drop (R368): counted at its SA, the first of a tick reported. A frame that names no SA counts at the port's receive SA of lowest number. -/
def Dev.macsecDrop (d : Dev) (p : Nat) (st : Stat) (sa : Option Nat) : Dev :=
  let i := match sa with
    | some i => some i
    | none => ((d.portSas p false).head?).map (fun (e : Nat × MacsecSa) => e.1)
  (i.elim d (fun i => d.count 14 st i)).raiseFirst (upSource p 2) (le 1 (subPort p))

/-- Bytes that SecTAG and ICV take of a received frame. -/
def Dev.macsecBytes (d : Dev) (p : Nat) (l : Bytes) : Nat := if d.macsecOn p then (secTag l).elim 0 (fun t => t.len + 16) else 0

/-- MACsec validation of a received frame: the frame as it goes on, none where it is dropped. -/
def Dev.macsecRx (d : Dev) (p now : Nat) (l : Bytes) : Option Bytes × Dev :=
  if !d.macsecOn p then (some l, d)
  else
    match secTag l with
    | none => if beAt l 12 2 = 0x888E ∨ beAt l 12 2 = 0x88F7 then (some l, d) else (none, d.macsecDrop p .macsecUntagged none)
    | some t =>
      match (d.portSas p false).find? (fun e => e.2.sci == t.sci && e.2.an == t.an) with
      | none => (none, d.macsecDrop p .macsecUntagged none)
      | some (i, x) =>
        let pn := fullPn x.low t.pn
        if pn < x.low then (none, d.macsecDrop p .macsecReplay (some i))
        else
          let rest := l.drop (12 + t.len)
          let n := if t.sl = 0 then rest.length - 16 else t.sl
          let clear := if t.enc then (if n < x.confOffset then n else x.confOffset) else n
          let aad := l.take (12 + t.len) ++ rest.take clear
          let d := d.cipherUse 1 ((p - 0x40) / 4) l.length (d.clk now) true
          match (if rest.length < n + 16 then none
                 else gcmOpen x.key.toNat (x.iv pn) aad ((rest.drop clear).take (n - clear)) (BitVec.ofNat 128 (ofBE ((rest.drop n).take 16)))) with
          | none => (none, (d.macsecDrop p .macsecTag (some i)).raiseFirst 0x2C4 (le 2 i) 0 p)
          | some plain =>
            let next := if x.nextPn ≤ pn then pn + 1 else x.nextPn
            let low := if x.low < next - x.replay then next - x.replay else x.low
            (some (l.take 12 ++ rest.take clear ++ plain),
              { d with sec := { d.sec with macsec := tset d.sec.macsec i { x with nextPn := next, low } } })

/-! ### Uplinks and the service port (R273 to R277) -/

/-- The TCI of the outermost VLAN tag. -/
def outerTci (l : Bytes) : Option Nat := if beAt l 12 2 = 0x8100 ∨ beAt l 12 2 = 0x88A8 then some (beAt l 14 2) else none

/-- A steering rule matches a frame (R277). -/
def steerHits (r : SteerReq) (p : Nat) (l : Bytes) : Bool :=
  let tci := outerTci l
  r.port == p && r.vid.elim true (fun v => tci.elim false (fun t => t % 4096 == v % 4096)) && r.pcp.elim true (fun v => tci.elim false (fun t => t / 8192 == v % 8)) &&
    r.etype.elim true (fun v => etherType l == v)

/-- The address filter (R276). -/
def addrAccepted (r : UpPortReq) (dst : Nat) : Bool :=
  r.promisc || r.addrs.contains dst || (r.broadcast && dst == 2 ^ 48 - 1) || (r.allMulti && bitOf dst 40)

/-- The pool requester of a port (R30); the service port is charged to the management cores' index (log entry 36). -/
def upReq (p : Nat) : Nat := if p = 0xA4 then 81 else 64 + (p - 0x40) / 4

/-- INPUT, PORT and source code of a port (R227, R250). -/
def upPkt (p : Nat) (l : Bytes) (lane now : Nat) : Pkt :=
  if p = 0xA4 then Pkt.make l 2 0 0x4020 (upReq p) lane now else Pkt.make l 1 (p - 0x40) (0x4000 + (p - 0x40)) (upReq p) lane now

/-- A drop of R275 that event FILTER reports. -/
def Dev.filterDrop (d : Dev) (p : Nat) (st : Stat) : Dev := (d.countUp p st).raiseFirst (upSource p 5) (le 1 (subPort p))

/-- A frame that has passed the checks of the port: PTP goes to the time unit, a steered frame to its queue, all others to the classifier. -/
def Dev.portFrame (d : Dev) (p : Nat) (l : Bytes) (lane now : Nat) : Dev :=
  let pk := upPkt p l lane now
  if etherType l = 0x88F7 then
    let o := (afterTags l (l.length / 4 + 1) 12).2
    let m := byteAt l (o + 2) % 16
    if m < 4 ∧ (tget d.time.ports p).elim false (fun x => x.enable) then
      let d := d.ptpEvent p (upInst p) now (some m)
      if m = 2 then d.ptpReply p l (o + 2) else d
    else d
  else
    match d.upl.steers.find? (fun e => steerHits e.2 p l) with
    | some (_, r) => (d.countUp p .uplSteerHit).deliver pk [(r.flow, r.cls)]
    | none => d.pipeline pk

/-- RS-FEC of a port that has it: codewords and symbols are counted, and an uncorrectable codeword is reported (R270, R274). -/
def Dev.countFec (d : Dev) (r : UplinkRx) : Dev :=
  let add (d : Dev) (st : Stat) (n : Nat) : Dev := if n = 0 then d else d.countUp r.point st n
  if !d.upFec r.point then d
  else
    let d := add (add (add d .uplFecCorrCw r.corrCw) .uplFecUncorrCw r.uncorrCw) .uplFecSymbols r.symbols
    if r.uncorrCw = 0 then d else d.raiseFirst (upSource r.point 1) (le 1 (subPort r.point))

/-- UPLINK_FRAME_RX (R17, R274 to R277). -/
def uplinkFrameRx (r : UplinkRx) (d : Dev) : Dev :=
  let p := r.point
  if !d.upLive p then d
  else
    let d := d.countFec r
    if !r.fcsOk then d.countUp p .uplRxFcs
    else if beAt r.bytes 12 2 = 0x8808 then d.countUp p .uplMacctlDrop
    else if (d.upPort p).set.maxFrame + d.macsecBytes p r.bytes < r.bytes.length + 4 then d.filterDrop p .uplRxOversize
    else
      match d.macsecRx p r.now r.bytes with
      | (none, d) => d
      | (some l, d) =>
        if etherType l ≠ 0x88F7 ∧ !addrAccepted (d.upPort p).set (beAt l 0 6) then d.filterDrop p .uplAddrDrop
        else ((d.countUp p .uplRxFrames).countUp p .uplRxBytes (l.length + 4)).portFrame p l r.lane r.now
def execUplinkFrameRx (r : UplinkRx) (s : State) : Host.Outcome State Fault Refusal := s.onDev (uplinkFrameRx r)

/-! ### Towpath (R17, R406) -/

/-- TOWPATH_DATA_RX: not classified, stage 2; classified, stage 5, or stage 4 where this device sequences the flow's pair. -/
def towpathDataRx (r : TowRx) (lane : Nat) (d : Dev) : Dev :=
  let a := d.towAccept r 0
  let d := a.1
  if !a.2 then d
  else
    let pk := Pkt.make r.payload 3 r.link (0x4028 + r.link) (72 + r.link) lane r.now
    match r.cls with
    | none => d.pipeline pk
    | some (flow, cls) =>
      match d.prot.pairs.find? (fun e => e.2.seqHere && e.2.flowA == flow) with
      | some (_, p) => d.twinCopy pk p cls
      | none =>
        d.enqueue { data := pk.data, req := pk.req, version := 0, input := 3, port := r.link, twinTag := none, copies := [(flow, cls)], now := r.now }
def execTowpathDataRx (r : TowRx) (lane : Nat) (s : State) : Host.Outcome State Fault Refusal := s.onDev (towpathDataRx r lane)

/-- TWIN_UNIT_RX: an upstream copy for the pairing of this device, or a downstream copy for one of its trees. -/
def twinUnitRx (r : TowRx) (d : Dev) : Dev :=
  let a := d.towAccept r 1
  let d := a.1
  match (if a.2 then r.cls else none) with
  | none => d
  | some (flow, cls) =>
    let tag := beAt r.payload 0 4
    let data := r.payload.drop 4
    let e : Enq := { data, req := 72 + r.link, version := 0, input := 3, port := r.link, twinTag := none, copies := [(flow, cls)], now := r.now }
    let up := (d.flow flow).elim true (fun f => f.dir != 0)
    match (if up then d.prot.pairs.find? (fun e => e.2.pairHere && e.2.flowA == flow) else none) with
    | some (key, _) =>
      let x := d.pairCopy key tag 0 r.now
      if x.1 then x.2.enqueue e else x.2
    | none => d.enqueue { e with twinTag := some tag }
def execTwinUnitRx (r : TowRx) (s : State) : Host.Outcome State Fault Refusal := s.onDev (twinUnitRx r)

/-- Two tick ranges share a tick (R169). -/
def rangesMeet (q w q2 w2 : Nat) : Bool := decide (q < q2 + w2) && decide (q2 < q + w)

/-- A claim reaches a tree (R168, R170): it counts as uncoordinated where a window of the tree that it conflicts with is settled already. -/
def Dev.takeClaim (d : Dev) (t : Nat) (c : Claim) : Dev :=
  let x := d.tree t
  let own := x.disc.kept ++ x.disc.windows.map (fun w => (w.q, w.w)) ++ x.disc.claimed.filter (fun e => decide (e.1 ≤ d.now + 8))
  let d := d.modTree t (fun x => { x with disc := { x.disc with claims := x.disc.claims ++ [c] } })
  if own.any (fun e => rangesMeet e.1 e.2 c.q c.w) then (d.countTree t .qwUncoord).schedEvent t 4 none else d

/-- CLAIM_RX (R168, R406). -/
def claimRx (r : TowRx) (d : Dev) : Dev :=
  let a := d.towAccept r 5
  let p := r.payload
  let g := beAt p 10 2
  if a.2 ∧ g / 64 = d.dev.devAddr ∧ a.1.treeUp (g % 64) then
    a.1.takeClaim (g % 64) { g := beAt p 0 2, q := beAt p 2 6, w := beAt p 8 1, y := beAt p 9 1 }
  else a.1
def execClaimRx (r : TowRx) (s : State) : Host.Outcome State Fault Refusal := s.onDev (claimRx r)

/-! ### Host transmit rings (R449, R450) -/

def Dev.pktRing (d : Dev) (k : Nat) : Ring := lget d.host.pktRings k Ring.reset
def Dev.modPktRing (d : Dev) (k : Nat) (f : Ring → Ring) : Dev := { d with host := { d.host with pktRings := lmod d.host.pktRings k Ring.reset f } }

/-- Descriptors that the host has posted (R451). -/
def Ring.posted (r : Ring) : Nat := (r.tail + r.entries - r.head % r.entries) % r.entries

/-- The descriptors of the next frame: up to the first with LAST, none where TAIL falls before it. -/
def frameDescs : List TxDesc → Option (List TxDesc)
  | [] => none
  | x :: t => if x.last then some [x] else (frameDescs t).map (fun r => x :: r)

/-- A frame is in error (R450). -/
def txBad (ds : List TxDesc) : Bool :=
  !(ds.head?.elim false (fun x => x.first)) || decide (8 < ds.length) || decide (16384 < sumOf (ds.map (·.len))) ||
    ds.any (fun x => decide (x.len = 0) || decide (2048 < x.len) || !x.own)

/-- Return descriptors: FLAGS with OWN = 0, and ERR for a frame in error. -/
def returnDescs (m : List Host.Cell) (r : Ring) (err : Bool) (i : Nat) : List TxDesc → List Host.Cell
  | [] => m
  | x :: t => returnDescs (memWrite m (r.entryAddr i + 10) [BitVec.ofNat 8 (2 * b2n x.first + 4 * b2n x.last + 8 * b2n err)]) r err ((i + 1) % r.entries) t

/-- Another ring with a whole frame goes before ring k (R9, R450); `ready` are the rings whose next frame is whole. -/
def Dev.ringBefore (d : Dev) (k : Nat) (ready : List Nat) : Bool :=
  ready.any (fun j => decide (j < 4) && (if d.now % 2 = 0 then decide (j < k) else decide (k < j)) && (d.pktRing j).enable && decide (0 < (d.pktRing j).posted))

/-- HOST_TX_FETCH (R450): one whole frame of transmit ring k, where the pipelines are not gated (R490) and no other ready ring goes before it. -/
def hostTxFetch (o : TxFetch) (d : Dev) (mem : List Host.Cell) : Dev × List Host.Cell :=
  let k := o.ring
  let r := d.pktRing k
  if 3 < k ∨ !r.enable ∨ d.host.d3 ∨ d.backPressure ∨ d.gated ∨ d.ringBefore k o.ready then (d, mem)
  else
    match frameDescs (o.descs.take r.posted) with
    | none => (d, mem)
    | some ds =>
      let bad := txBad ds
      let mem := returnDescs mem r bad r.head ds
      let d := d.modPktRing k (fun r => { r with head := (r.head + ds.length) % r.entries })
      let d := d.signal (8 + k)
      if bad then ((d.count 20 .hostTxErr k).raiseFirst 0x3DA (le 1 k ++ le 2 r.head), mem)
      else
        let data := ds.flatMap (fun x => fit x.len x.data)
        ((d.count 20 .hostTxFrames k).pipeline (Pkt.make data 4 k (0x4030 + k) 80 o.lane o.now), mem)
def execHostTxFetch (o : TxFetch) (s : State) : Host.Outcome State Fault Refusal := s.onBoth (hostTxFetch o)

end Sys2Proof.Machine
end

