-- ==== Sys2Proof/Machine/Egress.lean ====
section
/-!
DEFINITION. Selection at an egress point (R204 to R211): eligibility, levels, rotation and DRR; then the frame's way out at a tree (fragments and their
encryption), an uplink or the service port (gates, preemption, MACsec), a Towpath destination, or a host receive ring.
-/
namespace Sys2Proof.Machine

/-! ### Trees: SAs and parcels (R78, R80, R360 to R364) -/

/-- A parcel header (R78). -/
def headerBytes (flow len : Nat) (first last kp twin : Bool) : Bytes :=
  let b := be 6 (flow % 131072 * 2 ^ 31 + len % 16384 * 2 ^ 17 + b2n first * 2 ^ 16 + b2n last * 2 ^ 15 + b2n kp * 2 ^ 14 + b2n twin * 2 ^ 13)
  b ++ be 2 (crc16 b)

/-- Stop a terminal's downstream SA (R363). -/
def Dev.stopSa (d : Dev) (g : Nat) (c : StopCause) : Dev :=
  (d.modKeys g (fun k => { k with stopped := some c })).raise 0x2C5 (le 2 (2 * g)) (match c with | .kc => 1 | .ctr => 2)

/-- The downstream slot that would encrypt an item in frame `c` with a count `ctr` below `limit`; none where the SA is stopped or stops now (R363). The
drop is counted. -/
def Dev.useSa (d : Dev) (g c ctr limit : Nat) : Option KeySlot × Dev :=
  let k := d.keys g
  let dropped (d : Dev) : Dev := d.count 3 .saStopDrop (2 * g)
  match (if k.stopped.isSome then none else slotOf k.down k.downPhase) with
  | none => (none, dropped d)
  | some s =>
    if kcLimit ≤ s.kc c then (none, dropped (d.stopSa g .kc))
    else if limit ≤ ctr then (none, dropped (d.stopSa g .ctr))
    else (some s, d)

/-- The body of a downstream parcel (R80, R364): twin tag, ciphertext, tag. -/
def parcelBody (s : KeySlot) (origin c ctr flow : Nat) (twin : Option Nat) (berth : Bool) (frame : Bytes) : Bytes :=
  let head : Bytes := twin.elim [] (fun t => be 4 t)
  let x := gcmSeal s.key.toNat (s.iv origin c ctr) (parcelAad flow (head.length + frame.length + 16) twin false berth) frame
  head ++ x.1 ++ be 16 x.2.toNat

/-- Slots of the frame that its sections and berths take; the others are ordinary (R72). -/
def FrameWork.sectionSlots (w : FrameWork) : Nat := ceilDiv w.bmap.length 232 + ceilDiv w.man.length 232 + ceilDiv w.lm.length 232
def FrameWork.ordBytes (w : FrameWork) : Nat := 232 * (806 - w.sectionSlots - sumOf (w.berths.map (fun b => b.1.slots)))

/-- Zero fill to the next header position where fewer than 8 bytes remain in the slot (R81). -/
def padHead (l : Bytes) : Bytes := if 224 < l.length % 232 then l ++ zeros (232 - l.length % 232) else l

/-- Zero fill of the rest of the slot. -/
def padSlot (l : Bytes) : Bytes := l ++ zeros (232 - l.length % 232)

/-- The berths of frame C (R75): those of the last map in force. -/
def Tree.berths (t : Tree) (c : Nat) : List Berth := ((t.down.maps.filter (fun m => decide (m.1 ≤ c))).getLast?).elim [] (·.2)

/-! ### Eligibility (R206) -/

/-- The head frame of a queue. -/
def Dev.headOf (d : Dev) (q : Nat) : Option Frm := ((d.queue q).basin.head?).bind (fun e => tget d.pool.frames e.frame)

/-- The body of a frame at a tree, and what its first fragment carries (R210). -/
def bodyLen (f : Frm) : Nat := f.data.length + 16 + (if f.twinTag.isSome then 4 else 0)
def Dev.firstLen (d : Dev) (p q : Nat) (f : Frm) : Nat :=
  let n := bodyLen f
  let m := (d.point p).fragBytes
  if q % 8 ≠ 0 ∧ m < n then m else n

/-- What a queue's head frame is charged at its point (R205); at a tree its first fragment. -/
def Dev.chargeHead (d : Dev) (p q : Nat) (f : Frm) : Nat :=
  d.charge p (if p < 0x40 then 8 + d.firstLen p q f else chargeBase p f.data.length f.twinTag.isSome (d.secured p f.data))

/-- At a tree: the terminal is in service, the flow bound, the SA held, and no berth takes the queue. -/
def Dev.treeElig (d : Dev) (q : Nat) : Bool :=
  match d.flow (q / 8) with
  | none => false
  | some f =>
    match ((d.tree f.tree).byId f.id).filter (fun x => x.serial == f.serial) with
    | none => false
    | some x =>
      (x.state = .inService || x.state = .quarantined) && f.bound.elim false (fun b => decide (b ≤ d.now)) &&
        (d.keys (globalIndex f.tree f.id)).held d.now && !(q % 8 == 0 && ((d.tree f.tree).berths d.now).any (fun b => b.tid == f.id))

/-- The transmit SA in force of a port. -/
def Dev.txSa (d : Dev) (p : Nat) : Option (Nat × MacsecSa) :=
  (tget d.sec.txActive (p - 0x40)).bind (fun i =>
    let key := (p - 0x40) / 4 * 64 + i
    (tget d.sec.macsec key).filter (fun x => x.tx && !x.stopped) |>.map (fun x => (key, x)))

/-- A frame above the MAX_SDU of its class (R279), MAX_FRAME where no list has set one. -/
def UpPort.oversize (x : UpPort) (cls len : Nat) : Bool :=
  let m := x.gate.elim 0 (fun g => lget g.maxSdu cls 0)
  decide ((if m = 0 then x.set.maxFrame else m) < len + 4)

/-- A head frame fits the window of its gate (R279); preemptable frames are not tested. -/
def Dev.gateFits (d : Dev) (p q now : Nat) (f : Frm) : Bool :=
  !(d.upPort p).express (q % 8) || d.endsInGate p now (q % 8) (d.chargeHead p q f)

/-- At a port: link up, gate open, the frame fits or is above MAX_SDU, no hold of preemptable frames, and an SA where one is needed. -/
def Dev.upElig (d : Dev) (p q now : Nat) (f : Frm) : Bool :=
  let x := d.upPort p
  let k := q % 8
  d.upLive p && x.passes k && (!d.secured p f.data || (d.txSa p).isSome) &&
    (x.oversize k f.data.length || (!(d.queue q).heldGate && d.gateFits p q now f))

/-- At a Towpath destination: the chosen link has credit (R397). Without a next hop the unit is dropped when it is routed (R402). -/
def Dev.towElig (d : Dev) (p q : Nat) (f : Frm) : Bool :=
  let u : TowUnit := { dst := p - 0x60, src := d.dev.devAddr, typ := 0, hops := 8, cls := some (q / 8, q % 8), payload := f.data }
  !d.tow.isolated && (d.nextHop u.dst u.cls).elim true (fun k => (d.link k).credit u)

/-- At a host receive ring: a descriptor is posted (R451). At one that is disabled frames are taken and dropped (R432). -/
def Dev.ringElig (d : Dev) (k : Nat) : Bool := !(d.pktRing k).enable || (decide (0 < (d.pktRing k).posted) && !d.host.d3)

/-- A queue is eligible at its point (R206). -/
def Dev.eligible (d : Dev) (p now q : Nat) : Bool :=
  match d.headOf q with
  | none => false
  | some f =>
    !d.shaperHolds q &&
      (if p < 0x40 then d.treeElig q
       else if p < 0x60 ∨ p = 0xA4 then d.upElig p q now f
       else if p < 0xA0 then d.towElig p q f
       else d.ringElig (p - 0xA0 + 4))

/-- The queues of a point that hold a linked frame, in ascending number. -/
def Dev.linked (d : Dev) (p : Nat) : List Nat := (d.pool.queues.filter (fun e => !e.2.basin.isEmpty && d.pointOf e.1 == p)).map (·.1)

/-- GATE_HELD (R279): an express head frame whose gate is open and that does not fit is held, and counted once. -/
def Dev.holdUnfit (d : Dev) (p now : Nat) : Dev :=
  (d.linked p).foldl (fun (d : Dev) (q : Nat) =>
    match d.headOf q with
    | none => d
    | some f =>
      let x := d.upPort p
      if bitOf x.gates (q % 8) ∧ !(d.queue q).heldGate ∧ !x.oversize (q % 8) f.data.length ∧ !d.gateFits p q now f then
        (d.modQueue q (fun y => { y with heldGate := true })).countUp p .uplGateHeld
      else d) d

/-! ### Levels, rotation and DRR (R207 to R209) -/

/-- The active list brought up to date: queues that became ineligible leave it with their deficit, queues that became eligible join its tail in R9 order. -/
def Dev.refreshDrr (d : Dev) (p : Nat) (elig : List Nat) : Dev :=
  let drr := elig.filter (fun q => decide (4 ≤ q % 8))
  let old := (d.point p).active
  let gone := old.filter (fun q => !drr.contains q)
  let d := gone.foldl (fun (d : Dev) (q : Nat) => d.modQueue q (fun y => { y with credited := false })) d
  let new := tieOrder d.now (fun q => q) (drr.filter (fun q => !old.contains q))
  d.modPoint p (fun x => { x with active := old.filter (fun q => drr.contains q) ++ new, drrHad := x.drrHad || !drr.isEmpty })

/-- The queues that a selection has made ineligible leave the active list at once (R208). -/
def Dev.leaveIneligible (d : Dev) (p now : Nat) : Dev :=
  ((d.point p).active.filter (fun q => !d.eligible p now q)).foldl Dev.leaveDrr d

/-- The queue of a class that the rotation serves next: from `start` on, round. -/
def rotation (start : Nat) (l : List Nat) : Option Nat :=
  match l.find? (fun q => decide (start ≤ q)) with
  | some q => some q
  | none => l.head?

/-- The DRR visits (R208) over the active list, for the queues in `may`: the queue whose head frame its deficit covers. -/
def drrPick (p : Nat) (may : List Nat) : (fuel : Nat) → Dev → Option Nat × Dev
  | 0, d => (none, d)
  | n + 1, d =>
    match (d.point p).active.find? (fun q => may.contains q) with
    | none => (none, d)
    | some q =>
      let y := d.queue q
      let d := if y.credited then d else d.modQueue q (fun y => { y with deficit := y.deficit + (y.quantum : Int), credited := true })
      let cost : Int := ((d.headOf q).elim 0 (fun f => d.chargeHead p q f) : Nat)
      if cost ≤ (d.queue q).deficit then (some q, d)
      else
        let d := d.modQueue q (fun y => { y with credited := false })
        drrPick p may n (d.modPoint p (fun x => { x with active := x.active.filter (· != q) ++ [q] }))

/-- The queue that a level offers: levels 0 to 3 are the classes, 4 is DRR. -/
def Dev.levelPick (d : Dev) (p lv : Nat) (may : List Nat) : Option Nat × Dev :=
  if lv < 4 then (rotation (lget (d.point p).last lv 0) (may.filter (fun q => q % 8 == lv)), d)
  else
    let drr := may.filter (fun q => decide (4 ≤ q % 8))
    drrPick p drr (1024 * drr.length + 1) d

/-- The first level of a list that offers a queue (R207). -/
def Dev.firstPick (p : Nat) (may : List Nat) : List Nat → Dev → Option Nat × Dev
  | [], d => (none, d)
  | lv :: t, d =>
    match d.levelPick p lv may with
    | (some q, d) => (some q, d)
    | (none, d) => Dev.firstPick p may t d

/-- A queue is served: rotation, the DRR deficit, the shaper, and the counts of charged bytes (R207, R208, R213, R226). -/
def Dev.serve (d : Dev) (p q charged now : Nat) : Dev :=
  let d := if q % 8 < 4 then d.modPoint p (fun x => { x with last := lset x.last (q % 8) (q + 1) })
    else (d.modPoint p (fun x => { x with drrSent := true })).modQueue q (fun y => { y with deficit := y.deficit - (charged : Int) })
  ((d.shape (q / 8) (q % 8) charged now).count 6 .schedTxBytes p charged).countQueue q p .qTxBytes charged

/-- A frame of a queue has been sent whole. -/
def Dev.frameSent (d : Dev) (p q : Nat) : Dev := ((d.count 6 .schedTxFrames p).countQueue q p .qTxFrames).dequeue q true

/-! ### Trees (R83, R84, R210, R211) -/

def Dev.modDown (d : Dev) (t : Nat) (f : Down → Down) : Dev := d.modTree t (fun x => { x with down := f x.down })

/-- Put bytes at the header position of the frame in progress. -/
def Dev.putOrd (d : Dev) (t : Nat) (b : Bytes) : Dev :=
  d.modDown t (fun x => { x with work := x.work.map (fun w => { w with ord := padHead w.ord ++ b }) })

/-- A terminal receives a parcel: its run of idle ticks begins again with the next tick (R133). -/
def Dev.parcelTo (d : Dev) (t tid : Nat) : Dev :=
  d.modTree t (fun x => { x with terms := x.terms.map (fun y =>
    if y.id = some tid then { y with emptySince := y.emptySince.map (fun _ => d.now + 1) } else y) })

/-- The next fragment of the incomplete parcel of a level. -/
def Dev.nextFrag (d : Dev) (t lv : Nat) (f : Fragment) (now : Nat) : Dev :=
  let m := (d.point t).fragBytes
  let last := decide (f.rest.length ≤ m)
  let body := f.rest.take m
  let d := d.putOrd t (headerBytes f.flow body.length false last f.kp f.twin ++ body)
  let d := (d.serve t f.queue (d.charge t (8 + body.length)) now).parcelTo t ((d.flow f.flow).elim 256 (fun x => x.id))
  if last then (d.modDown t (fun x => { x with frags := tdel x.frags lv })).frameSent t f.queue
  else d.modDown t (fun x => { x with frags := tset x.frags lv { f with rest := f.rest.drop m } })

/-- Start the next parcel of a queue: encrypt it whole and send its first fragment. A stopped SA drops it. -/
def Dev.startParcel (d : Dev) (t lv q now : Nat) : Dev :=
  match d.headOf q, (d.queue q).basin.head? with
  | some f, some e =>
    let flow := q / 8
    let g := globalIndex t ((d.flow flow).elim 0 (fun x => x.id))
    let k := d.keys g
    match d.useSa g d.now k.ctrOrd 0x7000 with
    | (none, d) => d.dequeue q false
    | (some s, d) =>
      let d := (d.sojourn q e.frame now).modKeys g (fun k => { k with ctrOrd := k.ctrOrd + 1 })
      let body := parcelBody s (d.origin t) d.now k.ctrOrd flow f.twinTag false f.data
      let d := d.cipherUse 0 t body.length (d.clk now) false
      let n := d.firstLen t q f
      let whole := decide (body.length ≤ n)
      let d := d.putOrd t (headerBytes flow n true whole k.downPhase f.twinTag.isSome ++ body.take n)
      let d := (d.serve t q (d.charge t (8 + n)) now).parcelTo t ((d.flow flow).elim 256 (fun x => x.id))
      if whole then d.frameSent t q
      else
        let fr : Fragment :=
          { queue := q, flow, kp := k.downPhase, twin := f.twinTag.isSome, rest := body.drop n, firstFrame := d.now, frameKey := e.frame }
        d.modDown t (fun x => { x with frags := tset x.frags lv fr })
  | _, _ => d

/-- TREE_SELECT (R211): one header position of the frame in progress. Where nothing is eligible the rest of the slot is zero fill. -/
def Dev.treeSelect (d : Dev) (t now : Nat) : Dev :=
  match (d.tree t).down.work with
  | none => d
  | some w =>
    if w.ordBytes ≤ (padHead w.ord).length then d
    else
      let elig := (d.linked t).filter (fun q => d.eligible t now q)
      let d := d.refreshDrr t elig
      let frags := (d.tree t).down.frags
      let may := elig.filter (fun q => !frags.any (fun e => e.2.flow == q / 8))
      let cur := frags.head?
      let above := match cur with
        | some c => List.range c.1
        | none => List.range 5
      match Dev.firstPick t may above d with
      | (some q, d) => d.startParcel t (if q % 8 < 4 then q % 8 else 4) q now
      | (none, d) =>
        match cur with
        | some c => d.nextFrag t c.1 c.2 now
        | none => d.modDown t (fun x => { x with work := x.work.map (fun w => { w with ord := padSlot (padHead w.ord) }) })

/-- FRAGMENT_ABORT (R84, R211): the parcels of a tree whose first fragment went in a frame more than 16 ticks ago. -/
def fragmentAbort (t : Nat) (d : Dev) : Dev :=
  let late := (d.tree t).down.frags.filter (fun e => decide (e.2.firstFrame + 16 < d.now))
  late.foldl (fun (d : Dev) e =>
    (((d.modDown t (fun x => { x with frags := tdel x.frags e.1 })).countTree t .fragAbort)).dequeue e.2.queue false) d
def execFragmentAbort (tree : Nat) (s : State) : Host.Outcome State Fault Refusal := s.onDev (fragmentAbort tree)

/-! ### Uplinks and the service port (R279 to R283, R368) -/

/-- MACsec transmission: the frame with SecTAG and ICV, the SA's next PN; MACSEC_PN at its mark, and the SA stops before the last PN. -/
def Dev.macsecTx (d : Dev) (p now : Nat) (l : Bytes) : Bytes × Dev :=
  match d.txSa p with
  | none => (l, d)
  | some (i, x) =>
    let rest := l.drop 12
    let sl := if rest.length < 48 then rest.length else 0
    let tag := be 2 0x88E5 ++ be 1 (0x2C + x.an) ++ be 1 sl ++ be 4 (x.nextPn % 2 ^ 32) ++ be 8 x.sci
    let clear := if rest.length < x.confOffset then rest.length else x.confOffset
    let c := gcmSeal x.key.toNat (x.iv x.nextPn) (l.take 12 ++ tag ++ rest.take clear) (rest.drop clear)
    let next := x.nextPn + 1
    let d := d.cipherUse 1 ((p - 0x40) / 4) (l.length + 32) (d.clk now) false
    let d := { d with sec := { d.sec with macsec := tset d.sec.macsec i { x with nextPn := next, stopped := decide (2 ^ 64 - 1 ≤ next) } } }
    let d := if next = pnMark then d.raise 0x2CA (le 1 (p - 0x40) ++ le 1 (i % 64)) else d
    (l.take 12 ++ tag ++ rest.take clear ++ c.1 ++ be 16 c.2.toNat, d)

/-- An event message that starts on a PTP port at a clock is stamped there, and in one-step mode rewritten (R340). -/
def Dev.ptpSent (d : Dev) (p now start : Nat) : Dev :=
  let d := d.ptpEvent p (upInst p) (now + (start - d.clk now)) none
  match tget d.time.ports p with
  | some x => if x.oneStep then d.modUp p (fun y => { y with wire := x.oneStepped y.wire }) else d
  | none => d

/-- The clock at which a frame selected at clock `now` starts (R283): in Low Power Idle it waits first, up to TW_US; how long is a free value. -/
def Dev.txStart (d : Dev) (p now : Nat) : Nat × Dev :=
  let x := d.upPort p
  let (w, d) := d.draw
  let wait := if x.inLpi then w % (x.set.twUs * Config.clocksPerMicrosecond + 1) else 0
  (d.txFree p now + wait, d)

/-- Send the head frame of a queue, or drop one above MAX_SDU. -/
def Dev.upSend (d : Dev) (p q now : Nat) : Dev :=
  match d.headOf q, (d.queue q).basin.head? with
  | some f, some e =>
    let x := d.upPort p
    if x.oversize (q % 8) f.data.length then (d.countUp p .uplGateOversize).dequeue q false
    else
      let charged := d.chargeHead p q f
      let d := d.sojourn q e.frame now
      let d := d.serve p q charged now
      let (wire, d) := if d.secured p f.data then d.macsecTx p now f.data else (f.data, d)
      let (start, d) := d.txStart p now
      let d := d.modUp p (fun x =>
        { x with inLpi := false, wire, tx := some { start, stop := start + sendClocks charged (d.upRate p), cls := q % 8, express := x.express (q % 8) } })
      let ptp := etherType wire = 0x88F7 ∧ (tget d.time.ports p).elim false (fun x => x.enable) ∧
        byteAt wire ((afterTags wire (wire.length / 4 + 1) 12).2 + 2) % 16 < 4
      let d := if ptp then d.ptpSent p now start else d
      (((d.countUp p .uplTxFrames).countUp p .uplTxBytes (wire.length + 4))).frameSent p q
  | _, _ => d

/-- The PTP message that a port would send now: an express frame of class 0, subject to the gate list (R340). It goes before the frames of queues (log entry
100), and waits in a pause (R460). -/
def Dev.ownDue (d : Dev) (p now : Nat) : Option (Bytes × Bool) :=
  let x := d.upPort p
  if d.upLive p && x.up && !d.host.idle && bitOf x.gates 0 then x.own.head?.filter (fun m => d.endsInGate p now 0 (m.1.length + 24)) else none

/-- Send it; an event message is timestamped as it leaves, and in two-step mode its follow-up is queued. -/
def Dev.ownSend (d : Dev) (p now : Nat) (m : Bytes × Bool) : Dev :=
  let (start, d) := d.txStart p now
  let stop := start + sendClocks (m.1.length + 24) (d.upRate p)
  let d := d.modUp p (fun x =>
    { x with own := x.own.drop 1, inLpi := false, wire := m.1, tx := some { start, stop, cls := 0, express := true } })
  let d := (d.countUp p .uplTxFrames).countUp p .uplTxBytes (m.1.length + 4)
  if m.2 then (d.ptpSent p now start).ptpFollow p m.1 else d

/-- A preempted frame goes on at clock `now`, once its gate is open and no hold is in force. -/
def Dev.resumePre (d : Dev) (p now : Nat) : Dev :=
  let x := d.upPort p
  match x.pre with
  | some (left, cls) =>
    if bitOf x.gates cls ∧ !x.hold then 
      d.modUp p (fun x => { x with tx := some { start := d.clk now, stop := d.clk now + left, cls, express := false }, pre := none })
    else d
  | none => d

/-- Selection at a port. While a frame is in transmission only an express frame is selected, and only over a preemptable one. -/
def Dev.upSelect (d : Dev) (p now : Nat) : Dev :=
  let x := d.upPort p
  let busy := x.tx.elim false (fun f => decide (d.clk now < f.stop))
  if busy ∧ !d.preemptable p now then d
  else
    let d := d.holdUnfit p now
    let elig := (d.linked p).filter (fun q => d.eligible p now q)
    let d := d.refreshDrr p elig
    let may := if busy ∨ x.pre.isSome then elig.filter (fun q => x.express (q % 8)) else elig
    match d.ownDue p now with
    | some m => (if busy then d.preempt p now else d).ownSend p now m
    | none =>
      match Dev.firstPick p may (List.range 5) d with
      | (none, d) => if busy then d else d.resumePre p now
      | (some q, d) => (if busy then d.preempt p now else d).upSend p q now

/-! ### Towpath destinations and host receive rings (R406, R451) -/

/-- Hand a frame to its link as a DATA unit with its flow and class. -/
def Dev.towSend (d : Dev) (p q now : Nat) : Dev :=
  match d.headOf q, (d.queue q).basin.head? with
  | some f, some e =>
    let d := d.sojourn q e.frame now
    let d := d.serve p q (d.chargeHead p q f) now
    let d := (d.sendUnit (p - 0x60) 0 (some (q / 8, q % 8)) f.data).frameSent p q
    d.leaveIneligible p now
  | _, _ => d

/-- What a frame written to a receive ring says of itself in its first descriptor. -/
structure RxInfo where
  data : Bytes
  input : Nat
  port : Nat
  flow : Nat
  cls : Nat
deriving DecidableEq, Repr

/-- Fill the buffers (R451): the memory after it, and the cause where a descriptor is missing (1), not owned (2) or unreadable (3). -/
def fillBuffers (posted : Nat) : List Bytes → (i : Nat) → List (Nat × Bool × Bool) → List Host.Cell → List Host.Cell × Nat
  | [], _, _, m => (m, 0)
  | b :: t, i, ds, m =>
    if posted ≤ i then (m, 1)
    else match ds with
      | [] => (m, 3)
      | (addr, own, ok) :: r => if !ok then (m, 3) else if !own then (m, 2) else fillBuffers posted t (i + 1) r (memWrite m addr b)

/-- Cut a frame into buffers of 2,048 bytes. -/
def buffersOf : (fuel : Nat) → Bytes → List Bytes
  | 0, _ => []
  | n + 1, l => if l.length ≤ 2048 then [l] else l.take 2048 :: buffersOf n (l.drop 2048)

/-- Write the descriptors of a frame, the first one last. -/
def writeDescs (m : List Host.Cell) (r : Ring) (c : Nat) (x : RxInfo) (bs : List Bytes) : List Host.Cell :=
  let n := bs.length
  let at_ (i : Nat) : Nat := r.entryAddr ((r.head + i) % r.entries)
  let later := (rangeFrom 1 (n - 1)).foldl (fun m i =>
    memWrite m (at_ i + 8) (le 2 (lget bs i []).length ++ le 1 (4 * b2n (decide (i + 1 = n))))) m
  memWrite later (at_ 0 + 8) (le 2 (lget bs 0 []).length ++ le 1 (2 + 4 * b2n (decide (n = 1))) ++ le 1 x.input ++
    le 4 (x.flow % 131072 + x.cls % 8 * 131072) ++ fromResp c ++ le 2 x.data.length ++ le 1 x.port ++ zeros 5)

/-- Write a frame into host receive ring `k` (4 to 7), or drop it whole (R451); a disabled ring has no descriptor posted (R432). -/
def Dev.ringWrite (d : Dev) (mem : List Host.Cell) (k : Nat) (x : RxInfo) (descs : List (Nat × Bool × Bool)) (now : Nat) : Dev × List Host.Cell :=
  let r := d.pktRing k
  let bs := buffersOf 9 x.data
  let w := fillBuffers (if r.enable then r.posted else 0) bs 0 descs mem
  if w.2 = 0 then
    let mem := writeDescs w.1 r d.now x bs
    let t := d.clk now
    let hold := r.lastMsg.elim false (fun m => decide (t < m + r.coalesce * Config.clocksPerMicrosecond))
    let d := d.modPktRing k (fun r =>
      { r with head := (r.head + bs.length) % r.entries, msgDue := hold, lastMsg := if hold then r.lastMsg else some t })
    ((if hold then d else d.signal (8 + k)).count 20 .hostRxFrames k, mem)
  else
    (((d.modPktRing k (fun r => { r with lost := (r.lost + 1) % 2 ^ 32 })).count 20 .hostRxNobuf k).raiseFirst 0x3D9 (le 1 k) w.2, w.1)

/-- Selection at a host receive ring: frames redirected to it (R236) go before those of its queues. -/
def Dev.ringSelect (d : Dev) (o : Egress) (mem : List Host.Cell) : Dev × List Host.Cell :=
  let p := o.point
  let k := p - 0xA0 + 4
  if !d.ringElig k then (d, mem)
  else
    match takeFirst (fun x => x.1 == p - 0xA0) d.cls.redirects with
    | some ((_, pk), rest) =>
      let d := { d with cls := { d.cls with redirects := rest } }
      let (v, d) := d.draw
      d.ringWrite mem k { data := pk.data, input := pk.input, port := pk.port, flow := v % 131072, cls := v / 131072 % 8 } o.descs o.now
    | none =>
      let elig := (d.linked p).filter (fun q => d.eligible p o.now q)
      let d := d.refreshDrr p elig
      match Dev.firstPick p elig (List.range 5) d with
      | (none, d) => (d, mem)
      | (some q, d) =>
        match d.headOf q, (d.queue q).basin.head? with
        | some f, some e =>
          let charged := d.chargeHead p q f
          let before := d.counter 20 .hostRxFrames k
          let w := d.ringWrite mem k { data := f.data, input := f.input, port := f.port, flow := q / 8, cls := q % 8 } o.descs o.now
          if w.1.counter 20 .hostRxFrames k = before then (w.1.dequeue q false, w.2)
          else ((((w.1.sojourn q e.frame o.now).serve p q charged o.now).frameSent p q).leaveIneligible p o.now, w.2)
        | _, _ => (d, mem)

/-- EGRESS_SELECT (R207): the point accepts a frame, or at a tree the next header position; none while the pipelines are gated (R490). -/
def egressSelect (o : Egress) (d : Dev) (mem : List Host.Cell) : Dev × List Host.Cell :=
  let p := o.point
  if d.gated then (d, mem)
  else if p < 0x40 then (if d.treeUp p then d.treeSelect p o.now else d, mem)
  else if p < 0x60 ∨ p = 0xA4 then (if d.upLive p then d.upSelect p o.now else d, mem)
  else if p < 0xA0 then
    if p - 0x60 = d.dev.devAddr then (d, mem)
    else
      let elig := (d.linked p).filter (fun q => d.eligible p o.now q)
      match Dev.firstPick p elig (List.range 5) (d.refreshDrr p elig) with
      | (none, d) => (d, mem)
      | (some q, d) => (d.towSend p q o.now, mem)
  else if p < 0xA4 then d.ringSelect o mem
  else (d, mem)
def execEgressSelect (o : Egress) (s : State) : Host.Outcome State Fault Refusal := s.onBoth (egressSelect o)

/-! ### Eligibility that a command changes (R206, R208, R209)

A queue of the DRR level leaves its point's active list, or joins its tail, in the clock in which it becomes ineligible or eligible: by credit, a host ring's registers,
or its terminal's state. -/

/-- The points with a queue of the DRR level that holds a frame, or with one in the active list, that a test accepts. -/
def Dev.drrPoints (d : Dev) (mine : Nat → Bool) : List Nat :=
  ((d.pool.queues.filter (fun e => decide (4 ≤ e.1 % 8) && !e.2.basin.isEmpty)).map (fun e => d.pointOf e.1) ++
    (d.sched.points.filter (fun e => !e.2.active.isEmpty)).map (·.1)).eraseDups.filter mine

/-- Bring the active lists of some points up to date at clock `now`. -/
def Dev.syncDrr (d : Dev) (now : Nat) (mine : Nat → Bool) : Dev :=
  (d.drrPoints mine).foldl (fun d p => d.refreshDrr p ((d.linked p).filter (fun q => d.eligible p now q))) d

/-- Points of Towpath destinations, and of host receive rings (R204). -/
def isTowPoint (p : Nat) : Bool := decide (0x60 ≤ p) && decide (p < 0xA0)
def isRingPoint (p : Nat) : Bool := decide (0xA0 ≤ p) && decide (p < 0xA4)

/-- A write to the CTRL of a host packet ring, or to another of its registers, with what it does to the DRR levels of the ring points (R208, R209, R445). -/
def ringCtrlSynced (ring value : Nat) (d : Dev) : Dev :=
  if ring < 112 then ringCtrlWrite ring value d else (ringCtrlWrite ring value d).syncDrr 0 isRingPoint
def registerSynced (off value : Nat) (d : Dev) : Dev :=
  if 0x8000 ≤ off ∧ off < 0x8200 then (registerWrite off value d).syncDrr 0 isRingPoint else registerWrite off value d

def execBargeReceive (r : BargeRx) (s : State) : Host.Outcome State Fault Refusal := s.onDev (fun d => (bargeReceive r d).syncDrr 0 (· == r.tree))
def execQuietWindowEnd (tree : Nat) (s : State) : Host.Outcome State Fault Refusal := s.onDev (fun d => (quietWindowEnd tree d).syncDrr 0 (· == tree))
def execTerminalLost (tree serial : Nat) (s : State) : Host.Outcome State Fault Refusal := s.onDev (fun d => (terminalLost tree serial d).syncDrr 0 (· == tree))
def execNamedTickReached (tree : Nat) (s : State) : Host.Outcome State Fault Refusal := s.onDev (fun d => (namedTickReached tree d).syncDrr 0 (· == tree))
def execCreditAdvertiseRx (link cls limit : Nat) (s : State) : Host.Outcome State Fault Refusal :=
  s.onDev (fun d => (creditRx link cls limit d).syncDrr 0 isTowPoint)
def execTowpathLinkEgressSlot (link now : Nat) (s : State) : Host.Outcome State Fault Refusal := s.onDev (fun d => (linkSlot link now d).syncDrr now isTowPoint)
def execRouteRecompute (s : State) : Host.Outcome State Fault Refusal := s.onDev (fun d => (routeRecompute d).syncDrr 0 isTowPoint)
def execEventRingCtrlWrite (ring value : Nat) (s : State) : Host.Outcome State Fault Refusal := s.onDev (ringCtrlSynced ring value)
def execRegisterWrite (off value : Nat) (s : State) : Host.Outcome State Fault Refusal := s.onDev (registerSynced off value)
def execHostInterfaceReset (cause : Nat) (s : State) : Host.Outcome State Fault Refusal := s.onDev (fun d => (hostReset cause d).syncDrr 0 isRingPoint)

end Sys2Proof.Machine
end

