-- ==== Sys2Proof/Machine/Lanes.lean ====
section
/-!
DEFINITION. Tree lanes, their wake, module management and the main references (chapter 02), and the commands TREE_ATTACH, TREE_DETACH,
TREE_CONFIG and TREE_STATUS (chapter 21).
-/
namespace Sys2Proof.Machine

/-! ### Wake (R57 to R59) -/

/-- A terminal in a state that keeps the lanes of a sealed tree lit (R57). -/
def Term.keepsLit (x : Term) : Bool := x.state = .ranging || x.state = .inService || x.state = .quarantined || x.state = .dozing

/-- A sealed tree is quiet at a boundary: none of its terminals, given, keeps the lanes lit, and no quiet window is open or has outcomes to decide or send
(R57). -/
def Tree.quiet (t : Tree) (terms : List Term) (now : Nat) : Bool :=
  t.sealed && !terms.any Term.keepsLit &&
    t.disc.windows.isEmpty && t.disc.collSeen.elim true (fun f => decide (f < now)) &&
    !t.down.lm.any (fun m => m.typ == 0x10 || m.typ == 0x11)

/-- The port is the standby of a protected tree, or still in INIT: it sends no frame (R57, R294). A port that takes the lease is no standby. -/
def Dev.isStandby (d : Dev) (t : Nat) : Bool := (d.port t).elim false (fun p => p.state = .standby || p.state = .init)

/-- The terminals of a tree as this port knows them: its own, or those of the mirror at a standby (R288). -/
def Dev.termsOf (d : Dev) (t : Nat) : List Term :=
  match d.port t with
  | some p => if d.isStandby t then (d.mirrorOf p).terms else (d.tree t).terms
  | none => (d.tree t).terms

/-- A sealed tree is quiet (R57). -/
def Dev.quiet (d : Dev) (t : Nat) : Bool := (d.tree t).quiet (d.termsOf t) d.now

/-- R57 calls for a lit transmit lane. -/
def Dev.wantsLit (d : Dev) (t : Nat) : Bool := !d.quiet t && !d.isStandby t

/-- The lanes while the transmit lane is idle: the receive lane of a standby, or of a port that failed to wake for a take, stays active unless its tree is quiet (R57). -/
def Dev.restState (d : Dev) (t : Nat) : LaneState := if d.offLease t && !d.quiet t then .standby else .idle

/-- The equalisation entry of a tree in the profile in force (R54, R56). -/
def Dev.eqEntry (d : Dev) (t : Nat) : Option Bytes := d.profile.tree.map (fun b => slice b (16 + 8 * t) 8)

/-- A wake series ends (R59). With a command the tree returns to detached and the command completes; otherwise a new series may start
after 60 s. -/
def Dev.endSeries (d : Dev) (t : Nat) (st : Status) : Dev :=
  match (d.tree t).lanes.wake with
  | none => d
  | some w =>
    let d := d.modTree t (fun x => { x with lanes := { x.lanes with wake := none, nextSeries := some (d.now + 60 * Config.ticksPerSecond) } })
    match w.ref with
    | none => d
    | some ref => (d.modTree t (fun x => { x with attach := .detached, since := d.now })).complete ref st

/-- Request one wake attempt of a series; a refusal ends the series (R59). -/
def Dev.requestWake (d : Dev) (t index : Nat) : Dev :=
  let r := d.request (.wakeTree t) index ((d.tree t).lanes.wake.bind (·.ref))
  if r.2 then r.1 else r.1.endSeries t .notAdmitted

/-- Start a wake series. STATE 2 begins. -/
def Dev.startSeries (d : Dev) (t : Nat) (ref : Option CmdRef) (index : Nat) : Dev :=
  let w : WakeSeries := { failures := 0, phase := .waiting, ref }
  let d := d.modTree t (fun x => { x with since := d.now, lanes := { x.lanes with wake := some w, nextSeries := none } })
  d.requestWake t index

/-- LANE_WAKE_FAIL (R59): during the wake tick the PLL, the calibration or the CDR check fails. -/
def laneWakeFail (t : Nat) (d : Dev) : Dev :=
  match (d.tree t).lanes.state, (d.tree t).lanes.wake with
  | .waking since false, some w =>
    let f := w.failures + 1
    let d := d.modTree t (fun x => { x with lanes := { x.lanes with
      state := .waking since true, wake := some { w with failures := f, phase := .pausing (d.now + Config.ticksPerSecond) } } })
    let d := (d.countTree t .wakeFail).lineEvent t 5 none
    if 3 ≤ f then d.endSeries t .noResource else d
  | _, _ => d
def execLaneWakeFail (tree : Nat) (s : State) : Host.Outcome State Fault Refusal := s.onDev (laneWakeFail tree)

/-- WAKE_RETRY (R59): one second after a failure. -/
def wakeRetry (t : Nat) (d : Dev) : Dev :=
  match (d.tree t).lanes.wake with
  | some w => match w.phase with
    | .pausing at_ =>
      if at_ ≤ d.now then
        (d.modTree t (fun x => { x with lanes := { x.lanes with wake := some { w with phase := .waiting } } })).requestWake t 9
      else d
    | _ => d
  | none => d
def execWakeRetry (tree : Nat) (s : State) : Host.Outcome State Fault Refusal := s.onDev (wakeRetry tree)

/-- The transmit lane is idle. The receive lane may be active: that of a standby, or of a port whose wake for a take failed (R57, R59). -/
def LaneState.txIdle (l : LaneState) : Bool := l = .idle || l = .standby

/-- WAKE_SERIES_RESTART (R59): 60 s after the end of a series, while R57 calls for lit lanes. -/
def wakeSeriesRestart (t : Nat) (d : Dev) : Dev :=
  let x := d.tree t
  if x.attached ∧ x.lanes.state.txIdle ∧ x.lanes.wake.isNone ∧ d.wantsLit t ∧ x.lanes.nextSeries.elim false (fun n => decide (n ≤ d.now)) then
    d.startSeries t none 9
  else d
def execWakeSeriesRestart (tree : Nat) (s : State) : Host.Outcome State Fault Refusal := s.onDev (wakeSeriesRestart tree)

/-- Sluice admits a wake at this boundary (R58): the lane takes its equalisation entry (R56). -/
def Dev.admitWake (d : Dev) (t : Nat) : Dev :=
  d.modTree t (fun x => { x with lanes := { x.lanes with
    state := .waking d.now false, eq := d.eqEntry t,
    wake := x.lanes.wake.map (fun w => { w with phase := .admitted d.now }) } })

/-- The training burst that ends the tick of a wake: 0xF0, 64 times (R58). -/
def trainingBurst : Bytes := List.replicate 64 0xF0

/-- The tick of a wake has ended: the training burst has gone and the lanes are lit, or they are idle after a failure, which sends no burst; an attach completes with
the first frame (R58, R59, R509). A new holder's port lights the same way. -/
def Dev.wakeBoundary (d : Dev) (t : Nat) : Dev :=
  match (d.tree t).lanes.state with
  | .waking since failed =>
    if d.now ≤ since then d
    else
      let d := d.endedIn (.wakeTree t) since
      if failed then
        let rest := d.restState t
        d.modTree t (fun x => { x with lanes := { x.lanes with state := rest } })
      else
        let ref := (d.tree t).lanes.wake.bind (·.ref)
        let d := d.modTree t (fun x => { x with attach := .attached, since := d.now, lanes := { x.lanes with
          state := .lit, wake := none, training := some (since, trainingBurst) } })
        d.completeOpt ref .ok (fromResp d.now)
  | _ => d

/-! ### Module management (R60 to R62) -/

/-- A module bus. -/
def Dev.bus (d : Dev) (b : Nat) : ModuleBus := lget d.dev.buses b ModuleBus.reset
/-- Change a module bus. -/
def Dev.modBus (d : Dev) (b : Nat) (f : ModuleBus → ModuleBus) : Dev :=
  { d with dev := { d.dev with buses := lmod d.dev.buses b ModuleBus.reset f } }

/-- Ask for an access to a tree's module (R61): accesses of one bus wait in request order. -/
def Dev.askModule (d : Dev) (t : Nat) (identity : Bool) : Dev :=
  (d.modBus (t / 8) (fun b => { b with queue := b.queue ++ [{ tree := t, identity }] })).modTree t (fun x =>
    { x with lanes := { x.lanes with polledAt := some d.now } })

/-- Status is read every 100 ms: 800 ticks after the access asked for last (R61). -/
def Dev.askStatus (d : Dev) (t : Nat) : Dev :=
  if !(d.tree t).attached ∨ d.dev.busFaulty.contains (t / 8) ∨ (d.tree t).lanes.polledAt.elim false (fun p => decide (d.now < p + 800)) then d
  else d.askModule t false

/-- The transfers of one access: the channel is selected, the pages are read, settings that differ from those in the module are written, and every channel is
deselected (R60, R61, R511). -/
def accessOps (channel : Nat) (identity : Bool) (m : ModuleSet) : List BusOp :=
  [.select channel] ++ (if identity then [.readA0] else []) ++ [.readA2] ++
    (if m.written.map (·.1) = some m.txDisableIdle then [] else [.writeTxDisable m.txDisableIdle]) ++
    (if m.written.map (·.2) = some m.rateSelect then [] else [.writeRate m.rateSelect]) ++ [.deselect]

/-- The channels that the switch connects after a transfer: one bit each. -/
def BusOp.connected (c : Nat) : BusOp → Nat
  | .select ch => 2 ^ ch
  | .deselect => 0
  | _ => c

/-- What an access reads and writes in its tree's module: status always, the identity where it is asked for or not yet known. -/
def Lanes.access (l : Lanes) (identity : Bool) (data : Bytes × Bytes × Bytes × Nat × Nat × Nat) : Lanes :=
  let fresh : ModuleData :=
    { vendor := data.1, part := data.2.1, serial := data.2.2.1, temp := data.2.2.2.1, txPower := data.2.2.2.2.1, rxPower := data.2.2.2.2.2 }
  { l with
    module := some (match identity, l.module with
      | false, some m => { fresh with vendor := m.vendor, part := m.part, serial := m.serial }
      | _, _ => fresh),
    mset := { l.mset with written := some (l.mset.txDisableIdle, l.mset.rateSelect) } }

/-- The recoveries that an access needed (R62): the failed ones, at most three in a row, and the one that freed a held bus. -/
def busRecoveries (r : ModulePoll) : List BusOp :=
  List.replicate (if 3 ≤ r.failedRecoveries then 3 else if r.held ∨ 0 < r.failedRecoveries then r.failedRecoveries + 1 else 0) .recover

/-- MODULE_POLL: the access at the head of the bus's queue is made where it is this tree's; three failed recoveries mark the bus faulty. Polling waits in a pause (R460)
and stops on a faulty bus. -/
def modulePoll (r : ModulePoll) (d : Dev) : Dev :=
  let bus := r.tree / 8
  if d.host.idle ∨ !d.treePresent r.tree ∨ d.dev.busFaulty.contains bus then d
  else
    match (d.bus bus).queue with
    | [] => d
    | a :: rest =>
      if a.tree ≠ r.tree then d
      else if 3 ≤ r.failedRecoveries then
        let d := { d with dev := { d.dev with busFaulty := bus :: d.dev.busFaulty } }
        let d := d.modBus bus (fun b => { b with queue := [], done := busRecoveries r })
        (rangeFrom (8 * bus) 8).foldl (fun d t => d.lineEvent t 6 none) d
      else match r.data with
        | none => d.modBus bus (fun b => { b with queue := rest, done := busRecoveries r })
        | some data =>
          let identity := a.identity || (d.tree r.tree).lanes.module.isNone
          let ops := busRecoveries r ++ accessOps (r.tree % 8) identity (d.tree r.tree).lanes.mset
          let d := d.modBus bus (fun _ => { queue := rest, done := ops, connected := ops.foldl BusOp.connected 0 })
          d.modTree r.tree (fun x => { x with lanes := x.lanes.access identity data })
def execModulePoll (r : ModulePoll) (s : State) : Host.Outcome State Fault Refusal := s.onDev (modulePoll r)

/-- TREE_CONFIG (R511): applied at the next module access; the bus speed for all eight trees of the bus. -/
def treeConfig (r : TreeConfigReq) (ref : CmdRef) (d : Dev) : Dev :=
  if !d.treePresent r.tree then d.complete ref .invalid
  else
    let bus := r.tree / 8
    let rest := d.dev.busFast.filter (· != bus)
    let d := { d with dev := { d.dev with busFast := if r.fast then bus :: rest else rest } }
    (d.modTree r.tree (fun x => { x with lanes := { x.lanes with
      mset := { x.lanes.mset with txDisableIdle := r.txDisableIdle, rateSelect := r.rateSelect } } })).complete ref .ok
def execTreeConfig (ctx : Nat) (r : TreeConfigReq) (s : State) : Host.Outcome State Fault Refusal :=
  s.onDev (·.mailbox ctx 0x0203 (treeConfig r))

/-! ### Attach and detach (R509, R510) -/

/-- Begin an attach: a tree that R57 keeps idle waits for the next boundary, any other for its wake. -/
def Dev.startAttach (d : Dev) (t : Nat) (sealIt : Bool) (ref : CmdRef) : Dev :=
  let d := { d with clock := { d.clock with everAttached := true } }
  let d := d.modTree t (fun x => { x with attach := .attaching ref sealIt, sealed := sealIt })
  let bus := t / 8
  let d := { d with dev := { d.dev with busFaulty := d.dev.busFaulty.filter (· != bus) } }
  let d := d.askModule t true
  if d.wantsLit t then d.startSeries t (some ref) ref.ctx else d

/-- An alignment must come before the first attach (R405): ALIGN is set and Towpath is enabled, or the lengthened tick runs still. The tick reference itself has
nothing to align to. -/
def Dev.alignDue (d : Dev) : Bool :=
  !d.clock.everAttached && (d.clock.lengthenTo.isSome ||
    (d.tow.align && d.tow.enabledAt.isSome && !d.tow.aligned && !d.tow.alignOver && d.tickRef != some d.dev.devAddr))

/-- TREE_ATTACH (R509). -/
def treeAttach (t : Nat) (sealIt : Bool) (ref : CmdRef) (d : Dev) : Dev :=
  if !d.treePresent t ∨ (d.tree t).attach ≠ .detached ∨ d.tow.attachWait.any (fun e => e.2.1 == t) ∨ d.profile.tree.isNone then
    d.complete ref .invalid
  else if d.dev.power = .quiet ∨ d.dev.power = .doze then d.complete ref .denied
  else if d.alignDue then { d with tow := { d.tow with attachWait := d.tow.attachWait ++ [(ref, t, sealIt)] } }
  else d.startAttach t sealIt ref
def execTreeAttach (ctx tree : Nat) (sealIt : Bool) (s : State) : Host.Outcome State Fault Refusal :=
  s.onDev (·.mailbox ctx 0x0201 (treeAttach tree sealIt))

/-- The attaches that waited for alignment begin. -/
def Dev.releaseAttach (d : Dev) : Dev :=
  if d.alignDue ∨ d.tow.attachWait = [] then d
  else
    let w := d.tow.attachWait
    w.foldl (fun d e => d.startAttach e.2.1 e.2.2 e.1) { d with tow := { d.tow with attachWait := [] } }

/-- ALIGN_WAIT_EXPIRY (R405): no tick reference within ALIGN_WAIT of the enable. -/
def alignWaitExpiry (d : Dev) : Dev :=
  match d.tow.enabledAt with
  | none => d
  | some e =>
    if d.tickRef.isNone ∧ e * 1000 + d.tow.alignWait * Config.ticksPerSecond ≤ d.now * 1000 then
      ({ d with tow := { d.tow with alignOver := true } }).releaseAttach
    else d
def execAlignWaitExpiry (s : State) : Host.Outcome State Fault Refusal := s.onDev alignWaitExpiry

/-- TREE_DETACH (R510): applied at the next boundary. A second one while the first waits is invalid (log entry 25). -/
def treeDetach (t : Nat) (ref : CmdRef) (d : Dev) : Dev :=
  let x := d.tree t
  let waits := d.tow.attachWait.any (fun e => e.2.1 == t)
  if (tget d.prot.ports t).isSome then d.complete ref .denied
  else if !d.treePresent t ∨ (x.attach = .detached ∧ !waits) ∨ x.detachPend.isSome then d.complete ref .invalid
  else d.modTree t (fun x => { x with detachPend := some ref })
def execTreeDetach (ctx tree : Nat) (s : State) : Host.Outcome State Fault Refusal :=
  s.onDev (·.mailbox ctx 0x0202 (treeDetach tree))

/-- A lock message that still waits after a detach (log entry 44): FLOW_BINDs stay held (R89), REMOVE and the last copies of a trigger complete
their commands. -/
def LockMsg.survives (m : LockMsg) : Bool :=
  match m.kind with
  | .flowBind _ _ => true
  | .remove => true
  | .netTrigger _ => true
  | _ => false

/-- The detach at its boundary: an attach is cancelled, every grant is withdrawn, terminals return to LISTED with their ids held, defects
clear with cause DETACHED. -/
def Dev.detachNow (d : Dev) (t : Nat) (ref : CmdRef) : Dev :=
  let waits := (d.tow.attachWait.filter (fun e => e.2.1 == t)).map (·.1)
  let cancelled := match (d.tree t).attach with
    | .attaching r _ => r :: waits
    | _ => waits
  let d := { d with tow := { d.tow with attachWait := d.tow.attachWait.filter (fun e => e.2.1 != t) } }
  let d := d.withdrawOp (fun o => o = .wakeTree t)
  let d := d.endedIn (.wakeTree t) (d.now - 1)
  let d := (d.tree t).terms.foldl (fun d x =>
    let d := x.id.elim d (fun id => (d.clearTermDefects t id 2).eraseSession t id)
    if x.state = .listed then d.modTerm t x.serial (fun y => y.withdrawGrants d.nextBuild) else d.dropTo t x .listed) d
  let d := [8, 9, 10].foldl (fun d b => d.setTreeDefect t b false 2) d
  let d := d.modLine t (fun l => { l with silentRun := 0, clearRun := 0, path := .reset, counted := false, energy := false })
  let tables := (d.tree t).down.lm.filter (fun m => m.kind == .standing)
  let d := tables.foldl (fun (d : Dev) m => d.completeOpt m.ref .ok m.resp) d
  let d := d.modTree t (fun x =>
    { x with
      attach := .detached, since := d.now, detachPend := none, sealed := false,
      lanes := { x.lanes with state := .idle, wake := none, nextSeries := none, brst := [], polledAt := none },
      down := { x.down with
        work := none, sent := none, carried := [], leftover := [], frags := [], carriedFirst := none, ranOn := [], maps := [],
        lm := x.down.lm.filter LockMsg.survives },
      keep := { x.keep with manifests := [], building := none, reports := [], shadows := [], confirms := [] },
      disc := { x.disc with windows := [], kept := [], collSeen := none, claims := [], claimed := [] } })
  let d := d.modBus (t / 8) (fun b => { b with queue := b.queue.filter (fun a => a.tree != t) })
  let d := cancelled.foldl (fun d r => d.complete r .denied) d
  d.complete ref .ok (fromResp d.now)

/-- The lanes of a tree at a boundary, before Sluice: detach, seal, end of a wake, idle, and the need of a new series. -/
def Dev.lanesBoundary (d : Dev) (t : Nat) : Dev :=
  let x := d.tree t
  let d : Dev := match x.detachPend with
    | some ref => d.detachNow t ref
    | none => d
  let seals := (d.tree t).sealPend
  let d := seals.foldl (fun d e =>
    (d.modTree t (fun x => { x with sealed := e.2 })).complete e.1 .ok)
    (d.modTree t (fun x => { x with sealPend := [] }))
  let unsealed : Bool := seals.any (fun (e : CmdRef × Bool) => !e.2)
  let d := d.wakeBoundary t
  let x := d.tree t
  let d : Dev := match x.attach with
    | .attaching ref _ =>
      if x.lanes.wake.isNone ∧ !d.wantsLit t then
        let rest := d.restState t
        (d.modTree t (fun x => { x with attach := .attached, since := d.now,
                                        lanes := { x.lanes with state := rest, eq := d.eqEntry t } })).complete ref .ok (fromResp d.now)
      else d
    | _ => d
  let d := d.askStatus t
  let x := d.tree t
  let rest := d.restState t
  if !x.attached then d
  else if (x.lanes.state = .lit ∧ d.quiet t) ∨ (x.lanes.state = .standby ∧ rest = .idle) ∨ (x.lanes.state = .idle ∧ rest = .standby ∧ x.lanes.wake.isNone) then
    d.modTree t (fun x => { x with since := d.now, lanes := { x.lanes with state := rest, brst := [] } })
  else if x.lanes.state.txIdle && x.lanes.wake.isNone && d.wantsLit t && (x.lanes.nextSeries.isNone || unsealed) then
    d.startSeries t none 9
  else d

/-! ### TREE_BRST (R50 to R52) -/

/-- TREE_BRST at boundary C: the pulse of each guard of the tick, at guard bits 112 to 175 before a place, and the pulse at the first bit of a quiet window; none while
the receive lane is idle (R51). The pulses of ticks that have passed go. -/
def Tree.guardPulses (x : Tree) (c : Nat) : List (Nat × Nat) :=
  let starts := (x.grantsOf c).map (fun g => g.start) ++ (x.unlisted c).map (fun p => p.start)
  (starts.map (fun b => (c, b - 208))) ++ (if x.disc.windows.any (fun w => w.q == c) then [(c, 0)] else [])

/-! ### TREE_STATUS (R512) -/

/-- STATE of TREE_STATUS: a port whose wake for a take has failed is attached with idle lanes, though its receive lane stays active (R59). -/
def Dev.statusCode (d : Dev) (t : Nat) : Nat :=
  let x := d.tree t
  if x.lanes.wake.isSome then 2
  else match x.lanes.state with
    | .lit => 3
    | .standby => if d.isStandby t then 4 else 1
    | .waking _ _ => if x.attached then 1 else 0
    | .idle => if x.attached then 1 else 0

/-- The TREE_STATUS response (R512). -/
def treeStatusResp (d : Dev) (t : Nat) : Bytes :=
  let x := d.tree t
  let m := x.lanes.module
  le 1 (d.statusCode t) ++
    le 1 (b2n x.sealed + 2 * b2n (tget d.prot.ports t).isSome + 4 * b2n m.isSome + 8 * b2n (d.dev.busFaulty.contains (t / 8))) ++
    le 2 (d.line t).defects ++ le 2 x.terms.length ++ le 2 (x.terms.filter (fun y => y.state = .inService)).length ++
    fromResp x.since ++ le 2 (m.elim 0 (·.temp)) ++ le 2 (m.elim 0 (·.txPower)) ++ le 2 (m.elim 0 (·.rxPower)) ++ le 2 0 ++
    fit 16 (m.elim [] (·.vendor)) ++ fit 16 (m.elim [] (·.part)) ++ fit 16 (m.elim [] (·.serial))
def treeStatus (t : Nat) (ref : CmdRef) (d : Dev) : Dev :=
  if !d.treePresent t then d.complete ref .invalid else d.complete ref .ok (treeStatusResp d t)
def execTreeStatus (ctx tree : Nat) (s : State) : Host.Outcome State Fault Refusal :=
  s.onDev (·.mailbox ctx 0x0206 (treeStatus tree))

/-! ### Main references (R36 to R39) -/

def RefClk.good (r : RefClk) (i : Nat) : Bool := if i = 0 then r.goodA else r.goodB
def RefClk.setGood (r : RefClk) (i : Nat) (g : Bool) : RefClk := if i = 0 then { r with goodA := g } else { r with goodB := g }
def RefClk.setFail (r : RefClk) (i : Nat) (at_ : Option Nat) : RefClk := if i = 0 then { r with waitA := at_ } else { r with waitB := at_ }

/-- The first good reference: the preferred one, else the other. -/
def RefClk.best (r : RefClk) : Option Nat :=
  if r.good r.pref then some r.pref else if r.good (1 - r.pref) then some (1 - r.pref) else none

/-- Has a reference that was bad been good for the wait-to-restore of 10 s, 80,000 ticks (R36)? -/
def RefClk.waited (r : RefClk) (i up : Nat) : Bool := (if i = 0 then r.waitA else r.waitB).elim true (fun f => decide (f ≤ up))

/-- The part is clocked: a tick has been, or a reference is selected (R36). -/
def Dev.clocked (d : Dev) : Bool := d.clock.cycle != 0 || d.ref.selected.isSome

/-- The wait-to-restore is over. Where no tick has run since the reset the tick count cannot tell, and the event says so itself (log entry 103). -/
def Dev.refWaited (d : Dev) (i : Nat) : Bool := !d.clocked || d.ref.waited i d.up

/-- REFCLK_FAIL (R36, R37): reference 0 (A) or 1 (B) fails a check. A bad reference that fails again waits anew. -/
def refclkFail (i : Nat) (d : Dev) : Dev :=
  if 1 < i then d
  else
    let was := d.ref
    let r := (was.setGood i false).setFail i (if d.clocked then some (d.up + 80000) else none)
    if !was.good i then { d with ref := r }
    else if r.selected = some i then
      if r.good (1 - i) then ({ d with ref := { r with selected := some (1 - i), switchTo := none } }).raise 0x302
      else ({ d with ref := { r with selected := none, switchTo := none } }).raise (0x300 + i)
    else { d with ref := { r with switchTo := if r.selected.isNone then r.best else if r.switchTo = some i then none else r.switchTo } }
def execRefclkFail (reference : Nat) (s : State) : Host.Outcome State Fault Refusal := s.onDev (refclkFail reference)

/-- REFCLK_RESTORE (R36, R37): the references named pass their wait-to-restore. A change of selection follows at the next boundary; two references that become good before
the same boundary become good in the same period (log entry 76). A part that no reference has clocked yet selects at once. -/
def refclkRestore (a b : Bool) (d : Dev) : Dev :=
  let was := d.ref
  let r := { was with goodA := was.goodA || (a && d.refWaited 0), goodB := was.goodB || (b && d.refWaited 1) }
  let r := match r.selected with
    | none => if d.clocked then { r with switchTo := r.best } else { r with selected := r.best }
    | some i => if i ≠ r.pref ∧ r.revertive ∧ r.good r.pref ∧ !was.good r.pref then { r with switchTo := some r.pref } else r
  { d with ref := r }
def execRefclkRestore (a b : Bool) (s : State) : Host.Outcome State Fault Refusal := s.onDev (refclkRestore a b)

/-- The references at a boundary: a loaded system section applies (R505), then the waiting switch. A section with revertive mode on whose preferred reference is good
already moves the selection to it at this boundary, though R37 names only the event 'becomes good' (log entry 76). -/
def Dev.refBoundary (d : Dev) : Dev :=
  let r := match d.ref.pendPref with
    | some (p, rev) =>
      let r := { d.ref with pref := p, revertive := rev, pendPref := none }
      if r.selected.isNone then { r with switchTo := r.best }
      else if rev ∧ r.good p ∧ r.selected ≠ some p then { r with switchTo := some p } else r
    | none => d.ref
  match r.switchTo with
  | none => { d with ref := r }
  | some i => { d with ref := { r with switchTo := none, selected := if r.good i then some i else r.selected } }

end Sys2Proof.Machine
end

