-- ==== Sys2Proof/Machine/Update.lean ====
section
/-!
DEFINITION. Firmware and terminal software update (chapter 19): images and their verification, sessions, activation with its management pause, trial and
rollback, in-band agents, and pushes of terminal software.
-/
namespace Sys2Proof.Machine

def Dev.modUpd (d : Dev) (f : Update → Update) : Dev := { d with upd := f d.upd }

/-! ### Images (R454, R455) -/

/-- The slot that does not run. -/
def Dev.otherSlot (d : Dev) : Nat := 1 - d.dev.slot
def Update.image (u : Update) (s : Nat) : Tbl Bytes := if s = 0 then u.slotA else u.slotB
def Update.setImage (u : Update) (s : Nat) (x : Tbl Bytes) : Update := if s = 0 then { u with slotA := x } else { u with slotB := x }
def Update.settings (u : Update) (s : Nat) : Settings := if s = 0 then u.settingsA else u.settingsB
def Update.setSettings (u : Update) (s : Nat) (x : Settings) : Update := if s = 0 then { u with settingsA := x } else { u with settingsB := x }

/-- A block as stored; erased flash reads as ones. -/
def flashBlock (img : Tbl Bytes) (i : Nat) : Bytes := tgetD img i (List.replicate 4096 0xFF)
/-- Blocks one after another. -/
def storedRange (img : Tbl Bytes) (first n : Nat) : Bytes := (rangeFrom first n).flatMap (flashBlock img)

/-- A block's CRC-32C over its 4,092 data bytes fits (R454). -/
def blockFits (b : Bytes) : Bool := b.length == 4096 && crc32c (b.take 4092) == ofLE (b.drop 4092)

/-- SHA-384 bytes as a number, first byte most significant. -/
def digestOf (b : Bytes) : BitVec 384 := BitVec.ofNat 384 (ofBE b)

/-- The checks of R455 that a boot repeats: authority and signature, payload digest and block count, binding. The RESULT of the first that fails. -/
def Dev.imageCheck (d : Dev) (img : Tbl Bytes) (blocks : Nat) : Option Nat :=
  let h := flashBlock img 0
  let pub := slice h 80 96
  if Config.sha384 pub ≠ Config.imageAuthority ∨ !Config.ecdsaVerify (ofBE pub) (h.take 80) (slice h 176 96) then some 3
  else if Config.sha384 (storedRange img 1 (blocks - 1)) ≠ digestOf (slice h 32 48) ∨ leAt h 16 4 ≠ blocks then some 3
  else if leAt h 6 2 ≠ 0x6408 ∨ !bitOf (leAt h 8 1) d.dev.variant ∨ (bitOf (leAt h 9 1) 0 ∧ leAt h 24 8 ≠ d.dev.unitId) then some 4
  else none

/-- Every check of R455 on a session's image, in order. -/
def Dev.verifyImage (d : Dev) (img : Tbl Bytes) (x : Session) : Option Nat :=
  if Config.sha384 (storedRange img 0 x.blocks) ≠ x.digest then some 2 else d.imageCheck img x.blocks

/-- A slot holds an image that passes every check (R455); one that no IMAGE_OPEN brought has no digest to compare with (log entry 112). -/
def Dev.slotValid (d : Dev) (s : Nat) : Bool :=
  let img := d.upd.image s
  let n := leAt (flashBlock img 0) 16 4
  decide (2 ≤ n) && decide (n ≤ 6144) && (tget d.upd.digests s).elim true (fun h => Config.sha384 (storedRange img 0 n) == h) && (d.imageCheck img n).isNone

/-- The header VERSION of a slot, 0 when invalid (R469). -/
def Dev.slotVersion (d : Dev) (s : Nat) : Nat := if d.slotValid s then leAt (flashBlock (d.upd.image s) 0) 12 4 else 0

/-- The device runs a slot. -/
def Dev.runSlot (d : Dev) (s : Nat) : Dev :=
  let fwVersion := d.slotVersion s
  { d with dev := { d.dev with slot := s, fwVersion } }

/-! ### Settings (R453; log entry 41) -/

/-- The settings as they stand. -/
def Dev.settingsNow (d : Dev) : Settings :=
  { ring := d.recd.set.ring,
    trees := (d.trees.filter (fun e => e.2.attach ≠ .detached)).map (fun e => (e.1, e.2.sealed)),
    links := ((d.tow.links.zip (List.range 8)).filter (fun e => e.1.state ≠ .disabled || d.tow.quieted.contains e.2)).map (fun e => (e.2, e.1.cost)),
    align := d.tow.align, alignWait := d.tow.alignWait }

/-- The entries of a table as a slot's copy keeps them: those that changed from `old` to `new` as they are now, the others as they were. -/
def mergeTbl [BEq α] (copy old new : Tbl α) : Tbl α :=
  let keys := sortBy (fun a b => decide (a ≤ b)) (tkeys copy ++ (tkeys new).filter (fun k => !(tkeys copy).contains k))
  keys.filterMap (fun k => (if tget old k == tget new k then tget copy k else tget new k).map (fun v => (k, v)))

/-- A slot's copy takes the settings that changed. -/
def Settings.merge (copy old new : Settings) : Settings :=
  { ring := if old.ring = new.ring then copy.ring else new.ring,
    trees := mergeTbl copy.trees old.trees new.trees, links := mergeTbl copy.links old.links new.links,
    align := if old.align = new.align then copy.align else new.align,
    alignWait := if old.alignWait = new.alignWait then copy.alignWait else new.alignWait }

/-- The running slot's copy takes the settings that changed since it last did. It is never written in a pause (R461), and after a rollback it holds nothing of what
the trial changed, while the hardware keeps it (R462). -/
def Dev.persist (d : Dev) : Dev :=
  if d.upd.pause.elim false (fun p => p.begun) then d
  else
    let hw := d.settingsNow
    d.modUpd (fun u => { u.setSettings d.dev.slot ((u.settings d.dev.slot).merge u.hw hw) with hw })

/-! ### Sessions (R456 to R458) -/

/-- A frame of the management cores, requester 81: its flow, class and bytes. -/
def Dev.mgmtSend (d : Dev) (f : Nat × Nat × Bytes) : Dev :=
  d.enqueue { data := f.2.2, req := 81, version := 0, input := 0, port := 0, twinTag := none, copies := [(f.1, f.2.1)], now := 0 }

/-- The management cores submit no frame while back-pressure is in force (R184): it waits. -/
def Dev.mgmtSubmit (d : Dev) (f : Nat × Nat × Bytes) : Dev :=
  if d.backPressure then { d with upd := { d.upd with mgmtTx := d.upd.mgmtTx ++ [f] } } else d.mgmtSend f

/-- The frames that waited go once back-pressure has ended. -/
def Dev.mgmtBoundary (d : Dev) : Dev :=
  if d.backPressure then d
  else d.upd.mgmtTx.foldl Dev.mgmtSend { d with upd := { d.upd with mgmtTx := [] } }

/-- The answer to an agent: the mailbox response with STATUS before it, on the agent's reply flow. The manual gives neither its class nor its source
address: free values (log entry 42). -/
def Dev.inbandReply (d : Dev) (agent op : Nat) (st : Status) (resp : Bytes) : Dev :=
  match tget d.upd.agents agent with
  | none => d
  | some (addr, flow) =>
    let (src, d) := d.draw
    let (cls, d) := d.draw
    let data := be 6 addr ++ be 6 (src % 2 ^ 48) ++ be 2 0x88B5 ++ be 2 0x4C01 ++ be 2 op ++ le 1 st.code ++ (if st = .ok then resp else [])
    d.mgmtSubmit (flow, cls % 8, data)

/-- The answer to the host or to an agent: source 0 is the host, sources 1 to 4 are agents 0 to 3. -/
def Dev.imgAnswer (d : Dev) (src op : Nat) (ref : Option CmdRef) (st : Status) (resp : Bytes) : Dev :=
  match ref with
  | some r => d.complete r st resp
  | none => d.inbandReply (src - 1) op st resp

/-- A session ends; the event carries the last RESULT. -/
def Dev.endSession (d : Dev) : Dev := (d.modUpd (fun u => { u with session := none })).raise 0x3C1 (le 1 d.upd.result)

/-- Ticks of 72 hours (R457). -/
def idleLimit : Nat := 72 * 3600 * Config.ticksPerSecond

/-- The response to IMAGE_OPEN (R467). -/
def openResp (slot role received : Nat) : Bytes := le 1 slot ++ le 1 role ++ le 2 0 ++ le 4 received

/-- A source joins the session. -/
def Dev.joinSession (d : Dev) (x : Session) (src : Nat) (ref : Option CmdRef) : Dev :=
  let role := if src = x.owner then 0 else 1
  let parties := if x.parties.contains src then x.parties else src :: x.parties
  let d := d.modUpd (fun u => { u with session := some { x with parties, idle := 0 } })
  (d.raise 0x3C0 (le 1 src ++ le 1 role)).imgAnswer src 0x0C01 ref .ok (openResp d.otherSlot role x.received.length)

/-- A session opens: the sectors of its blocks are erased (R457). -/
def Dev.openSession (d : Dev) (o : ImgOffer) : Dev :=
  let s := d.otherSlot
  let erased := (d.upd.image s).filter (fun e => decide (ceilDiv o.blocks 16 * 16 ≤ e.1))
  let x : Session :=
    { digest := o.digest, blocks := o.blocks, owner := o.src, parties := [o.src], received := [], persisted := [], idle := 0, state := .receiving }
  let d := d.modUpd (fun u => { u.setImage s erased with session := some x, digests := tset u.digests s o.digest })
  (d.raise 0x3C0 (le 1 o.src ++ le 1 0)).imgAnswer o.src 0x0C01 o.ref .ok (openResp s 0 0)

/-- IMAGE_OPEN OP 0 (R457, R467); where no session is open it waits for the end of the tick. -/
def imageOpen (src : Nat) (ref : Option CmdRef) (r : ImageOpenReq) (d : Dev) : Dev :=
  let range := decide (2 ≤ r.blocks) && decide (r.blocks ≤ 6144)
  let wait (d : Dev) : Dev := d.modUpd (fun u => { u with offers := u.offers ++ [{ src, ref, blocks := r.blocks, digest := r.digest }] })
  let idle := d.upd.session.elim 0 (fun x => x.idle)
  -- an IMAGE_OPEN of a party ends the idle time, however it is answered (R457)
  let d := d.modUpd (fun u => { u with session := u.session.map (fun x => if x.parties.contains src then { x with idle := 0 } else x) })
  let answer (st : Status) : Dev := d.imgAnswer src 0x0C01 ref st []
  if d.upd.trial.isSome then answer .busy
  else
    match d.upd.session with
    | some x =>
      if x.digest = r.digest then
        if !range ∨ r.blocks ≠ x.blocks then answer .invalid
        else if d.sec.lifecycle = .decommissioned then answer .denied
        else d.joinSession x src ref
      else if idle ≤ idleLimit then answer .busy
      else if !range then answer .invalid
      else if d.sec.lifecycle = .decommissioned then answer .denied
      else wait d.endSession
    | none =>
      if !range then answer .invalid
      else if d.sec.lifecycle = .decommissioned then answer .denied
      else wait d
def execImageOpen (ctx : Nat) (r : ImageOpenReq) (s : State) : Host.Outcome State Fault Refusal :=
  s.onDev (·.mailbox ctx 0x0C01 (fun ref => imageOpen 0 (some ref) r))

/-- The offers of the tick that has ended, R9 by source; the first opens, those of its digest join, the others lose (R457). -/
def Dev.offersBoundary (d : Dev) : Dev :=
  let os := tieOrder (d.now - 1) (fun (o : ImgOffer) => o.src) d.upd.offers
  os.foldl (fun (d : Dev) o =>
    match d.upd.session with
    | none => d.openSession o
    | some x =>
      if x.digest = o.digest then
        if o.blocks ≠ x.blocks then d.imgAnswer o.src 0x0C01 o.ref .invalid [] else d.joinSession x o.src o.ref
      else d.imgAnswer o.src 0x0C01 o.ref .busy []) (d.modUpd (fun u => { u with offers := [] }))

/-- IMAGE_OPEN OP 1 (R456, R467). -/
def imageAgent (r : AgentReq) (ref : CmdRef) (d : Dev) : Dev :=
  if 3 < r.agent ∨ (r.enable ∧ 131071 < r.replyFlow) then d.complete ref .invalid
  else if d.sec.lifecycle = .decommissioned then d.complete ref .denied
  else
    (d.modUpd (fun u => { u with agents := if r.enable then tset u.agents r.agent (r.addr, r.replyFlow) else tdel u.agents r.agent })).complete ref .ok
def execImageOpenAgent (ctx : Nat) (r : AgentReq) (s : State) : Host.Outcome State Fault Refusal := s.onDev (·.mailbox ctx 0x0C01 (imageAgent r))

/-- A block is programmed and its bit set; the bitmap is persisted after 64 new bits; the last bit starts verification (R458). -/
def Session.took (x : Session) (i : Nat) : Session :=
  let received := i :: x.received
  { x with received, persisted := if 64 ≤ received.length - x.persisted.length then received else x.persisted,
           state := if received.length = x.blocks then .verifying else x.state }

/-- A status the manual does not state: a free value (log entry 42). -/
def Dev.freeStatus (d : Dev) : Status × Dev :=
  let (n, d) := d.draw
  (([.ok, .busy, .invalid, .noResource, .denied, .notAdmitted, .version, .settingsIncompatible, .tampered][n % 9]?).getD .invalid, d)

/-- IMAGE_BLOCK (R458, R468); `fails` is how often programming fails. A second failure ends the session; the manual gives that command no status. -/
def imageBlock (src : Nat) (r : ImageBlockReq) (d : Dev) : Status × Bytes × Dev :=
  match d.upd.session with
  | none => (.invalid, [], d)
  | some x =>
    if !x.parties.contains src then (.invalid, [], d)
    else
      let d := d.modUpd (fun u => { u with session := some { x with idle := 0 } })
      if x.blocks ≤ r.index then (.invalid, [], d)
      else if !blockFits r.block then (.invalid, [], d.countDev .updBlockCrc)
      else if x.received.contains r.index then (.ok, le 4 x.received.length ++ le 1 1 ++ zeros 3, d)
      else if 2 ≤ r.flashFails then
        let d := (d.modUpd (fun u => { u with result := 10 })).endSession.raise 0x3C8 (le 4 r.index)
        let (st, d) := d.freeStatus
        (st, le 4 x.received.length ++ zeros 4, d)
      else
        let y := { x with idle := 0 }.took r.index
        let d := d.modUpd (fun u => { u.setImage d.otherSlot (tset (u.image d.otherSlot) r.index r.block) with session := some y })
        (.ok, le 4 y.received.length ++ zeros 4, d)
def execImageBlock (ctx : Nat) (r : ImageBlockReq) (s : State) : Host.Outcome State Fault Refusal :=
  s.onDev (·.mailboxDma ctx 0x0C02 (fun ref d => let x := imageBlock 0 r d; x.2.2.complete ref x.1 x.2.1))

/-- IMAGE_VERIFY_DONE (R455, R458): the session becomes READY with RESULT 1, or ends with the RESULT of the first check that fails. -/
def imageVerifyDone (d : Dev) : Dev :=
  match d.upd.session with
  | none => d
  | some x =>
    if x.state ≠ .verifying then d
    else
      match d.verifyImage (d.upd.image d.otherSlot) x with
      | none => (d.modUpd (fun u => { u with session := some { x with state := .ready }, result := 1 })).raise 0x3C2 (le 1 1)
      | some e => (d.modUpd (fun u => { u with result := e })).endSession.raise 0x3C2 (le 1 e)
def execImageVerifyDone (s : State) : Host.Outcome State Fault Refusal := s.onDev imageVerifyDone

/-- BITMAP_PERSIST (R458): a second has passed without a block. -/
def bitmapPersist (d : Dev) : Dev :=
  match d.upd.session with
  | none => d
  | some x =>
    if x.idle < Config.ticksPerSecond then d else d.modUpd (fun u => { u with session := some { x with persisted := x.received } })
def execBitmapPersist (s : State) : Host.Outcome State Fault Refusal := s.onDev bitmapPersist

/-- The session after a reset (R457, R458): each block whose persisted bit is clear is read from flash; idle time as persisted each minute. -/
def Session.afterReset (x : Session) (img : Tbl Bytes) : Session × Tbl Bytes :=
  let clear := (List.range x.blocks).filter (fun i => !x.persisted.contains i)
  let bad := clear.filter (fun i => (tget img i).elim false (fun b => !blockFits b))
  let sector (i : Nat) : Bool := bad.any (fun b => b / 16 == i / 16)
  let good := clear.filter (fun i => (tget img i).elim false blockFits)
  let received := (good ++ x.persisted).filter (fun i => !sector i)
  let minute := 60 * Config.ticksPerSecond
  ({ x with received, persisted := received, idle := x.idle / minute * minute,
            state := if received.length = x.blocks then .verifying else .receiving }, img.filter (fun e => !sector e.1))

/-- STATE of IMAGE_STATUS (R469). -/
def Update.stateCode (u : Update) : Nat :=
  if u.pause.elim false (fun p => p.begun) then 4
  else if u.trial.isSome then 5
  else u.session.elim 0 (fun x => match x.state with | .receiving => 1 | .verifying => 2 | .ready => 3)

/-- Ticks of a trial: 10 minutes (R462). -/
def trialTicks : Nat := 4800000

/-- The IMAGE_STATUS response (R469). -/
def imageStatusResp (d : Dev) : Bytes :=
  let u := d.upd
  let x := u.session
  le 1 u.stateCode ++ le 1 u.result ++ le 1 d.dev.slot ++ le 1 u.bootSlot ++ le 1 (x.elim 0xFF (·.owner)) ++
    le 1 (x.elim 0 (fun x => sumOf (x.parties.map (2 ^ ·)))) ++ le 2 0 ++ le 4 (x.elim 0 (·.blocks)) ++ le 4 (x.elim 0 (·.received.length)) ++
    le 4 (x.elim 0 (fun x => x.idle / (60 * Config.ticksPerSecond))) ++ le 4 (u.trial.elim 0 (fun p => p + trialTicks - d.now)) ++
    le 4 (d.slotVersion 0) ++ le 4 (d.slotVersion 1) ++ be 48 (x.elim 0 (fun x => x.digest.toNat))
def execImageStatus (ctx : Nat) (s : State) : Host.Outcome State Fault Refusal :=
  s.onDev (·.mailbox ctx 0x0C03 (fun ref d => d.complete ref .ok (imageStatusResp d)))

/-- IMAGE_ABORT OP 0 (R457, R470): the host ends any session, an agent only one that it owns. -/
def abortSession (src : Nat) (d : Dev) : Status × Dev :=
  match d.upd.session with
  | none => (.denied, d)
  | some x => if src = 0 ∨ src = x.owner then (.ok, d.endSession) else (.denied, d)
def execImageAbortSession (ctx : Nat) (s : State) : Host.Outcome State Fault Refusal :=
  s.onDev (·.mailbox ctx 0x0C06 (fun ref d => let x := abortSession 0 d; x.2.complete ref x.1))

/-! ### Activation, trial, rollback (R459 to R462) -/

/-- What makes IMAGE_ACTIVATE complete BUSY (R459). -/
def Dev.activateBusy (d : Dev) (ref : CmdRef) : Bool :=
  d.host.results.any (fun r => r.ref.ctx != ref.ctx && r.status.isNone) ||
    d.sec.keys.any (fun e => e.2.rekey.isSome) || !d.sec.rekeyPend.isEmpty || !d.sec.mass.isEmpty ||
    d.cls.slots.any (fun v => v.building.isSome) || d.prot.ports.any (fun e => e.2.drill.isSome) || !d.upl.retrains.isEmpty ||
    d.tow.links.any (fun l => l.profiled && (l.state = .training || l.state = .backoff || l.wakeReq)) ||
    d.sluice.held.any (fun h => h.ended.elim true (fun e =>
      match h.op with
      | .quietWindow _ _ => decide (d.now ≤ e)
      | _ => decide (d.now < e)))

/-- IMAGE_ACTIVATE (R459): the pause begins at the next boundary. -/
def imageActivate (ref : CmdRef) (d : Dev) : Dev :=
  if d.upd.trial.isSome ∨ !d.upd.session.elim false (fun x => decide (x.state = .ready)) then d.complete ref .denied
  else if d.activateBusy ref then d.complete ref .busy
  else d.modUpd (fun u => { u with pause := some { why := .activate ref, p := d.now + 1, begun := false } })
def execImageActivate (ctx : Nat) (s : State) : Host.Outcome State Fault Refusal := s.onDev (·.mailbox ctx 0x0C04 imageActivate)

/-- A pause at its boundary P (R459, R472): the record carries the slot handed to. -/
def Dev.pauseBoundary (d : Dev) : Dev :=
  match d.upd.pause with
  | none => d
  | some p =>
    if p.begun ∨ d.now < p.p then d
    else
      ({ d with upd := { d.upd with pause := some { p with begun := true, at_ := d.clk 0 } }, host := { d.host with pause := true } }).raise 0x3C3 (le 1 d.otherSlot)

/-- Microseconds of a pause that ends at clock `now`. -/
def Dev.pauseUs (d : Dev) (p : Pause) (now : Nat) : Nat := (d.clk now - p.at_) / Config.clocksPerMicrosecond

/-- A pause ends: PAUSE clears and staged records may be delivered. -/
def Dev.endPause (d : Dev) (p : Pause) (now : Nat) : Dev :=
  ({ d with upd := { d.upd with pause := none }, host := { d.host with pause := false } }).raise 0x3C4 (le 4 (d.pauseUs p now))

/-- The response of IMAGE_ACTIVATE (R470). -/
def activateResp (p us slot : Nat) : Bytes := fromResp p ++ le 4 us ++ le 1 slot ++ zeros 3

/-- PAUSE_END (R461): the new image has read the settings and enters TRIAL; or it cannot, and hands back to the old slot in a second pause. -/
def pauseEnd (readable : Bool) (now : Nat) (d : Dev) : Dev :=
  match d.upd.pause with
  | none => d
  | some p =>
    match p.why with
    | .activate ref =>
      if !p.begun then d
      else if readable then
        let new := d.otherSlot
        let d := d.modUpd (fun u => { u.setSettings new (u.settings d.dev.slot) with trial := some p.p })
        ((d.runSlot new).endPause p now).complete ref .ok (activateResp p.p (d.pauseUs p now) new)
      else
        (d.modUpd (fun u => { u with pause := some { p with why := .handBack ref }, result := 7 })).raise 0x3C5
    | _ => d
def execPauseEnd (readable : Bool) (now : Nat) (s : State) : Host.Outcome State Fault Refusal := s.onBoth (fun d mem => takeRung (pauseEnd readable now d) mem)

/-- The trial ends in a rollback (R462), whose pause begins at the next boundary. -/
def Dev.rollback (d : Dev) (result : Nat) (ref : Option CmdRef) : Dev :=
  (d.modUpd (fun u => { u with trial := none, result, pause := some { why := .rollback ref, p := d.now + 1, begun := false } })).raise 0x3C7 (le 1 result)

/-- ROLLBACK_PAUSE_END (R461, R462): the old slot runs, and the activation or the command that asked for the rollback completes. -/
def rollbackPauseEnd (now : Nat) (d : Dev) : Dev :=
  match d.upd.pause with
  | none => d
  | some p =>
    if !p.begun then d
    else
      match p.why with
      | .activate _ => d
      | .handBack ref => (d.endPause p now).answer ref .settingsIncompatible (activateResp p.p (d.pauseUs p now) d.dev.slot)
      | .rollback ref =>
        let d := (d.runSlot d.otherSlot).endPause p now
        ({ d with host := { d.host with fatal := false } }).completeOpt ref .ok
def execRollbackPauseEnd (now : Nat) (s : State) : Host.Outcome State Fault Refusal := s.onBoth (fun d mem => takeRung (rollbackPauseEnd now d) mem)

/-- IMAGE_COMMIT (R462, R470): the session ends with its image committed. -/
def imageCommit (ref : CmdRef) (d : Dev) : Dev :=
  match d.upd.trial with
  | none => d.complete ref .denied
  | some p =>
    if p + trialTicks < d.now then d.complete ref .denied
    else
      let d := d.modUpd (fun u => { u with trial := none, bootSlot := d.dev.slot, result := 1 })
      let d := if d.upd.session.isSome then d.endSession else d
      (d.raise 0x3C6 (le 1 d.dev.slot)).complete ref .ok (le 1 d.upd.bootSlot)
def execImageCommit (ctx : Nat) (s : State) : Host.Outcome State Fault Refusal := s.onDev (·.mailbox ctx 0x0C05 imageCommit)

/-- IMAGE_ABORT OP 1 (R462, R470). -/
def abortRollback (ref : CmdRef) (d : Dev) : Dev := if d.upd.trial.isNone then d.complete ref .denied else d.rollback 8 (some ref)
def execImageAbortRollback (ctx : Nat) (s : State) : Host.Outcome State Fault Refusal := s.onDev (·.mailbox ctx 0x0C06 abortRollback)

/-- TRIAL_EXPIRY (R462): the deadline is reached. -/
def trialExpiry (d : Dev) : Dev := if d.upd.trial.elim false (fun p => decide (p + trialTicks ≤ d.now)) then d.rollback 5 none else d
def execTrialExpiry (s : State) : Host.Outcome State Fault Refusal := s.onDev trialExpiry

/-! ### In-band agents (R456) -/

/-- A frame of an agent: its request is served as from source `a + 1`. -/
def Dev.serveAgent (d : Dev) (a op : Nat) (body : Bytes) (flashFails : Nat) : Dev :=
  let answer (r : Status × Bytes × Dev) : Dev := r.2.2.inbandReply a op r.1 r.2.1
  match op with
  | 0x0C01 =>
    if body.length < 64 ∨ 1 < leAt body 0 1 then answer (.invalid, [], d)
    else if leAt body 0 1 = 1 then answer (.denied, [], d)
    else imageOpen (a + 1) none { blocks := leAt body 4 4, digest := digestOf (slice body 16 48) } d
  | 0x0C02 =>
    if body.length < 8 + 4096 then answer (.invalid, [], d)
    else answer (imageBlock (a + 1) { index := leAt body 0 4, block := slice body 8 4096, flashFails } d)
  | 0x0C03 => answer (.ok, imageStatusResp d, d)
  | _ =>
    if body.length < 1 ∨ 1 < leAt body 0 1 then answer (.invalid, [], d)
    else if leAt body 0 1 = 0 then let r := abortSession (a + 1) d; answer (r.1, [], r.2)
    else if d.upd.trial.isNone ∨ !d.upd.session.elim false (fun x => x.owner == a + 1) then answer (.denied, [], d)
    else (d.inbandReply a op .ok []).rollback 8 none

/-- INBAND_FRAME_RX (R456): the oldest frame that the classifier sent to the management cores; it waits in its queue during a pause. -/
def inbandFrame (flashFails : Nat) (d : Dev) : Dev :=
  if !d.host.ready ∨ d.host.fatal ∨ d.upd.pause.isSome then d
  else
    match takeFirst (fun e => e.1 == 0xFF) d.cls.redirects with
    | none => d
    | some (e, rest) =>
      let d := { d with cls := { d.cls with redirects := rest } }
      let l := e.2.data
      let (typ, o) := afterTags l (l.length / 4 + 1) 12
      if typ ≠ 0x88B5 ∨ beAt l (o + 2) 2 ≠ 0x4C01 then d
      else
        let addr := beAt l 6 6
        let op := beAt l (o + 4) 2
        match d.upd.agents.find? (fun a => a.2.1 == addr) with
        | some (a, _) =>
          if [0x0C01, 0x0C02, 0x0C03, 0x0C06].contains op then d.serveAgent a op (l.drop (o + 6)) flashFails
          else d.raiseFirst 0x3C9 (le 4 (addr % 2 ^ 32))
        | none => d.raiseFirst 0x3C9 (le 4 (addr % 2 ^ 32))
def execInbandFrameRx (flashFails : Nat) (s : State) : Host.Outcome State Fault Refusal := s.onDev (inbandFrame flashFails)

/-! ### Terminal software (R463 to R466, R471) -/

def Push.pieces (p : Push) : Nat := ceilDiv p.len 1000
def Push.running (p : Push) : Bool := p.state == 1

/-- The response of TERMINAL_IMAGE_PUSH (R471). -/
def Push.resp (p : Push) : Bytes :=
  le 2 p.id ++ le 1 p.state ++ le 1 p.round ++ le 4 0 ++ (List.range 256).flatMap (fun i => le 1 (tgetD p.targets i (0, [])).1)

def Push.empty : Push :=
  { id := 0, ref := none, state := 0, round := 0, perFrame := 1, rounds := 1, len := 0, digest := 0, image := [], targets := [], flows := [],
    left := [], answers := [], deadline := none }
def Dev.push (d : Dev) (t : Nat) : Push := tgetD d.upd.pushes t Push.empty
def Dev.modPush (d : Dev) (t : Nat) (f : Push → Push) : Dev := d.modUpd (fun u => { u with pushes := tmod u.pushes t f })

/-- TSW_PIECE of a piece (R463). -/
def Push.piece (p : Push) (i : Nat) : LockMsg :=
  { lockMsg 0xFFFF 0x61 0 (be 2 p.id ++ be 2 i ++ slice p.image (i * 1000) (if i + 1 < p.pieces then 1000 else p.len - 1000 * i)) none [] .plain .other 0 0 with
    rank := 5 }

/-- A push ends: START completes (R464, R471). -/
def Dev.endPush (d : Dev) (t state : Nat) : Dev :=
  let d := d.modPush t (fun p => { p with state, left := [], deadline := none })
  let p := d.push t
  let d := d.modPush t (fun p => { p with ref := none })
  (d.raise 0x3CA (le 1 t ++ le 1 state)).completeOpt p.ref .ok p.resp

/-- A target's state changes (R472). -/
def Dev.setTarget (d : Dev) (t id code : Nat) : Dev :=
  match tget (d.push t).targets id with
  | none => d
  | some (c, l) =>
    if c = code then d
    else (d.modPush t (fun p => { p with targets := tset p.targets id (code, l) })).raise 0x3CB (le 1 code) 0 false (globalIndex t id)

/-- A target with this state code of R471 is complete: 2, or 6 once activated. -/
def codeDone (code : Nat) : Bool := code == 2 || code == 6

/-- The pieces that a target still lacks, ascending. -/
def Push.lacking (p : Push) : List Nat :=
  (List.range p.pieces).filter (fun i => p.targets.any (fun x => !codeDone x.2.1 && x.2.2.contains i))

/-- The pieces of a round have been sent: TSW_QUERY to every target that is not complete, 64 ticks to answer (R464). -/
def Dev.pushQuery (d : Dev) (t : Nat) : Dev :=
  let p := d.push t
  if !p.running ∨ !p.left.isEmpty ∨ p.deadline.isSome then d
  else
    let ids := (p.targets.filter (fun x => !codeDone x.2.1)).map (·.1)
    let d := ids.foldl (fun (d : Dev) id => d.modTree t (fun x => x.queueMsg
      (lockMsg id 0x62 2 (be 2 p.id ++ be 1 p.round ++ be 1 0) none [] .plain .other 0 (d.now + 1)))) d
    d.modPush t (fun p => { p with answers := [], deadline := some (d.now + 1 + 64) })

/-- Every target is complete. -/
def Push.allDone (p : Push) : Bool := p.targets.all (fun x => codeDone x.2.1)

/-- START's targets by id. -/
def pushIds (r : PushReq) : List Nat := (List.range 256).filter (fun i => bitOf r.mask i)

/-- A target may be pushed to: in service or dozing, its report flow bound to it (R464, R471). -/
def Dev.pushTargetOk (d : Dev) (t id flow : Nat) : Bool :=
  ((d.tree t).byId id).elim false (fun x => x.state == .inService || x.state == .dozing) &&
    (d.flow flow).elim false (fun f => f.dir == 1 && f.tree == t && f.id == id && f.bound.isSome && !f.unbound)

/-- TERMINAL_IMAGE_PUSH START (R464, R471): dozing targets are woken, then each target gets TSW_OFFER. -/
def pushStart (r : PushReq) (ref : CmdRef) (d : Dev) : Dev :=
  let t := r.tree
  if (d.push t).running then d.answer ref .busy (d.push t).resp
  else if !d.treeUp t ∨ r.perFrame = 0 ∨ 8 < r.perFrame ∨ r.rounds = 0 ∨ 16 < r.rounds ∨ r.len = 0 ∨ 65535000 < r.len ∨
      (pushIds r).any (fun i => !d.pushTargetOk t i (lget r.reportFlows i 0)) then d.answer ref .invalid (d.push t).resp
  else
    let n := ceilDiv r.len 1000
    let all := List.range n
    let p : Push :=
      { id := d.upd.nextPush, ref := some ref, state := 1, round := 1, perFrame := r.perFrame, rounds := r.rounds, len := r.len, digest := r.digest,
        image := r.image, targets := (pushIds r).map (fun i => (i, (1, all))), flows := (pushIds r).map (fun i => (i, lget r.reportFlows i 0)), left := all,
        answers := [], deadline := none }
    let d := d.modUpd (fun u => { u with nextPush := (u.nextPush + 1) % 65536, pushes := tset u.pushes t p })
    let d := (pushIds r).foldl (fun (d : Dev) i =>
      match (d.tree t).byId i with
      | none => d
      | some x =>
        let d := if x.state = .dozing then d.endDoze t x else d
        let at_ := (((d.tree t).byId i).bind (fun y => y.doze.bind (·.endAt))).getD (d.now + 1)
        d.modTree t (fun y => y.queueMsg
          (lockMsg i 0x60 2 (be 2 p.id ++ be 2 n ++ be 4 r.len ++ be 4 (lget r.reportFlows i 0) ++ be 48 r.digest.toNat) none [] .plain .other 0 at_))) d
    if p.allDone then d.endPush t 2 else d
def execTerminalImagePushStart (ctx : Nat) (r : PushReq) (s : State) : Host.Outcome State Fault Refusal := s.onDev (·.mailbox ctx 0x0C07 (pushStart r))

/-- TERMINAL_IMAGE_PUSH STATUS. -/
def pushStatus (t : Nat) (ref : CmdRef) (d : Dev) : Dev :=
  if !d.treePresent t then d.answer ref .invalid (d.push t).resp else d.complete ref .ok (d.push t).resp
def execTerminalImagePushStatus (ctx tree : Nat) (s : State) : Host.Outcome State Fault Refusal := s.onDev (·.mailbox ctx 0x0C07 (pushStatus tree))

/-- TERMINAL_IMAGE_PUSH CANCEL acts on the push in progress or the last one (R471; log entry 107): each target is told to discard its pieces, and a
running push ends. -/
def pushCancel (t : Nat) (ref : CmdRef) (d : Dev) : Dev :=
  if !d.treePresent t then d.answer ref .invalid (d.push t).resp
  else
    let running := (d.push t).running
    let d := (tkeys (d.push t).targets).foldl (fun (d : Dev) i => d.modTree t (fun x => x.queueMsg
      (lockMsg i 0x64 2 (be 2 (d.push t).id) none [] .plain .other 0 (d.now + 1)))) d
    let d := if running then d.endPush t 3 else d
    d.complete ref .ok (d.push t).resp
def execTerminalImagePushCancel (ctx tree : Nat) (s : State) : Host.Outcome State Fault Refusal := s.onDev (·.mailbox ctx 0x0C07 (pushCancel tree))

/-- TERMINAL_IMAGE_PUSH ACTIVATE: TSW_ACTIVATE, with its shared tick, to each complete terminal. -/
def pushActivate (t at_ : Nat) (ref : CmdRef) (d : Dev) : Dev :=
  if !d.treePresent t then d.answer ref .invalid (d.push t).resp
  else
    let p := d.push t
    let d := ((p.targets.filter (fun x => x.2.1 == 2)).map (·.1)).foldl (fun (d : Dev) i => d.modTree t (fun x => x.queueMsg
      (lockMsg i 0x63 2 (be 2 p.id) (some at_) [] .shared .tswActivate 0 (d.now + 1)))) d
    d.complete ref .ok p.resp
def execTerminalImagePushActivate (ctx tree at_ : Nat) (s : State) : Host.Outcome State Fault Refusal :=
  s.onDev (·.mailbox ctx 0x0C07 (pushActivate tree at_))

/-- The ranges of missing pieces of a report; with 64 ranges everything from the start of the last is missing (R465). -/
def reportMissing (b : Bytes) (pieces : Nat) : List Nat :=
  let n := beAt b 4 1
  let ranges := (List.range n).map (fun k => (beAt b (8 + 4 * k) 2, beAt b (10 + 4 * k) 2))
  (List.range pieces).filter (fun i =>
    ranges.any (fun r => decide (r.1 ≤ i) && decide (i < r.1 + r.2)) || (n == 64 && (ranges.getLast?).elim false (fun r => decide (r.1 ≤ i))))

/-- State code of R471 for a terminal's STATE of R465: a terminal without space counts as refused. -/
def reportCode (s : Nat) : Nat := match s with | 0 => 1 | 1 => 2 | 2 => 3 | _ => 4

/-- TSW_REPORT_RX (R464, R465): the oldest report released by the cipher, taken by Adesa. -/
def tswReport (d : Dev) : Dev :=
  match takeFirst (fun u => d.isReport u) d.sec.released with
  | none => d
  | some (u, rest) =>
    let d := { d with sec := { d.sec with released := rest } }
    let t := u.tree
    let p := d.push t
    let b := u.frame
    if !p.running ∨ beAt b 0 2 ≠ p.id ∨ beAt b 2 1 ≠ p.round ∨ p.deadline.isNone ∨ 4 < beAt b 3 1 ∨ 64 < beAt b 4 1 ∨
      (tgetD p.targets u.tid (0, [])).1 = 6 then d
    else
      let code := reportCode (beAt b 3 1)
      let d := d.setTarget t u.tid code
      let d := d.modPush t (fun p => { p with
        answers := u.tid :: p.answers,
        targets := tmod p.targets u.tid (fun x => (x.1, if code = 2 then [] else reportMissing b p.pieces)) })
      if (d.push t).allDone then d.endPush t 2 else d
def execTswReportRx (s : State) : Host.Outcome State Fault Refusal := s.onDev tswReport

/-- TSW_QUERY_TIMEOUT (R464): the 64 ticks of a round have passed; the next round, or the end. -/
def tswQueryTimeout (t : Nat) (d : Dev) : Dev :=
  let p := d.push t
  if !p.running ∨ !p.deadline.elim false (fun x => decide (x ≤ d.now)) then d
  else
    let silent := (p.targets.filter (fun x => !codeDone x.2.1 && !p.answers.contains x.1)).map (·.1)
    let d := silent.foldl (fun (d : Dev) id => d.setTarget t id 5) d
    if p.rounds ≤ p.round then d.endPush t 2
    else
      let d := d.modPush t (fun p => { p with round := p.round + 1, deadline := none, left := p.lacking })
      d.pushQuery t
def execTswQueryTimeout (tree : Nat) (s : State) : Host.Outcome State Fault Refusal := s.onDev (tswQueryTimeout tree)

end Sys2Proof.Machine
end

