-- ==== Sys2Proof/Machine/Power.lean ====
section
/-!
DEFINITION. Power states, Sluice, board profile, resets, debug port and debug module (chapter 21), and the doze policy of a terminal.
-/
namespace Sys2Proof.Machine

/-! ### Doze policy (R142, R287) -/

/-- TERMINAL_DOZE_POLICY: on a tree of a protection group it is accepted without effect (R287). -/
def terminalDozePolicy (r : DozeReq) (ref : CmdRef) (d : Dev) : Dev :=
  if (d.port r.name.tree).isNone then dozePolicy r ref d
  else
    let t := r.name.tree
    let x := d.tree t
    let e := dozePolicy r ref d
    { e with trees := tset e.trees t x }
def execTerminalDozePolicy (ctx : Nat) (r : DozeReq) (s : State) : Host.Outcome State Fault Refusal := s.onDev (·.mailbox ctx 0x0304 (terminalDozePolicy r))

/-! ### Sluice (R492 to R496) -/

/-- An uplink whose board-profile MODE is not disabled. -/
def Dev.upEnabled (d : Dev) (u : Nat) : Bool := decide (u < d.uplinkCount) && (d.uplinkMode u).elim false (fun m => m != 0xFF)

/-- Tokens of the trees lit at this boundary; the receive lane of a protected port stays active while its transmit lane wakes. -/
def Dev.treeLoad (d : Dev) : Nat :=
  2 * (d.trees.filter (fun e => match e.2.lanes.state with
    | .lit => true
    | .standby => true
    | .waking _ _ => (d.port e.1).isSome
    | .idle => false)).length

/-- Tokens of the Towpath links TRAINING or UP; a link that is being woken still stands in the held tokens (R493). -/
def Dev.towLoad (d : Dev) : Nat :=
  2 * ((d.tow.links.zip (List.range 8)).filter (fun e => (e.1.state = .training || e.1.state = .up) &&
    !d.sluice.held.any (fun h => h.op == .wakeTowpath e.2))).length

/-- The base load L (R492). -/
def Dev.baseLoad (d : Dev) : Nat := 96 + d.treeLoad + 12 * (d.upl.lit.filter d.upEnabled).length + d.towLoad

/-- A held operation has ended before this boundary; the wake of an uplink is held for 1 s at most (R493). -/
def Dev.opOver (d : Dev) (h : HeldOp) : Bool :=
  h.ended.elim false (fun e => decide (e < d.now)) ||
    (match h.op with | .wakeUplink _ => decide (h.admitted + Config.ticksPerSecond ≤ d.now) | _ => false)

/-- Release the tokens of the operations that ended; a woken uplink counts as lit from here. Recompute L. -/
def Dev.sluiceRelease (d : Dev) : Dev :=
  let ended := d.sluice.held.filter d.opOver
  let woken := ended.filterMap (fun h => match h.op with | .wakeUplink u => some u | _ => none)
  let lit := d.upl.lit ++ (woken.filter (fun u => d.upEnabled u && !d.upl.lit.contains u && d.dev.power != .quiet && d.dev.power != .doze))
  let d := { d with sluice := { d.sluice with held := d.sluice.held.filter (fun h => !d.opOver h) }, upl := { d.upl with lit } }
  { d with sluice := { d.sluice with base := d.baseLoad } }

/-- The budgets requested since the last boundary (R494, R507): BUDGET_SHORT where the new B falls short. -/
def Dev.applyBudgets (d : Dev) : Dev :=
  let l := d.sluice.pend
  let d := { d with sluice := { d.sluice with pend := [] } }
  let d := l.foldl (fun (d : Dev) e =>
    ({ d with sluice := { d.sluice with budget := e.2.1, waitLimit := e.2.2.1, prio := e.2.2.2 } }).complete e.1 .ok) d
  let need := d.sluice.base + d.sluice.heldTokens + d.sluice.reserve
  if !l.isEmpty ∧ d.sluice.budget < need then d.raise 0x3A3 (le 2 d.sluice.budget ++ le 2 need) else d

/-- Free tokens. -/
def Dev.freeTokens (d : Dev) : Nat := d.sluice.budget - (d.sluice.base + d.sluice.heldTokens + d.sluice.reserve)

/-- The order of the FIFO at a boundary: priority, tick of the request, R9 on the index (R494). -/
def Sluice.order (s : Sluice) (c : Nat) (l : List SluiceReq) : List SluiceReq :=
  let prio (r : SluiceReq) : Nat := lget s.prio (r.op.code - 8) 3
  let idx (a b : SluiceReq) : Bool := if c % 2 = 0 then decide (a.index ≤ b.index) else decide (b.index ≤ a.index)
  sortBy (fun a b => decide (prio a < prio b) || (prio a == prio b && (decide (a.since < b.since) || (a.since == b.since && idx a b)))) l

/-- An uplink, or the service port as 8, is woken or retrained (R272, R493): its links drop and the entry of the profile comes into force. The
lanes of a port that it disables go to electrical idle at once (R492). -/
def Dev.admitUplink (d : Dev) (u : Nat) : Dev :=
  let ports := if u = 8 then [0xA4] else (List.range 4).map (fun k => 0x40 + 4 * u + k)
  let d := (ports.foldl (fun (d : Dev) p => d.setLink p false 0) d).applyEntry u
  let d := { d with upl := { d.upl with retrains := d.upl.retrains.filter (· != u) } }
  if u < 8 ∧ !d.upEnabled u then
    ({ d with upl := { d.upl with lit := d.upl.lit.filter (· != u) } }).endOp (fun o => o = HeavyOp.wakeUplink u)
  else d

/-- What an operation does at the boundary of its admission. -/
def Dev.startOp (d : Dev) (op : HeavyOp) : Dev :=
  match op with
  | .quietWindow _ _ => d
  | .wakeTree t => d.admitWake t
  | .wakeUplink u => d.admitUplink u
  | .wakeTowpath k => d.modLink k (fun l => { l.restart (d.clk 0) with wakeReq := false })
  | .recorderFlush id => d.admitFlush id
  | .massRekey job => d.admitMass job
  | .rulesetInstall _ => d
  | .tableRebuild job => d.admitRebuild job
  | .hbmRinse => d

/-- Admit one waiting request. -/
def Dev.admitReq (d : Dev) (r : SluiceReq) : Dev :=
  let held := d.sluice.held ++ [{ op := r.op, admitted := d.now, ended := none }]
  let d := { d with sluice := { d.sluice with
    fifo := d.sluice.fifo.filter (fun x => x.op != r.op), held, admitted := (d.sluice.admitted + 1) % 2 ^ 32 } }
  d.startOp r.op

/-- The FIFO of a boundary: no later request overtakes one that does not fit. -/
def Dev.admitFifo : List SluiceReq → Dev → Dev
  | [], d => d
  | r :: t, d => if d.freeTokens < r.op.cost then d else Dev.admitFifo t (d.admitReq r)

/-- Quiet windows decided at this boundary, given as (tree, Q, W): those not admitted are skipped. Answers the admitted ones. -/
def Dev.admitWindows (d : Dev) (ws : List (Nat × Nat × Nat)) : List (Nat × Nat × Nat) × Dev :=
  (tieOrder d.now (fun (w : Nat × Nat × Nat) => w.1) ws).foldl (fun (acc : List (Nat × Nat × Nat) × Dev) w =>
    let d := acc.2
    if d.freeTokens < 2 then
      (acc.1, (({ d with sluice := { d.sluice with refused := (d.sluice.refused + 1) % 2 ^ 32 } }).countTree w.1 .qwSkip).discEvent w.1 8 none)
    else
      let held := d.sluice.held ++ [{ op := .quietWindow w.1 w.2.1, admitted := d.now, ended := some (w.2.1 + w.2.2 - 1) }]
      (acc.1 ++ [w], { d with sluice := { d.sluice with held, admitted := (d.sluice.admitted + 1) % 2 ^ 32 } })) ([], d)

/-- SLUICE_ADMISSION (R494) of a boundary. -/
def Dev.sluiceAdmit (d : Dev) (ws : List (Nat × Nat × Nat)) : List (Nat × Nat × Nat) × Dev :=
  let d := d.sluiceRelease.applyBudgets
  let (got, d) := d.admitWindows ws
  if d.sluice.high then (got, d)
  else (got, d.admitFifo ((d.sluice.order d.now d.sluice.fifo).take 256))

/-- THERMAL_CHECK (R496): the junction temperature in 1/8 °C; the -XT's thresholds are 10 °C higher. -/
def Dev.thermal (d : Dev) (tj : Int) : Dev :=
  let x : Int := if d.dev.variant = 1 then 80 else 0
  let next (was : Bool) (set clear : Int) : Bool := if was then decide (clear + x ≤ tj) else decide (set + x ≤ tj)
  let warn := next d.sluice.warn 800 760
  let high := next d.sluice.high 840 800
  let was := d.sluice
  let d := { d with sluice := { d.sluice with tj, warn, high } }
  let d := if warn = was.warn then d else d.raise 0x3A4 (leInt 2 tj) 0 warn
  if high = was.high then d else d.raise 0x3A5 (leInt 2 tj) 0 high

/-- SLUICE_BUDGET_SET (R507): applied at the next boundary. -/
def sluiceBudget (r : BudgetReq) (ref : CmdRef) (d : Dev) : Dev :=
  if r.budget < 80 ∨ 480 < r.budget ∨ r.waitLimit = 0 ∨ 3600 < r.waitLimit ∨ r.prio.length ≠ 7 ∨ r.prio.any (fun p => decide (3 < p)) then
    d.complete ref .invalid
  else { d with sluice := { d.sluice with pend := d.sluice.pend ++ [(ref, r.budget, r.waitLimit, r.prio)] } }
def execSluiceBudgetSet (ctx : Nat) (r : BudgetReq) (s : State) : Host.Outcome State Fault Refusal := s.onDev (·.mailbox ctx 0x0105 (sluiceBudget r))

/-- SLUICE_STATUS (R508). -/
def sluiceStatusResp (d : Dev) : Bytes :=
  let s := d.sluice
  le 2 s.budget ++ le 2 s.base ++ le 2 s.heldTokens ++ le 2 s.reserve ++ le 2 s.fifo.length ++ leInt 2 s.tj ++ le 4 s.admitted ++ le 4 s.refused ++
    le 1 d.dev.power.code ++ zeros 3
def execSluiceStatus (ctx : Nat) (s : State) : Host.Outcome State Fault Refusal :=
  s.onDev (·.mailbox ctx 0x0106 (fun ref d => d.complete ref .ok (sluiceStatusResp d)))

/-- SLUICE_WAIT (R514): each request that has waited 1 s is reported once. -/
def sluiceWait (d : Dev) : Dev :=
  let due (r : SluiceReq) : Bool := !r.reported && decide (r.since + Config.ticksPerSecond ≤ d.now)
  let l := d.sluice.fifo.filter due
  let fifo := d.sluice.fifo.map (fun (r : SluiceReq) => if due r then { r with reported := true } else r)
  l.foldl (fun (d : Dev) r => d.raise 0x3A1 (le 1 r.index ++ le 1 r.op.code)) { d with sluice := { d.sluice with fifo } }
def execSluiceWait (s : State) : Host.Outcome State Fault Refusal := s.onDev sluiceWait

/-- What becomes of an operation that is not admitted within WAIT_LIMIT. -/
def Dev.dropOp (d : Dev) (r : SluiceReq) : Dev :=
  match r.op with
  | .quietWindow _ _ => d
  | .wakeTree t => d.endSeries t .notAdmitted
  | .wakeUplink u => { d with upl := { d.upl with retrains := d.upl.retrains.filter (· != u) } }
  | .wakeTowpath k => d.modLink k (fun l => { l with wakeReq := false })
  | .recorderFlush id => d.captureFail id
  | .massRekey job => ({ d with sec := { d.sec with mass := d.sec.mass.filter (fun m => m.job != job) } }).completeOpt r.ref .notAdmitted
  | .rulesetInstall slot => (d.modSlot slot (fun v => { v with building := none })).completeOpt r.ref .notAdmitted
  | .tableRebuild job =>
    let refs := (d.fdb.rebuilds.filter (fun x => x.job == job)).map (·.ref) ++ (d.fdb.flushes.filter (fun x => x.job == job)).map (·.ref)
    refs.foldl (fun (d : Dev) ref => d.complete ref .notAdmitted) (d.dropRebuild job)
  | .hbmRinse => d

/-- SLUICE_WAIT_LIMIT (R494): each request that has waited WAIT_LIMIT completes NOT_ADMITTED. -/
def sluiceWaitLimit (d : Dev) : Dev :=
  let due (r : SluiceReq) : Bool := decide (r.since + d.sluice.waitLimit * Config.ticksPerSecond ≤ d.now)
  let l := d.sluice.fifo.filter due
  let d := { d with sluice := { d.sluice with fifo := d.sluice.fifo.filter (fun r => !due r) } }
  l.foldl (fun (d : Dev) r => (d.notAdmitted r.index r.op.code).dropOp r) d
def execSluiceWaitLimit (s : State) : Host.Outcome State Fault Refusal := s.onDev sluiceWaitLimit

/-- HBM_RINSE_START (R493): every 24 hours and after a corrected error; it does not run in TRIM, nor while one waits or runs. -/
def rinseStart (d : Dev) : Dev :=
  let busy := d.sluice.fifo.any (fun r => r.op == .hbmRinse) || d.sluice.held.any (fun h => h.op == .hbmRinse && h.ended.isNone)
  if busy ∨ (d.dev.power ≠ .active) then d else (d.request .hbmRinse 14 none).1
def execHbmRinseStart (s : State) : Host.Outcome State Fault Refusal := s.onDev rinseStart

/-! ### Power states (R490, R491, R506) -/

/-- A core stops or goes on: DEBUG_HALT for each change (R514). -/
def Dev.haltEvent (d : Dev) (n : Nat) (halted : Bool) : Dev := d.raise 0x3A8 (le 1 n ++ le 1 (b2n halted)) 0 halted

/-- A change of power state that the table of R491 gives, its condition met. -/
def Dev.powerOk (d : Dev) (to_ : PowerState) : Bool :=
  match d.dev.power, to_ with
  | .active, .trim => !d.recd.set.run
  | .trim, .active => true
  | .active, .quiet | .trim, .quiet => d.trees.all (fun e => e.2.attach = .detached) && d.tow.attachWait.isEmpty
  | .quiet, .doze => true
  | .doze, .quiet | .doze, .active => true
  | .quiet, .active => true
  | _, _ => false

/-- Cores 1 to 3, those that debug has not halted. -/
def Dev.dozeCores (d : Dev) : List Nat := [1, 2, 3].filter (fun n => !(lget d.dbg.cores n CoreDebug.reset).halted)

/-- Uplinks drop their links and Towpath links go DISABLED; waiting wakes are withdrawn. -/
def Dev.goQuiet (d : Dev) : Dev :=
  let on := (List.range 8).filter (fun k => (d.link k).state ≠ .disabled || (d.link k).wakeReq)
  let isWake (o : HeavyOp) : Bool := match o with | .wakeUplink u => u != 8 | .wakeTowpath _ => true | _ => false
  let d := (d.withdrawOp isWake).endOp isWake
  let d := (List.range 32).foldl (fun (d : Dev) k => d.setLink (0x40 + k) false 0) d
  let d := (d.upl.retrains.filter (· != 8)).foldl Dev.applyEntry d
  let d := { d with upl := { d.upl with lit := [], retrains := d.upl.retrains.filter (· == 8) }, tow := { d.tow with quieted := on } }
  on.foldl (fun (d : Dev) k =>
    let up := (d.link k).up
    let d := d.modLink k (fun l => { l with state := .disabled, wakeReq := false, attempt := 1 })
    if up then d.linkDown k 0 else d) d

/-- Uplinks and Towpath links are woken as lane groups under Sluice. -/
def Dev.leaveQuiet (d : Dev) : Dev :=
  let d := ((List.range 8).filter d.upEnabled).foldl (fun (d : Dev) u => (d.request (.wakeUplink u) 9 none).1) d
  let on := d.tow.quieted
  (on.filter d.towEnabled).foldl (fun (d : Dev) k => (d.wakeLink k 9).1) { d with tow := { d.tow with quieted := [] } }

/-- The full HBM rinse does not run in TRIM, nor while the HBM is in self-refresh (R490, R493): one that waits is withdrawn, one that runs ends. -/
def Dev.stopRinse (d : Dev) : Dev := (d.withdrawOp (fun o => o = .hbmRinse)).endOp (fun o => o = .hbmRinse)

/-- What a change of power state does (R491). Outside QUIET an EXTEST is decoded as BYPASS (R500): the cells no longer drive. -/
def Dev.enterPower (d : Dev) (to_ : PowerState) : Dev :=
  let was := d.dev.power
  let cores := d.dozeCores
  let d : Dev := { d with dev := { d.dev with power := to_ }, dbg := { d.dbg with scanDriven := none } }
  let d : Dev := if was = .doze then cores.foldl (fun (d : Dev) n => d.haltEvent n false) d else d
  let d : Dev := match to_ with
    | .trim => d.stopRinse
    | .quiet => if was = .doze then d else d.stopRinse.goQuiet
    | .doze => cores.foldl (fun (d : Dev) n => d.haltEvent n true) d
    | .active => if was = .trim then d else d.leaveQuiet
    | .offVbat => d
  d.raise 0x3A0 (le 1 to_.code)

/-- The requested changes of a boundary. -/
def Dev.powerBoundary (d : Dev) : Dev :=
  let l := d.dev.powerPend
  l.foldl (fun (d : Dev) e =>
    if d.powerOk e.2 then (d.enterPower e.2).complete e.1 .ok (fromResp d.now) else d.complete e.1 .denied)
    { d with dev := { d.dev with powerPend := [] } }

/-- POWER_STATE_SET (R506): STATE 0 ACTIVE, 1 TRIM, 2 QUIET, 3 DOZE. -/
def powerStateSet (state : Nat) (ref : CmdRef) (d : Dev) : Dev :=
  match ([.active, .trim, .quiet, .doze] : List PowerState)[state]? with
  | none => d.complete ref .invalid
  | some p => { d with dev := { d.dev with powerPend := d.dev.powerPend ++ [(ref, p)] } }
def execPowerStateSet (ctx state : Nat) (s : State) : Host.Outcome State Fault Refusal := s.onDev (·.mailbox ctx 0x0104 (powerStateSet state))

/-! ### The board profile (R54, R55, R271, R391, R504, R505) -/

def allZero (l : Bytes) : Bool := l.all (fun b => b == 0)
/-- FORMAT, COUNT and CRC of a section whose entries begin at offset 16. -/
def sectionHead (b : Bytes) (count : Nat) : Bool := leAt b 0 2 == 1 && leAt b 2 2 == count && leAt b 12 4 == crc32c (b.drop 16)
/-- The tap rule and the ranges of R54. -/
def tapsOk (pre main post : Nat) : Bool :=
  decide (pre ≤ 15) && decide (1 ≤ main) && decide (main ≤ 63) && decide (post ≤ 31) && decide (pre + main + post ≤ 63) && decide (pre + post < main)

def treeEntryOk (e : Bytes) : Bool :=
  tapsOk (leAt e 0 1) (leAt e 1 1) (leAt e 2 1) && decide (leAt e 3 1 ≤ 31) && decide (leAt e 4 1 < 4) && allZero (slice e 5 3)
def treeSectionOk (b : Bytes) : Bool :=
  sectionHead b 64 && allZero (slice b 8 4) && (List.range 64).all (fun i => treeEntryOk (slice b (16 + 8 * i) 8))

/-- Lane `k` of an uplink or Towpath entry: used lanes keep the tap rule, the others are zero. -/
def laneOk (e : Bytes) (used k : Nat) : Bool :=
  if k < used then tapsOk (leAt e (4 + 3 * k) 1) (leAt e (5 + 3 * k) 1) (leAt e (6 + 3 * k) 1) && decide (leAt e (16 + k) 1 ≤ 31)
  else allZero (slice e (4 + 3 * k) 3) && leAt e (16 + k) 1 == 0 && !bitOf (leAt e 3 1) k && !bitOf (leAt e 3 1) (4 + k)
def lanesOk (e : Bytes) (used : Nat) : Bool := (List.range 4).all (laneOk e used) && allZero (slice e 20 4)

def uplinkEntryOk (i : Nat) (e : Bytes) : Bool :=
  let mode := leAt e 0 1
  let pmd := leAt e 1 1
  let flags := leAt e 2 1
  (if i = 8 then decide (mode ≤ 1) && pmd == 0 && lanesOk e 1
   else (decide (mode ≤ 1) || mode == 0xFF) && decide (pmd ≤ 2) && lanesOk e 4) &&
    decide (flags < 32) && (flags / 2 == 0 || (i != 8 && mode == 1))
def uplinkSectionOk (b : Bytes) : Bool :=
  sectionHead b 9 && allZero (slice b 4 8) && (List.range 9).all (fun i => uplinkEntryOk i (slice b (16 + 24 * i) 24))

def towpathEntryOk (e : Bytes) : Bool :=
  (leAt e 0 1 == 0 || leAt e 0 1 == 0xFF) && decide (leAt e 1 1 ≤ 1) && leAt e 2 1 == 0 && lanesOk e 2
def towpathSectionOk (b : Bytes) : Bool :=
  sectionHead b 8 && allZero (slice b 4 8) && (List.range 8).all (fun i => towpathEntryOk (slice b (16 + 24 * i) 24))

def systemSectionOk (b : Bytes) : Bool :=
  sectionHead b 1 && allZero (slice b 4 8) && decide (leAt b 16 1 ≤ 1) && decide (leAt b 17 1 ≤ 1) && allZero (slice b 18 2) && allZero (slice b 24 8)

/-- LENGTH of a section, and whether its bytes are valid. -/
def sectionLength (s : Nat) : Nat := lget [528, 232, 208, 32] s 0
def sectionOk (s : Nat) (b : Bytes) : Bool :=
  b.length == sectionLength s && (match s with | 0 => treeSectionOk b | 1 => uplinkSectionOk b | 2 => towpathSectionOk b | _ => systemSectionOk b)
def Profile.set (p : Profile) (s : Nat) (b : Bytes) : Profile :=
  match s with
  | 0 => { p with tree := some b }
  | 1 => { p with uplink := some b }
  | 2 => { p with towpath := some b }
  | _ => { p with system := some b }

/-- Entries of an uplink or Towpath section that differ. -/
def changedEntries (old : Option Bytes) (new : Bytes) (n : Nat) : List Nat :=
  (List.range n).filter (fun i => old.elim true (fun o => slice o (16 + 24 * i) 24 != slice new (16 + 24 * i) 24))

/-- A changed uplink entry is applied by retraining its port, which Sluice admits (R272); in QUIET and DOZE no lane of an uplink is lit, and the entry is
in force at once. The service port, entry 8, is retrained like an uplink (log entry 90), in QUIET and DOZE too, where its link may be up (log entry 65). -/
def Dev.retrainUplinks (d : Dev) (l : List Nat) (index : Nat) : Dev :=
  l.foldl (fun (d : Dev) i =>
    if d.uplinkCount ≤ i ∧ i ≠ 8 then d
    else if i ≠ 8 ∧ (d.dev.power = .quiet ∨ d.dev.power = .doze) then d.applyEntry i
    else if d.upl.retrains.contains i then d
    else
      let r := d.request (.wakeUplink i) index none
      if r.2 then { r.1 with upl := { r.1.upl with retrains := i :: r.1.upl.retrains } } else r.1) d

/-- A changed Towpath entry is applied by retraining its link (R391): lit lanes need no admission, a DORMANT link is woken (R393), and a disabled entry ends
the link and a wake that waits for it. -/
def Dev.retrainTowpath (d : Dev) (l : List Nat) (index : Nat) : Dev :=
  l.foldl (fun (d : Dev) k =>
    let x := d.link k
    let d := d.modLink k (fun l => { l with profiled := true })
    if !d.towEnabled k then
      if x.state = .disabled ∧ !x.wakeReq then d
      else
        let d := (d.withdrawOp (fun o => o = .wakeTowpath k)).endOp (fun o => o = .wakeTowpath k)
        let d := d.modLink k (fun l => { l with state := .disabled, wakeReq := false, attempt := 1 })
        if x.up then d.linkDown k 0 else d
    else if x.up then d.linkLost k 0
    else if x.state = .training ∨ x.state = .backoff then
      d.modLink k (fun l => l.restart (d.clk 0))
    else if x.state = .dormant then ((d.modLink k (fun l => { l with attempt := 1 })).wakeLink k index).1
    else d) d

/-- A valid section comes into force. -/
def Dev.loadSection (d : Dev) (s : Nat) (b : Bytes) (index : Nat) : Dev :=
  let old := d.profile
  let d := { d with profile := d.profile.set s b }
  match s with
  | 0 => d
  | 1 => d.retrainUplinks (changedEntries old.uplink b 9) index
  | 2 => d.retrainTowpath (changedEntries old.towpath b 8) index
  | _ => { d with ref := { d.ref with pendPref := some (leAt b 16 1, bitOf (leAt b 17 1) 0) } }

/-- BOARD_PROFILE_LOAD (R504); no data where the read ended in a completion error. -/
def boardProfileLoad (r : BoardProfileReq) (ref : CmdRef) (d : Dev) : Dev :=
  if 3 < r.section_ ∨ r.length ≠ sectionLength r.section_ then d.complete ref .invalid
  else if d.upd.pause.isSome ∨ d.upd.session.elim false (fun x => decide (x.state = .verifying)) then d.complete ref .busy
  else
    match r.data with
    | none => (d.raise 0x3D8 (le 1 ref.ctx ++ le 8 r.hostAddr)).complete ref .invalid
    | some b =>
      if !sectionOk r.section_ b then d.complete ref .invalid
      else
        let d := if r.persist then { d with flash := d.flash.set r.section_ b } else d
        (d.loadSection r.section_ b ref.ctx).complete ref .ok
def execBoardProfileLoad (ctx : Nat) (r : BoardProfileReq) (s : State) : Host.Outcome State Fault Refusal := s.onDev (·.mailboxDma ctx 0x0103 (boardProfileLoad r))

/-! ### Resets and boot (R497 to R499) -/

/-- The debug state at reset (R380). -/
def debugAtReset (l : Lifecycle) : DebugState := if l = .secured ∨ l = .alarmed then .closed else .opened

/-- What boot makes of the flash and the fuses, from the device before the reset: image slots with the session read back, boot slot verified, the other
slot if only that one passes (R455, R458, R462), the profile of the flash in force, the store of the recorder as the NVMe devices hold it, the ACTIVE record and the last twin epochs (log entry 99). A reset in TRIAL
boots the old slot. -/
def Dev.booted (d : Dev) (devAddr cause : Nat) : Dev :=
  let d := if d.dev.power = .offVbat then d else d.persist
  let u := d.upd
  let u := if u.trial.isSome then { u with result := 6 } else u
  let inactive := 1 - u.bootSlot
  let (session, img) := u.session.elim (none, u.image inactive) (fun x => let y := x.afterReset (u.image inactive); (some y.1, y.2))
  let u := u.setImage inactive img
  let e := Dev.reset
  let e := { e with
    dev := { e.dev with variant := d.dev.variant, devAddr, strap := devAddr, unitId := d.dev.unitId, eui64 := d.dev.eui64, stepping := d.dev.stepping,
                        resetCause := cause, subsys := d.flash.system.map (fun b => (leAt b 20 2, leAt b 22 2)) },
    profile := d.flash, flash := d.flash,
    sec := { e.sec with lifecycle := d.sec.lifecycle, authHash := d.sec.authHash, flashAlarmed := d.sec.flashAlarmed, vbat := d.sec.vbat,
                        actions := d.sec.actions, failLimit := d.sec.failLimit, debug := debugAtReset d.sec.lifecycle },
    recd := { e.recd with dir := d.recd.dir, store := d.recd.store, storeSlots := d.recd.storeSlots, storeNext := d.recd.storeNext,
                          nextId := d.recd.nextId, full := d.recd.full },
    upd := { e.upd with slotA := u.slotA, slotB := u.slotB, settingsA := u.settingsA, settingsB := u.settingsB, bootSlot := u.bootSlot,
                        result := u.result, session, digests := u.digests },
    prot := { e.prot with active := d.prot.active, twinEpochs := d.prot.twinEpochs },
    freeCtr := d.freeCtr }
  let back := !e.slotValid u.bootSlot && e.slotValid inactive
  let e := if back then { e with upd := { e.upd with bootSlot := inactive, result := 9 } } else e
  let e := e.runSlot e.upd.bootSlot
  let e := (List.range 9).foldl Dev.applyEntry e
  let e := { e with upl := { e.upl with lit := (List.range 8).filter e.upEnabled } }
  let sys := e.profile.system
  { e with ref := { e.ref with pref := sys.elim 0 (fun b => leAt b 16 1), revertive := sys.elim false (fun b => bitOf (leAt b 17 1) 0) } }

/-- The first selection of the main reference (R36). -/
def RefClk.first (r : RefClk) : RefClk := { r with selected := r.best }

/-- The security unit comes up (R378, R379): SECURED becomes ALARMED where the owner key was lost or an ALARMED record stands. `log` says that this is a
power-up, at which each entry of the VBAT log is raised. -/
def Dev.secureBoot (d : Dev) (powerUp : Bool) : Dev :=
  let v := d.sec.vbat
  let lost := powerUp && v.keyLost
  -- records of one clock go in ascending SOURCE (R447)
  let d : Dev := if d.sec.lifecycle = .secured ∧ (v.alarmed ∨ d.sec.flashAlarmed ∨ lost) then
      ({ d with sec := { d.sec with flashAlarmed := true, vbat := { v with alarmed := v.alarmed || lost } } }).setLifecycle .alarmed
    else d
  let d : Dev := if powerUp then v.log.foldl (fun (d : Dev) x => d.raise 0x2C7 (le 1 x.1 ++ le 4 x.2)) d else d
  if lost then ({ d with sec := { d.sec with vbat := { d.sec.vbat with keyLost := false } } }).raise 0x2C8 else d

/-- POWER_ON_RESET (R498). -/
def powerOnReset (p : PorPins) (d : Dev) : Dev :=
  let e := d.booted (p.devAddr % 64) 1
  let wait (good : Bool) : Option Nat := if good then none else some 80000
  ({ e with ref := { e.ref with goodA := p.refA, goodB := p.refB, waitA := wait p.refA, waitB := wait p.refB }.first }).secureBoot true
def execPowerOnReset (p : PorPins) (s : State) : Host.Outcome State Fault Refusal := s.onDev (powerOnReset p)

/-- A system reset (R499): DEV_ADDR and the judgement of the references are kept. -/
def Dev.systemReset (d : Dev) (cause : Nat) : Dev :=
  let e := d.booted d.dev.devAddr cause
  let wait (w : Option Nat) : Option Nat := w.map (fun n => n - d.up)
  ({ e with ref := { e.ref with goodA := d.ref.goodA, goodB := d.ref.goodB, waitA := wait d.ref.waitA, waitB := wait d.ref.waitB }.first }).secureBoot false

/-- SYSTEM_RESET: cause 2 SRST_N, 3 the SYS_RESET command once its 1 ms has passed. -/
def systemReset (cause : Nat) (d : Dev) : Dev :=
  if d.dev.power = .offVbat then d
  else if cause = 2 then d.systemReset 2
  else if cause = 3 ∧ d.dev.resetAt.elim false (fun r => decide (r ≤ d.now)) then d.systemReset 3
  else d
def execSystemReset (cause : Nat) (s : State) : Host.Outcome State Fault Refusal := s.onDev (systemReset cause)

/-- MAIN_RAILS_LOST (R491, R499): everything but fuses, flash and the VBAT domain is lost, and debug is CLOSED (R381). -/
def mainRailsLost (d : Dev) : Dev :=
  if d.dev.power = .offVbat then d
  else
    let e := d.booted d.dev.devAddr 1
    { e with dev := { e.dev with power := .offVbat }, sec := { e.sec with debug := .closed }, upl := { e.upl with lit := [] } }
def execMainRailsLost (s : State) : Host.Outcome State Fault Refusal := s.onDev mainRailsLost

/-- A management restart (R499): the third within 60 s escalates to a system reset; in TRIAL the old slot starts in a rollback (R462); otherwise the
running slot restarts, READY clears, and everything continues as in a pause. CHALLENGE-OPEN debug closes. -/
def Dev.mgmtRestart (d : Dev) (cause : Nat) (ref : Option CmdRef) : Dev :=
  let recent := (d.now :: d.dev.restarts).filter (fun t => decide (d.now < t + 60 * Config.ticksPerSecond))
  -- records of one clock go in ascending SOURCE (R447)
  let d := match d.sec.debug with
    | .challengeOpen _ => d.setDebug .closed
    | _ => d
  let d := ({ d with dev := { d.dev with restarts := recent } }).raise 0x3A6 [] cause
  if 3 ≤ recent.length then d.systemReset 4
  else if d.upd.trial.isSome then d.rollback 6 ref
  else { d with host := { d.host with ready := false, evtReady := false, fatal := false },
                dev := { d.dev with mgmtRestartRef := ref } }

/-- MANAGEMENT_RESTART (R499): core `core` missed the 1 s watchdog; a core halted by debug has none (R502). -/
def managementRestart (core : Nat) (d : Dev) : Dev :=
  if d.dev.power = .offVbat ∨ 3 < core ∨ d.coreHalted core then d else d.mgmtRestart 1 none
def execManagementRestart (core : Nat) (s : State) : Host.Outcome State Fault Refusal := s.onDev (managementRestart core)

/-- SYS_RESET SYSTEM (R503): the reset begins 1 ms after the doorbell; no response is written. -/
def sysResetSystem (confirm : Nat) (ref : CmdRef) (d : Dev) : Dev :=
  if confirm ≠ 0x6408 then d.complete ref .invalid
  else if d.upd.pause.isSome then d.complete ref .busy
  else { d with dev := { d.dev with resetAt := some (d.now + 8) } }
def execSysResetSystem (ctx confirm : Nat) (s : State) : Host.Outcome State Fault Refusal := s.onDev (·.mailbox ctx 0x0102 (sysResetSystem confirm))

/-- SYS_RESET MANAGEMENT (R503): completes when READY is set again. -/
def sysResetManagement (confirm : Nat) (ref : CmdRef) (d : Dev) : Dev :=
  if confirm ≠ 0x6408 then d.complete ref .invalid
  else if d.upd.pause.isSome then d.complete ref .busy
  else d.mgmtRestart 2 (some ref)
def execSysResetManagement (ctx confirm : Nat) (s : State) : Host.Outcome State Fault Refusal := s.onDev (·.mailbox ctx 0x0102 (sysResetManagement confirm))

/-- EVT_READY (R498): READY and EVT_READY are set, RESET_CAUSE is raised, once after a reset (R514), and a commanded restart completes. -/
def evtReady (d : Dev) : Dev :=
  if d.host.ready ∨ d.dev.power = .offVbat then d
  else
    let ref := d.dev.mgmtRestartRef
    let cause := d.dev.resetCause
    let d := { d with host := { d.host with ready := true, evtReady := true }, dev := { d.dev with mgmtRestartRef := none, resetCause := 0 } }
    (if cause = 0 then d else d.raise 0x3A7 [] cause).completeOpt ref .ok
def execEvtReady (s : State) : Host.Outcome State Fault Refusal := s.onDev evtReady

/-- The command that Adesa's own attaches stand for: no context has this number. -/
def adesaRef : CmdRef := { ctx := 9, id := 0 }

/-- SETTINGS_RESTORE (R498): once after each boot the settings of the running slot come back: the recorder ring's size, ALIGN with the enabled Towpath
links, whose alignment begins, and the attached trees, which wait for it. -/
def settingsRestore (d : Dev) : Dev :=
  if !d.host.ready ∨ !d.dev.restoreDue then d
  else
    let x := d.upd.settings d.dev.slot
    let ring := if d.recd.set.run then d.recd.set.ring else x.ring
    let d := ({ d with dev := { d.dev with restoreDue := false }, recd := { d.recd with set := { d.recd.set with ring } } }).resized
    let d := { d with tow := { d.tow with align := x.align, alignWait := x.alignWait } }
    let links := x.links.filter (fun l => d.towEnabled l.1)
    let d := if links.isEmpty then d else { d with tow := { d.tow with enabledAt := some d.now } }
    let d := links.foldl (fun (d : Dev) l => ((d.modLink l.1 (fun y => { y with cost := l.2 })).wakeLink l.1 9).1) d
    x.trees.foldl (fun (d : Dev) t => treeAttach t.1 t.2 adesaRef d) d
def execSettingsRestore (s : State) : Host.Outcome State Fault Refusal := s.onDev settingsRestore

/-- ADESA_FATAL (R435): Adesa stops; in TRIAL that is a rollback (R462). -/
def adesaFatal (d : Dev) : Dev :=
  if d.dev.power = .offVbat ∨ d.host.fatal then d
  else
    let d := { d with host := { d.host with fatal := true } }
    if d.upd.trial.isSome then d.rollback 6 none else d
def execAdesaFatal (s : State) : Host.Outcome State Fault Refusal := s.onDev adesaFatal

/-! ### Debug port (R500) -/

/-- SAMPLE/PRELOAD, DEBUG and, in QUIET, EXTEST are decoded only while debug is OPEN or CHALLENGE-OPEN. -/
def Dev.debugOn (d : Dev) : Bool := match d.sec.debug with | .closed => false | _ => true

/-- An instruction comes by the TAP: TCK has toggled, and the cells drive only as long as EXTEST is the instruction (R500). -/
def Dev.tck (d : Dev) : Dev := { d with dev := { d.dev with tckAt := some d.now }, dbg := { d.dbg with scanDriven := none } }

/-- TAP_DBG_AUTH (R500): without an opening it issues a challenge, as DEBUG_CHALLENGE does; with one it asks for CHALLENGE-OPEN. -/
def tapAuth (r : TapAuth) (d : Dev) : Dev :=
  let d := d.tck
  match r.opening with
  | none =>
    let (n, d) := d.draw
    { d with sec := { d.sec with challenge := some (n % 2 ^ 256, d.now + 60 * Config.ticksPerSecond) } }
  | some (window, pubkey, sig) =>
    if d.sec.lifecycle ≠ .secured then d else (d.signedOpen window { pubkey, sig }).2
def execTapDbgAuth (r : TapAuth) (s : State) : Host.Outcome State Fault Refusal := s.onDev (tapAuth r)

/-- TAP_EXTEST: the cells drive what was preloaded; outside QUIET with debug open it is BYPASS. -/
def tapExtest (d : Dev) : Dev :=
  let d := d.tck
  if d.debugOn ∧ d.dev.power = .quiet then { d with dbg := { d.dbg with scanDriven := some d.dbg.scanPreload } } else d
def execTapExtest (s : State) : Host.Outcome State Fault Refusal := s.onDev tapExtest

/-- TAP_SAMPLE_PRELOAD: the cells sample the pins (`pins`) and take the preload value; the cells no longer drive. -/
def tapSample (pins preload : List Bool) (d : Dev) : Dev :=
  let d := d.tck
  if d.debugOn then { d with dbg := { d.dbg with scanIn := pins, scanPreload := preload, scanDriven := none } } else d
def execTapSamplePreload (pins preload : List Bool) (s : State) : Host.Outcome State Fault Refusal := s.onDev (tapSample pins preload)

/-! ### Debug module (R501, R502) -/

def Dev.core (d : Dev) (n : Nat) : CoreDebug := lget d.dbg.cores n CoreDebug.reset
def Dev.modCore (d : Dev) (n : Nat) (f : CoreDebug → CoreDebug) : Dev := { d with dbg := { d.dbg with cores := lmod d.dbg.cores n CoreDebug.reset f } }

/-- A core is halted by debug. -/
def Dev.haltCore (d : Dev) (n : Nat) : Dev :=
  if 3 < n ∨ d.coreHalted n then d else (d.modCore n (fun c => { c with halted := true })).haltEvent n true

/-- CORE_HALT. -/
def coreHalt (n : Nat) (d : Dev) : Dev := if d.debugOn then d.tck.haltCore n else d.tck
def execCoreHalt (core : Nat) (s : State) : Host.Outcome State Fault Refusal := s.onDev (coreHalt core)

/-- CORE_RESUME. -/
def coreResume (n : Nat) (d : Dev) : Dev :=
  let d := d.tck
  if d.debugOn ∧ n ≤ 3 ∧ (d.core n).halted then (d.modCore n (fun c => { c with halted := false })).haltEvent n false else d
def execCoreResume (core : Nat) (s : State) : Host.Outcome State Fault Refusal := s.onDev (coreResume core)

/-- CORE_SINGLE_STEP: one instruction of a halted core. -/
def coreStep (n : Nat) (d : Dev) : Dev :=
  let d := d.tck
  if d.debugOn ∧ n ≤ 3 ∧ (d.core n).halted then d.modCore n (fun c => { c with steps := c.steps + 1 }) else d
def execCoreSingleStep (core : Nat) (s : State) : Host.Outcome State Fault Refusal := s.onDev (coreStep core)

/-- BREAKPOINT_HIT: a breakpoint or watchpoint that the debugger set fires on an access of a running core, and halts it. -/
def breakpointHit (r : BreakHit) (d : Dev) : Dev :=
  if !d.debugOn ∨ 3 < r.core ∨ 11 < r.unit_ then d
  else
    let d := d.modCore r.core (fun c =>
      if r.unit_ < 8 then { c with breakpoints := lset c.breakpoints r.unit_ (some r.first) }
      else { c with watchpoints := lset c.watchpoints (r.unit_ - 8) (some (r.first, r.last, r.onRead, r.onWrite)) })
    let hit :=
      if r.unit_ < 8 then r.access == 0 && r.addr == r.first
      else decide (r.first ≤ r.addr) && decide (r.addr ≤ r.last) && ((r.access == 1 && r.onRead) || (r.access == 2 && r.onWrite))
    if hit then d.haltCore r.core else d
def execBreakpointHit (r : BreakHit) (s : State) : Host.Outcome State Fault Refusal := s.onDev (breakpointHit r)

/-- ID.STATUS (R435). -/
def Dev.idStatus (d : Dev) : Nat :=
  b2n d.host.serves + 2 * b2n d.host.evtReady + 4 * d.dev.slot + 8 * b2n d.host.pause + 16 * b2n d.host.fatal + 32 * d.sec.lifecycle.code

/-- The word at an offset of a ring's block (R445). -/
def Ring.word (r : Ring) (off : Nat) : Nat :=
  match off with
  | 0 => r.baseLo
  | 4 => r.baseHi
  | 8 => b2n r.enable + 256 * r.size + 65536 * r.coalesce
  | 12 => r.head
  | 16 => r.tail
  | 20 => r.lost
  | _ => 0

/-- The word at an offset of a mailbox context's block (R436, R437). -/
def MbCtx.word (c : MbCtx) (off : Nat) : Nat :=
  match off with
  | 4 => c.doorbellHi
  | 8 => b2n c.enable + 2 ^ 17 * c.allow
  | 12 => c.pages.length
  | 16 => c.submitted
  | 20 => c.completed
  | 24 => c.discarded
  | _ => 0

/-- Bits of the pending bit array in a word. -/
def pbaWord (l : List Nat) (w : Nat) : Nat := sumOf ((List.range 32).map (fun i => if l.contains (32 * w + i) then 2 ^ i else 0))

/-- The word that a read of BAR0 returns (R433): reserved space reads zero. -/
def Dev.bar0 (d : Dev) (off : Nat) : Nat :=
  if off % 4 ≠ 0 then 0
  else if off = 0 then 0x3436584C
  else if off = 4 then 0x6408 * 65536 + d.dev.variant * 256 + d.dev.stepping
  else if off = 8 then d.idStatus
  else if off = 16 then d.host.cycleHi
  else if 0x1000 ≤ off ∧ off < 0x2000 then (d.ctx ((off - 0x1000) / 0x200)).word (off % 0x200)
  else if 0x4000 ≤ off ∧ off < 0x4000 + 112 * 0x40 then (d.ring ((off - 0x4000) / 0x40)).word (off % 0x40)
  else if off = 0x6000 then d.ctr.permit
  else if off = 0x6008 then d.ctr.snapHi
  else if off = 0x600C then d.ctr.dumpHead
  else if off = 0x6010 then d.ctr.dumpTail
  else if off = 0x6014 then d.counter 0 .dumpSkipped 0 % 2 ^ 32
  else if off = 0x6018 then d.counter 0 .dumpTrunc 0 % 2 ^ 32
  else if 0x8000 ≤ off ∧ off < 0x8200 then (d.pktRing ((off - 0x8000) / 0x40)).word (off % 0x40)
  else if 0xC000 ≤ off ∧ off < 0xC800 then tgetD d.host.msix ((off - 0xC000) / 4) (if (off / 4) % 4 = 3 then 1 else 0)
  else if 0xD000 ≤ off ∧ off < 0xD010 then pbaWord d.host.pba ((off - 0xD000) / 4)
  else 0

/-- A read of BAR0 (R433 to R437, R445, R485), with the latch that a read of CYCLE_LO or SNAP_LO sets. -/
def readBar0 (off : Nat) (d : Dev) : Dev :=
  if off = 12 then cycleLoRead d
  else if off = 0x6004 then snapLoRead d
  else { d with host := { d.host with readData := d.bar0 off } }

/-- A write to BAR0 by the debug module acts as the host's does. -/
def writeBar0 (r : MemAccess) (d : Dev) (mem : List Host.Cell) : Dev × List Host.Cell :=
  let c := (r.addr - 0x1000) / 0x200
  if 0x1000 ≤ r.addr ∧ r.addr < 0x2000 ∧ r.addr % 0x200 = 0 then doorbell { ctx := c, value := r.value, page := r.page } d mem
  else if 0x4000 ≤ r.addr ∧ r.addr < 0x4000 + 112 * 0x40 ∧ r.addr % 0x40 = 8 then (ringCtrlSynced ((r.addr - 0x4000) / 0x40) r.value d, mem)
  else if 0x8000 ≤ r.addr ∧ r.addr < 0x8200 ∧ r.addr % 0x40 = 8 then (ringCtrlSynced (112 + (r.addr - 0x8000) / 0x40) r.value d, mem)
  else (registerSynced r.addr r.value d, mem)

/-- The answer of the debug module. -/
def Dev.answered (d : Dev) (v : Nat) (err : Bool) : Dev := { d with dbg := { d.dbg with lastRead := v, lastError := err } }

/-- SYSTEM_MEMORY_ACCESS (R501): the 8 MiB of management memory (R24) and BAR0 are read and written, the other memories read only, and the key store, the VBAT domain and the
fuse controller answer zeros and an error. What an unwritten byte of management memory, or a word of the other memories, reads as is a free value (log
entry 43). -/
def systemMemory (r : MemAccess) (d : Dev) (mem : List Host.Cell) : Dev × List Host.Cell :=
  let d := d.tck
  if !d.debugOn then (d, mem)
  else
    match (if r.space = 0 ∧ Config.mgmtBytes ≤ r.addr then 3 else r.space), r.write with
    | 0, true => ({ d with dbg := { d.dbg with mgmtMem := memPut d.dbg.mgmtMem r.addr (BitVec.ofNat 8 r.value), lastError := false } }, mem)
    | 0, false =>
      (match memRead d.dbg.mgmtMem r.addr with
        | some b => (d.answered b.toNat false, mem)
        | none => let (n, d) := d.draw; (d.answered (n % 256) false, mem))
    | 1, true => let w := writeBar0 r d mem; (w.1.answered w.1.dbg.lastRead false, w.2)
    | 1, false => let d := readBar0 r.addr d; (d.answered d.host.readData false, mem)
    | 2, true => (d, mem)
    | 2, false => let (n, d) := d.draw; (d.answered (n % 2 ^ 32) false, mem)
    | _, _ => (d.answered 0 true, mem)
def execSystemMemoryAccess (r : MemAccess) (s : State) : Host.Outcome State Fault Refusal := s.onBoth (systemMemory r)

end Sys2Proof.Machine
end

