-- ==== Sys2Proof/Machine/Frames.lean ====
section
/-!
DEFINITION. Downstream frames (chapters 02 and 03): the lock-message section, berths, the frame header, the frame that begins at a boundary and the frame
that ends at one, with RS coding, scrambling, ballast and withheld slots.
-/
namespace Sys2Proof.Machine

/-! ### Lock messages as bytes (R85, R365) -/

/-- A message without its tag. -/
def LockMsg.head (m : LockMsg) (auth : Bool) : Bytes :=
  let payload := m.pre ++ m.tick.elim [] (fun x => be 6 (x % 2 ^ 48)) ++ m.post
  let b := be 2 m.dest ++ be 1 m.typ ++ be 1 (b2n auth) ++ be 2 payload.length ++ payload
  b ++ be 2 (crc16 b)

/-- END (R85). -/
def endMsg : Bytes := (lockMsg 0xFFFF 0x00 0 [] none [] .plain .other 0 0).head false

/-- Does a message to a terminal carry AUTH = 1 (R87, R125)? `held` says that the terminal holds its downstream SA. -/
def LockMsg.authed (m : LockMsg) (held : Bool) : Bool := decide (m.dest < 0xFFFE) && (m.auth == 1 || (m.auth == 2 && held))

/-! ### Filling the section (R85, R86, R125) -/

/-- The section while it is filled: the device, the bytes so far, those of KEY_ORIGIN, of standing tables and of the other ranks; destinations that wait,
messages that stay, that went and that came too late; ticks moved (serial, old, new); deferrals. -/
structure Fill where
  dev : Dev
  out : Bytes
  origin : Nat
  tables : Nat
  rest : Nat
  blocked : List Nat
  keep : List (Nat × LockMsg)
  sent : List LockMsg
  late : List LockMsg
  moves : List (Nat × Nat × Nat)
  defer : Nat

/-- Bytes of the section (R86). -/
def lmBytes : Nat := 14616

/-- Room for a message of `n` bytes (R86). -/
def Fill.room (f : Fill) (rank n : Nat) : Bool :=
  decide (f.out.length + n + 8 ≤ lmBytes) &&
    (if rank = 1 then true
     else if rank = 2 then decide (f.tables + n ≤ 896)
     else decide (f.rest + n + f.origin + 896 + 8 ≤ lmBytes))

/-- Put a message's bytes into the section. -/
def Fill.put (f : Fill) (rank : Nat) (b : Bytes) : Fill :=
  let n := b.length
  { f with out := f.out ++ b,
           origin := if rank = 1 then f.origin + n else f.origin,
           tables := if rank = 2 then f.tables + n else f.tables,
           rest := if 3 ≤ rank then f.rest + n else f.rest }

/-- A message that waits holds back the later ones to its destination, and counts. -/
def Fill.wait (f : Fill) (e : Nat × LockMsg) : Fill :=
  { f with blocked := e.2.dest :: f.blocked, keep := f.keep ++ [e], defer := f.defer + 1 }

/-- A named tick of one terminal that lies less than 4 frames ahead moves (R125). -/
def LockMsg.moved (m : LockMsg) (frame : Nat) : LockMsg :=
  match m.rule, m.tick with
  | .oneTerminal, some x => if x < frame + 4 then { m with tick := some (frame + 4) } else m
  | _, _ => m

/-- A shared tick that has come: the copy is not sent (R125). -/
def LockMsg.tooLate (m : LockMsg) (frame : Nat) : Bool := decide (m.rule = .shared) && m.tick.elim false (fun x => decide (x ≤ frame))

/-- Offer one message to frame F, the frame of the current tick. A message that a stopped SA drops (R363) counts as gone. At most 32 NET_TRIGGER messages go in a
frame; those beyond wait (R349). -/
def Fill.offer (t : Nat) (f : Fill) (e : Nat × LockMsg) : Fill :=
  let m := e.2
  let c := f.dev.now
  let g := globalIndex t m.dest
  let held := decide (m.dest < 0x100) && (f.dev.keys g).held c
  if c < m.notBefore ∨ (m.auth = 1 ∧ !held) then { f with keep := f.keep ++ [e] }
  else if m.tooLate c then { f with late := f.late ++ [m] }
  else if f.blocked.contains m.dest then f.wait e
  else
    let m' := m.moved c
    let auth := m'.authed held
    let b := m'.head auth
    let full := m.typ == 0x31 && decide (32 ≤ (f.sent.filter (fun k => k.typ == 0x31)).length)
    if full || !f.room m.rank (b.length + (if auth then 16 else 0)) then f.wait e
    else
      let moves := match m.tick, m'.tick with
        | some x, some y => if x = y then f.moves else f.moves ++ [(m.serial, x, y)]
        | _, _ => f.moves
      let f := { f with sent := f.sent ++ [m'], moves }
      if !auth then f.put m.rank b
      else
        let ctr := 0x7000 + (f.dev.keys g).ctrLm
        match f.dev.useSa g c ctr 0x8000 with
        | (none, d) => { f with dev := d }
        | (some s, d) =>
          let tag := (gcmSeal s.key.toNat (s.iv (d.origin t) c ctr) b []).2
          let d := d.cipherUse 0 t b.length (d.clk 0) false
          { f with dev := d.modKeys g (fun k => { k with ctrLm := k.ctrLm + 1 }) }.put m.rank (b ++ be 16 tag.toNat)

/-- A DOZE_END that can no longer go in frame wake − 4 names the next wake tick (R125). -/
def Dev.rewake (d : Dev) (t : Nat) : Dev :=
  let late := (d.tree t).down.lm.filter (fun m => decide (m.rule = .wake) && m.tick.elim false (fun x => decide (x < d.now + 4)))
  late.foldl (fun (d : Dev) m =>
    match ((d.tree t).bySerial m.serial).bind (fun x => x.doze) with
    | none => d.modTree t (fun y => y.withdraw (· == m))
    | some z =>
      let w := (d.tree t).wakeAfter z (d.now + 3)
      let d := d.modTerm t m.serial (fun x => { x with doze := some { z with endAt := some w } })
      d.modTree t (fun y => { y with down := { y.down with
        lm := y.down.lm.map (fun k => if k = m then { k with tick := some w, notBefore := w - 4 } else k) } })) d

/-- Withdraw messages (R132, R174): a standing change that is not sent completes, and a flow whose unbind is withdrawn is gone. -/
def Dev.dropMsgs (d : Dev) (t : Nat) (p : LockMsg → Bool) (st : Status) : Dev :=
  let gone := (d.tree t).down.lm.filter p
  let d := d.modTree t (fun x => x.withdraw p)
  gone.foldl (fun (d : Dev) m =>
    match m.kind with
    | .standing => d.completeOpt m.ref st m.resp
    | .flowBind f false => if (d.flow f).elim false (fun x => x.unbindWait) then d.flowGone f else d
    | _ => d) d

/-- Is a message one of a terminal that is removed: addressed to its id or to the serial, or a held FLOW_BIND of a flow of that listing (R89, R132)? -/
def Dev.concerns (d : Dev) (x : Term) (k : LockMsg) : Bool :=
  match k.kind with
  | .netTrigger _ => false
  | .flowBind f _ => (d.flow f).elim false (fun v => v.serial == x.serial) || k.serial == x.serial
  | _ => k.serial == x.serial && (decide (k.dest < 0x100) || k.typ == 0x10)

/-- A terminal leaves its tree's list (R132, R142, R321, R371): its keys, its defects and what still waits for it go; its id is held for 60 s where it is not held
already (R131). -/
def Dev.unlist (d : Dev) (t : Nat) (x : Term) (ref : Option CmdRef) : Dev :=
  let d := x.id.elim d (fun id => (d.clearTermDefects t id 1).eraseAll t id)
  let d := x.id.elim d (fun id => d.modLine t (fun l => { l with terms := tdel l.terms id }))
  let d := x.id.elim d (fun id => d.modTree t (fun y =>
    let y := y.withdrawGrants x d.nextBuild
    if y.holds.any (fun h => h.id == id && h.serial == x.serial) then y else y.hold x.serial id (d.now + holdTicks)))
  let drop := d.concerns x
  let d := d.modTree t (fun y => { y with terms := y.terms.filter (fun z => z.serial != x.serial) })
  (d.dropMsgs t drop .invalid).completeOpt ref .ok

/-- The frame with REMOVE leaves (R132, R142). -/
def Dev.removeSent (d : Dev) (t : Nat) (m : LockMsg) : Dev :=
  match (d.tree t).bySerial m.serial with
  | none => d.completeOpt m.ref .ok
  | some x => d.unlist t x m.ref

/-- What follows from a message that the frame of this boundary carries. -/
def Dev.msgSent (t : Nat) (d : Dev) (m : LockMsg) : Dev :=
  match m.kind with
  | .remove => d.removeSent t m
  | .flowBind f true =>
    -- an older bind of a flow that a later bind in the queue concerns does not count
    if (d.tree t).down.lm.any (fun k => k.kind == .flowBind f true) then d
    else { d with pool := { d.pool with flows := tmod d.pool.flows f (fun x => { x with bound := some (d.now + 1) }) } }
  | .flowBind f false => if (d.flow f).elim false (fun x => x.unbindWait) then d.flowGone f else d
  | .tswActivate => d.setTarget t m.dest 6
  | .netTrigger second => d.triggerSent m second
  | _ =>
    -- the ranging places count from the frame that carries RANGE_ASSIGN (R126)
    if m.typ = 0x10 then
      d.modTerm t m.serial (fun x =>
        if x.state = .ranging ∧ x.admission then { x with rangingPlaces := [d.now + 5, d.now + 13, d.now + 21] } else x)
    else d.completeOpt m.ref .ok m.resp

/-- A waiting change of R moves with its tick. -/
def Term.moveRange (x : Term) (old new : Nat) : Term :=
  { x with adj := x.adj.map (fun a => if a.apply = old then { a with apply := new } else a) }

/-- The head-end's own action moves with the tick of a message (R125). -/
def Term.moveTick (x : Term) (kind : MsgKind) (old new : Nat) : Term :=
  match kind with
  | .admitMsg => { x.moveRange old new with admitFrom := x.admitFrom.map (fun _ => new) }
  | .rangeAdjust => x.moveRange old new
  | .quarantine => x.moveRange old new
  | .fecSet => { x with fecSet := x.fecSet.map (fun s => (s.1, new)) }
  | .dozeOffer => { x with doze := x.doze.map (fun z => { z with start := new, nextWake := new + z.period }) }
  | _ => x

/-- A waiting message of a terminal with the named tick `old` names `new` instead. -/
def LockMsg.retick (m : LockMsg) (kind : MsgKind) (serial old new : Nat) : LockMsg :=
  if m.kind = kind ∧ m.serial = serial ∧ m.tick = some old then { m with tick := some new } else m

/-- The moves of one section: the terminals' actions, and a waiting TIME_OFFSET with the same tick. -/
def Dev.applyMoves (d : Dev) (t : Nat) (sent : List LockMsg) (moves : List (Nat × Nat × Nat)) : Dev :=
  moves.foldl (fun (d : Dev) v =>
    let serial := v.1
    let kinds := (sent.filter (fun m => m.serial == serial && m.tick == some v.2.2)).map (fun m => m.kind)
    let d := kinds.foldl (fun (d : Dev) k => d.modTerm t serial (fun x => x.moveTick k v.2.1 v.2.2)) d
    d.modTree t (fun y => { y with down := { y.down with lm := y.down.lm.map (fun m => m.retick .timeOffset serial v.2.1 v.2.2) } })) d

/-- The pieces of a push, after every other message (R86, R463, R464): at most PER_FRAME, in ascending order, none while an offer still waits. A piece of the
frame's share that waits for room or behind its destination counts as a message that waits (R85). -/
def Fill.pieces (t : Nat) (f : Fill) : Fill :=
  let p := f.dev.push t
  if !p.running || p.deadline.isSome || f.keep.any (fun e => e.2.typ == 0x60) then f
  else
    (p.left.take p.perFrame).foldl (fun (f : Fill) i =>
      let b := (p.piece i).head false
      if f.blocked.contains 0xFFFF || !f.room 5 b.length || (f.dev.push t).left.head? != some i then { f with defer := f.defer + 1 }
      else
        let d := (f.dev.modPush t (fun q => { q with left := q.left.drop 1 })).countTree t .tswPiecesSent
        { f with dev := d }.put 5 b) f

/-- The lock-message section of the frame of this boundary (R85, R86): its bytes, empty where no message goes, and the device after it. -/
def Dev.lockSection (d : Dev) (t : Nat) : Bytes × Dev :=
  let d := d.rewake t
  let lm := (d.tree t).down.lm
  let order := sortBy (fun (a b : Nat × LockMsg) => decide (a.2.rank ≤ b.2.rank)) ((List.range lm.length).zip lm)
  let f0 : Fill :=
    { dev := d, out := [], origin := 0, tables := 0, rest := 0, blocked := [], keep := [], sent := [], late := [], moves := [], defer := 0 }
  let f := (order.foldl (Fill.offer t) f0).pieces t
  let keep := (sortBy (fun (a b : Nat × LockMsg) => decide (a.1 ≤ b.1)) f.keep).map (fun e => e.2)
  let d := f.dev.modTree t (fun y => { y with down := { y.down with lm := keep } })
  let d := if f.defer = 0 then d else d.countTree t .lmDefer f.defer
  let d := f.late.foldl (fun (d : Dev) m => (d.countTree t .lmLate).completeOpt m.ref .ok m.resp) d
  let d := d.applyMoves t f.sent f.moves
  let d := f.sent.foldl (Dev.msgSent t) d
  (if f.out.isEmpty then [] else f.out ++ endMsg, d.pushQuery t)

/-! ### Berth map and manifest (R73 to R76, R155) -/

/-- The berth map section. -/
def bmapBytes (from_ : Nat) (bs : List Berth) : Bytes :=
  let b := be 6 from_ ++ be 2 bs.length ++ bs.flatMap (fun b => be 4 (b.tid % 256 * 2 ^ 24 + (b.slots - 1) % 8 * 2 ^ 10 + b.first % 1024))
  b ++ be 4 (crc32c b)

/-- The berth map section of frame C, for the berths of frame C + 4: there while the map holds a berth, and once more when it has become empty. -/
def Tree.bmap (x : Tree) (c : Nat) : Bytes :=
  let bs := x.berths (c + 4)
  if bs.isEmpty ∧ (x.berths (c + 3)).isEmpty then []
  else bmapBytes (((x.down.maps.filter (fun m => decide (m.1 ≤ c + 4))).getLast?).elim 0 (fun m => m.1)) bs

/-- Is a berth map within the limits of R76? `from_` is the first slot that is free. -/
def berthsOk : (from_ : Nat) → List Berth → Bool
  | _, [] => true
  | lo, b :: t => decide (lo ≤ b.first) && decide (1 ≤ b.slots) && decide (b.slots ≤ 8) && decide (b.first + b.slots ≤ 801) &&
      decide (b.tid < 256) && berthsOk (b.first + b.slots) t

/-- A new berth map of a tree, announced in the frame of this boundary and in force from C + 4 (R75). The manual gives no command that assigns berths: they
are the head-end's own choice, an input of the boundary (log entry 45). -/
def Dev.newMap (d : Dev) (t : Nat) (bs : List Berth) : Dev :=
  if berthsOk 97 bs && decide (bs.length ≤ 256) then
    d.modDown t (fun x => { x with maps := x.maps.filter (fun m => m.1 != d.now + 4) ++ [(d.now + 4, bs)] })
  else d

/-- The maps that no frame to come uses go. -/
def Tree.dropMaps (x : Tree) (c : Nat) : Tree :=
  let old := x.down.maps.filter (fun m => decide (m.1 ≤ c))
  let new := x.down.maps.filter (fun m => !decide (m.1 ≤ c))
  { x with down := { x.down with maps := old.getLast?.toList ++ new } }

/-- A grant entry (R155). -/
def Grant.entry (g : Grant) : Bytes :=
  let named := decide (g.kind ≤ 1)
  be 8 (g.tid % 256 * 2 ^ 56 + g.start % 2 ^ 21 * 2 ^ 35 + g.ncw % 1024 * 2 ^ 25 + g.kind % 8 * 2 ^ 22 +
    (if named then g.flow % 2 ^ 17 * 2 ^ 5 + g.cls % 8 * 4 else 0))

/-- The manifest section (R74). -/
def manifestBytes (target : Nat) (gs : List Grant) : Bytes :=
  let b := be 2 (target % 65536) ++ be 2 gs.length ++ be 4 0 ++ gs.flatMap Grant.entry
  b ++ be 4 (crc32c b)

/-- A section pointer (R73). -/
def sectionPtr (bytes first : Nat) : Nat := if bytes = 0 then 0 else ceilDiv bytes 232 * 1024 + first

/-! ### Berths (R76, R77) -/

/-- A berth while it is filled: its bytes, the parcel headers by slot, and whether the rest of it is zero fill. -/
structure BerthFill where
  dev : Dev
  buf : Bytes
  starts : List Nat
  closed : Bool

/-- The weir-class queues of a terminal that may send in this frame. -/
def Dev.weirQueues (d : Dev) (t tid : Nat) : List Nat :=
  match (d.tree t).byId tid with
  | none => []
  | some x =>
    if !(x.state == .inService || x.state == .quarantined) || !(d.keys (globalIndex t tid)).held d.now then []
    else
      let mine := d.pool.flows.filter (fun e => e.2.dir == 0 && e.2.tree == t && e.2.id == tid && e.2.serial == x.serial &&
        e.2.bound.elim false (fun b => decide (b ≤ d.now)))
      mine.map (fun e => e.1 * 8)

/-- Offer the head of one queue to a berth; `big` are the bytes of the terminal's largest berth. A parcel that does not fit closes the berth: the rest is zero
fill (R77). -/
def BerthFill.offer (t big : Nat) (b : Berth) (f : BerthFill) (q : Nat) : BerthFill :=
  let d := f.dev
  match d.headOf q, (d.queue q).basin.head? with
  | some x, some e =>
    let size := 8 + bodyLen x
    let at_ := (padHead f.buf).length
    if big < size then { f with dev := (d.countTree t .weirOversize).dequeue q false }
    else if 232 * b.slots < at_ + size then { f with dev := d.countTree t .berthDefer, closed := true }
    else
      let slot := b.first + at_ / 232
      let ctr := 0x8000 + (slot - 97) * 16 + (f.starts.filter (· == slot)).length
      let g := globalIndex t b.tid
      let k := d.keys g
      match d.useSa g d.now ctr 0x10000 with
      | (none, d) => { f with dev := d.dequeue q false }
      | (some s, d) =>
        let body := parcelBody s (d.origin t) d.now ctr (q / 8) x.twinTag true x.data
        let d := (d.sojourn q e.frame 0).cipherUse 0 t body.length (d.clk 0) false
        let d := ((d.countQueue q t .qTxFrames).countQueue q t .qTxBytes (d.charge t (8 + body.length))).parcelTo t b.tid
        { f with dev := d.dequeue q true, starts := slot :: f.starts,
                 buf := padHead f.buf ++ headerBytes (q / 8) body.length true true k.downPhase x.twinTag.isSome ++ body }
  | _, _ => f

/-- The queues that compete for the space left: those with a head parcel, in R9 order of the flow (R77). -/
def BerthFill.contenders (f : BerthFill) (qs : List Nat) : List Nat :=
  tieOrder f.dev.now (fun q => q / 8) (qs.filter (fun q => (f.dev.headOf q).isSome && !(f.dev.queue q).basin.isEmpty))

/-- Among the heads as they stand the winner goes into the berth, one after the other, until a parcel does not fit or no queue has one. -/
def BerthFill.run (t big : Nat) (b : Berth) (qs : List Nat) : (fuel : Nat) → BerthFill → BerthFill
  | 0, f => f
  | n + 1, f =>
    if f.closed then f
    else match f.contenders qs with
      | [] => f
      | q :: _ => BerthFill.run t big b qs n (f.offer t big b q)

/-- Fill one berth (R77). A parcel of a flow goes in whether or not an earlier parcel of the flow is incomplete in the ordinary stream (log entry 92). -/
def Dev.fillBerth (d : Dev) (t : Nat) (all : List Berth) (b : Berth) : Bytes × Dev :=
  let big := 232 * ((all.filter (fun x => x.tid == b.tid)).foldl (fun m x => Nat.max m x.slots) 0)
  let qs := d.weirQueues t b.tid
  let fuel := sumOf (qs.map (fun q => (d.queue q).basin.length)) + 1
  let f := BerthFill.run t big b qs fuel { dev := d, buf := [], starts := [], closed := false }
  (fit (232 * b.slots) f.buf, f.dev)

/-- Fill every berth of the frame, in ascending slot order. -/
def Dev.fillBerths (d : Dev) (t : Nat) (bs : List Berth) : List (Berth × Bytes) × Dev :=
  bs.foldl (fun (acc : List (Berth × Bytes) × Dev) b =>
    let r := acc.2.fillBerth t bs b
    (acc.1 ++ [(b, r.1)], r.2)) ([], d)

/-! ### The frame that begins (R64, R68, R70, R71, R82) -/

/-- FLAGS of the header. -/
def Dev.frameFlags (d : Dev) (t : Nat) : Nat :=
  let x := d.tree t
  128 * b2n (d.kp t) + 64 * b2n (x.disc.windows.any (fun w => w.q == d.now + 4)) + 32 * b2n (x.disc.collSeen == some d.now) +
    16 * b2n d.time.todValid + 8 * b2n (decide (d.time.state = .holdover))

/-- TOD_SEC, TOD_NS and TOD_FRAC at the boundary; zero while the time is not valid. -/
def Dev.todBytes (d : Dev) : Bytes :=
  let v := d.time.base
  if d.time.todValid then be 6 (secOf v) ++ be 4 (nsOf v) ++ be 2 (fracOf v / 65536) else zeros 12

/-- The frame header. -/
def Dev.frameHeader (d : Dev) (t : Nat) (bmap man lm : Nat) (ordFirst : Option Nat) : Bytes :=
  let x := d.tree t
  let bip := x.down.sent.elim 0 (fun s => if s.cycle + 1 = d.now then s.bip else 0)
  let p2 := 1 + ceilDiv bmap 232
  let p3 := p2 + ceilDiv man 232
  let b := be 4 0xE6A15B39 ++ be 6 d.now ++ be 2 x.epoch ++ be 4 bip ++ d.todBytes ++ be 1 (d.frameFlags t) ++ be 1 1 ++
    be 2 (sectionPtr bmap 1) ++ be 2 (sectionPtr man p2) ++ be 2 (sectionPtr lm p3) ++ be 2 (ordFirst.getD 0xFFFF)
  b ++ be 2 (crc16 b)

/-- The keys of a tree count the items of a new frame (R361). -/
def Dev.resetCounts (d : Dev) (t : Nat) : Dev :=
  (d.tree t).terms.foldl (fun (d : Dev) x => x.id.elim d (fun id =>
    let k := d.keys (globalIndex t id)
    if k.ctrOrd = 0 ∧ k.ctrLm = 0 then d else d.modKeys (globalIndex t id) (fun k => { k with ctrOrd := 0, ctrLm := 0 }))) d

/-- A DOZE_OFFER that waits behind frame C (R125, R134): its START lies 4 frames after frame C + 1 at the earliest, and the confirm place that it would have if
it went in frame C + 2 is planned while the manifest of that tick is still to be built. -/
def Dev.offerWaits (d : Dev) (t : Nat) (m : LockMsg) : Dev :=
  match (d.tree t).bySerial m.serial, m.tick with
  | some x, some s =>
    let new := if s < d.now + 5 then d.now + 5 else s
    let d := d.modTree t (fun y =>
      let y := y.modTerm m.serial (fun z => z.moveTick .dozeOffer s new)
      { y with down := { y.down with lm := y.down.lm.map (fun k => (k.retick .dozeOffer m.serial s new).retick .timeOffset m.serial s new) } })
    if new < d.now + 6 then
      x.id.elim d (fun id => d.modTree t (fun y => { y with keep := { y.keep with confirms := y.keep.confirms ++ [(id, d.now + 5)] } }))
    else d
  | _, _ => d

/-- The ranging places of a RANGE_ASSIGN or QUARANTINE that waits for room (R85, R125, R126): they count from the frame after this one at the earliest, and
none is placed by the build of this boundary. -/
def Dev.planWaiting (d : Dev) (t : Nat) : Dev :=
  ((d.tree t).down.lm.filter (fun m => decide (m.notBefore ≤ d.now))).foldl (fun (d : Dev) m =>
    if m.typ = 0x10 then
      d.modTerm t m.serial (fun x =>
        if x.state = .ranging ∧ x.admission then { x with rangingPlaces := [d.now + 6, d.now + 14, d.now + 22] } else x)
    else if m.kind = .quarantine then
      d.modTerm t m.serial (fun x =>
        let first := x.rangingPlaces.headD (d.now + 5)
        if first < d.now + 5 then { x with rangingPlaces := x.rangingPlaces.map (fun p => p + (d.now + 5 - first)) } else x)
    else if m.kind = .dozeOffer then d.offerWaits t m
    else d) d

/-- Frame C begins on a lit tree: its header, sections and berths are complete; the ordinary stream opens with the carried slots and the rest of the body
that ran on. -/
def Dev.beginFrame (d : Dev) (t : Nat) : Dev :=
  let c := d.now
  let d := d.resetCounts t
  let (lm, d) := d.lockSection t
  let d := (d.planWaiting t).modTree t (fun x => x.dropMaps c)
  let bmap := (d.tree t).bmap c
  let man := manifestBytes (c + 4) ((tget (d.tree t).keep.manifests (c + 4)).elim [] (fun m => m.grants))
  let (berths, d) := d.fillBerths t ((d.tree t).berths c)
  let x := (d.tree t).down
  let ord := x.carried.flatten ++ x.leftover
  let w : FrameWork := { cycle := c, header := [], bmap, man, lm, berths, ord, ordFirst := none }
  let first := match x.carriedFirst with
    | some p => p
    | none => ord.length
  let ordFirst := if first < w.ordBytes then some first else none
  let header := d.frameHeader t bmap.length man.length lm.length ordFirst
  d.modDown t (fun x => { x with work := some { w with header, ordFirst }, carried := [], leftover := [], carriedFirst := none })

/-! ### The frame that ends (R40 to R47, R64 to R66) -/

/-- Cut bytes into slots of 232, the last padded with zeros. -/
def toSlots : (n : Nat) → Bytes → List Bytes
  | 0, _ => []
  | n + 1, b => fit 232 b :: toSlots n (b.drop 232)

/-- The data bytes of slots `j` to 806, `n` of them: sections first, berths at their places, the ordinary stream in the others. The flag marks an ordinary
slot. -/
def layoutSlots (berths : List (Berth × Bytes)) : (n j : Nat) → (ctl ord : List Bytes) → List (Bytes × Bool)
  | 0, _, _, _ => []
  | n + 1, j, c :: ctl, ord => (c, false) :: layoutSlots berths n (j + 1) ctl ord
  | n + 1, j, [], ord =>
    match berths.find? (fun b => decide (b.1.first ≤ j) && decide (j < b.1.first + b.1.slots)) with
    | some b => (fit 232 (b.2.drop (232 * (j - b.1.first))), false) :: layoutSlots berths n (j + 1) [] ord
    | none => (ord.head?.getD (zeros 232), true) :: layoutSlots berths n (j + 1) [] (ord.drop 1)

/-- The 806 slots of a frame. -/
def FrameWork.slots (w : FrameWork) : List (Bytes × Bool) :=
  let s (b : Bytes) : List Bytes := toSlots (ceilDiv b.length 232) b
  layoutSlots w.berths 806 1 (s w.bmap ++ s w.man ++ s w.lm) (toSlots (w.ordBytes / 232) w.ord)

/-- Lane coding of the slots from `j` on (R40, R45): scrambled codewords with ballast, until a slot fails the test. Answers the line bits, the run, and the first
slot withheld. -/
def sendSlots : (slots : List Bytes) → (j scr : Nat) → (run : Run) → List (List Bool) × Run × Option Nat
  | [], _, _, run => ([], run, none)
  | s :: t, j, scr, run =>
    if Config.bitsPerTick - 320 - (j - 1) * 1984 - run.used < 2024 then ([], run, some j)
    else
      let x := scramble scr (bytesBits (rsEncode s))
      let y := ballastTx run x.1
      let r := sendSlots t (j + 1) x.2 y.2
      (y.1 :: r.1, r.2)

/-- The line bits of a frame with its filler, the ballast used, and the first slot withheld. -/
def FrameWork.line (w : FrameWork) : List Bool × Nat × Option Nat :=
  let h := ballastTx Run.start (bytesBits w.header)
  let r := sendSlots (w.slots.map (·.1)) 1 (frameSeed w.cycle) h.2
  let bits := h.1 ++ r.1.flatten
  (bits ++ filler (Config.bitsPerTick - bits.length) r.2.1.last, r.2.1.used, r.2.2)

/-- The header positions of a stream from `p` on that carry a parcel header (R81), and the first position at or after `from_`. -/
def walkHeaders (s : Bytes) (from_ : Nat) : (fuel p : Nat) → (heads : List Nat) → (first : Option Nat) → List Nat × Option Nat
  | 0, _, heads, first => (heads, first)
  | n + 1, p, heads, first =>
    if s.length ≤ p then (heads, first)
    else
      let first := if first.isNone ∧ from_ ≤ p then some p else first
      let slot := (p / 232 + 1) * 232
      if 224 < p % 232 then walkHeaders s from_ n slot heads first
      else if (slice s p 8).all (fun b => b == 0) then walkHeaders s from_ n slot heads first
      else walkHeaders s from_ n (p + 8 + beAt s p 8 / 2 ^ 33 % 2 ^ 14) (heads ++ [p]) first

/-- The flows with bytes of a parcel in the ordinary stream at or behind byte `cut`: those whose fragment ends there, and those that ran on into this frame where the
first header comes no sooner. -/
def FrameWork.flowsBehind (w : FrameWork) (ranOn : List Nat) (cut : Nat) : List Nat :=
  let first := w.ordFirst.getD w.ord.length
  let heads := (walkHeaders w.ord 0 (w.ord.length + 1) first [] none).1
  let behind := heads.filter (fun p => decide (cut < p + 8 + beAt w.ord p 8 / 2 ^ 33 % 2 ^ 14))
  (if cut < first then ranOn else []) ++ behind.map (fun p => beAt w.ord p 8 / 2 ^ 47)

/-- Frame C − 1 ends: it is coded and sent; withheld ordinary slots are carried, the content of other withheld slots is lost (R45, R47). -/
def Dev.finishFrame (d : Dev) (t : Nat) : Dev :=
  match (d.tree t).down.work with
  | none => d
  | some w =>
    let cap := w.ordBytes
    let (bits, used, wf) := w.line
    let slots := w.slots
    let cutFrom := wf.getD 807
    let sent : SentFrame :=
      { cycle := w.cycle, header := w.header, slots := (slots.map (·.1)).take (cutFrom - 1), withheldFrom := wf, used, bip := bip32 bits }
    let lost := slots.drop (cutFrom - 1)
    if lost.isEmpty then
      d.modDown t (fun x => { x with work := none, sent := some sent, carried := [], leftover := w.ord.drop cap, carriedFirst := none,
                                     ranOn := w.flowsBehind x.ranOn cap })
    else
      let carried := (lost.filter (·.2)).map (·.1)
      let from_ := ((slots.take (cutFrom - 1)).filter (·.2)).length * 232
      let stream := fit cap w.ord
      let walk := walkHeaders stream from_ (cap + 1) (w.ordFirst.getD cap) [] none
      let d := d.modDown t (fun x =>
        { x with work := none, sent := some sent, carried, leftover := w.ord.drop cap,
                 carriedFirst := if carried.isEmpty then none else walk.2.map (· - from_),
                 ranOn := w.flowsBehind x.ranOn (if carried.isEmpty then cap else from_) })
      -- fragments that begin in a carried slot go on the line in the next frame (R84)
      let flows := ((walk.1.filter (fun p => decide (from_ ≤ p))).filter (fun p => bitOf (beAt stream p 8) 32)).map (fun p => beAt stream p 8 / 2 ^ 47)
      let d := d.modDown t (fun x => { x with frags := tmap x.frags (fun _ f =>
        if flows.contains f.flow ∧ f.firstFrame = w.cycle then { f with firstFrame := w.cycle + 1 } else f) })
      let d := lost.foldl (fun (d : Dev) _ => (d.countTree t .slotWithheld).lineEvent t 2 none) d
      let n1 := ceilDiv w.bmap.length 232
      let n2 := n1 + ceilDiv w.man.length 232
      let n3 := n2 + ceilDiv w.lm.length 232
      let cut := b2n (decide (w.bmap ≠ []) && decide (cutFrom ≤ n1)) + b2n (decide (w.man ≠ []) && decide (cutFrom ≤ n2)) +
        b2n (decide (w.lm ≠ []) && decide (cutFrom ≤ n3)) + (w.berths.filter (fun b => decide (cutFrom < b.1.first + b.1.slots))).length
      if cut = 0 then d else (d.countTree t .frameCut cut).lineEvent t 3 none

end Sys2Proof.Machine
end

