-- ==== Sys2Proof/Machine/Tick.lean ====
section
/-!
DEFINITION. The tick boundary (R21) and all that comes about at it, in its order: snapshot, counters, rule set, configuration, Sluice and quiet windows
(R117 to R119, R168 to R170), keys, messages of a frame, frames and manifest builds.
-/
namespace Sys2Proof.Machine

/-! ### Step 4: configuration (R21, R22, R151) -/

/-- Apply one change of configuration and complete its command. -/
def Dev.applyChange (d : Dev) : CfgChange → Dev
  | .flowDelete _ r => d.applyFlowDelete r
  | .profileSet ref r => d.applyProfile ref r
  | .feeder ref r => d.applyFeeder ref r
  | .poolWrite ref r => d.applyPool ref r
  | .shaper ref r => d.applyShaper ref r
  | .point ref r => d.applyPoint ref r
  | .weir ref r => d.applyWeir ref r
  | .cadence ref r => d.applyCadence ref r
  | .reported ref r => d.applyQueueGrant ref 2 r
  | .best ref r => d.applyQueueGrant ref 1 r
  | .dfltGrant ref r => d.applyQueueGrant ref 0 r
  | .treeParams ref t poll => d.applyTreeParams ref t poll
  | .fdbGlobal ref r => d.applyFdbGlobal ref r
  | .fdbDomain ref r => d.applyFdbDomain ref r
  | .fdbMember ref r => d.applyFdbMember ref r
  | .fdbLimit ref r => d.applyFdbLimit ref r
  | .camLayout ref r => d.applyCamLayout ref r
  | .upPort ref r => d.applyUpPort ref r
  | .gateList ref r => d.applyGateList ref r
  | .steer ref r => d.applySteer ref r

/-- Changes that one boundary limits: 4,096 of shapers (R22), 8 standing changes of a tree (R151). The kind, and its limit. -/
def CfgChange.limit : CfgChange → Option (Nat × Nat)
  | .shaper _ _ => some (64, 4096)
  | .weir _ r => some (r.tree, 8)
  | .cadence _ r => some (r.tree, 8)
  | _ => none

/-- CONFIGURATION_APPLY (R21 step 4): the changes in request order; those beyond a limit wait in order for the next boundary. -/
def applyCfgGo : List CfgChange → (used : Tbl Nat) → (wait : List CfgChange) → Dev → Dev
  | [], _, wait, d => { d with cfg := wait ++ d.cfg }
  | c :: t, used, wait, d =>
    match c.limit with
    | none => applyCfgGo t used wait (d.applyChange c)
    | some (k, n) =>
      if tgetD used k 0 < n then applyCfgGo t (tupd used k 0 (· + 1)) wait (d.applyChange c)
      else applyCfgGo t used (wait ++ [c]) d
/-- The standing set of a terminal returns at this boundary: its ADMIT is queued (R151, R532). -/
def Term.returns (y : Term) : Bool := y.admitFrom.isSome && !y.setReturned && y.hasTable

/-- CONFIGURATION_APPLY at this boundary: sets that return count among the standing changes of their tree (log entry 48). -/
def Dev.applyCfg (d : Dev) : Dev :=
  let back := (d.trees.map (fun e => (e.1, if e.2.lit then (e.2.terms.filter Term.returns).length else 0))).filter (fun e => decide (0 < e.2))
  applyCfgGo d.cfg back [] { d with cfg := [] }

/-- The boundary after a TERMINAL_REMOVE (R142, R174): a standing table not yet sent is cut off, and a terminal listed without an id goes, with no REMOVE. -/
def Dev.removalsBoundary (d : Dev) (t : Nat) : Dev :=
  let going (m : LockMsg) : Bool := m.kind == .standing && (d.tree t).terms.any (fun y => y.removing.isSome && y.serial == m.serial)
  let d := d.dropMsgs t going .invalid
  -- a listing without an id when it was removed; a hail may have given it one since
  let unsent (d : Dev) (y : Term) : Bool := y.removing.isSome && !(d.tree t).down.lm.any (fun m => m.kind == .remove && m.serial == y.serial)
  ((d.tree t).terms.filter (unsent d)).foldl (fun (d : Dev) y => d.unlist t y y.removing) d

/-! ### Quiet windows (R117 to R119, R136, R168 to R170) -/

/-- W (R117). -/
def QwSet.width (s : QwSet) : Nat := if s.reach = 0 then 2 else 4

/-- Would the window that starts at `q` open under R118, as things stand at this boundary? `was` says that the tree was sealed before it. -/
def Dev.wouldOpen (d : Dev) (t : Nat) (was : Bool) (q : Nat) : Bool :=
  let x := d.tree t
  let s := x.disc.settings
  q % s.period == s.phase && d.treeUp t && (x.lit || x.lanes.state == .waking d.now false) && !d.offLease t && !x.sealed && !was &&
    (s.mode == 0 || x.terms.any (fun y => y.state == .listed || y.state == .lost)) &&
    x.disc.lastEnd.elim true (fun e => decide (e + s.width ≤ q))

/-- Does the claim (g, q, y) win against a conflicting one at its settling boundary `c` (R169)? -/
def claimWins (g q y c : Nat) (o : Claim) : Bool :=
  if o.y = y then
    if o.q = q then (if c % 2 = 0 then decide (g < o.g) else decide (o.g < g)) else decide (q < o.q)
  else decide (o.y < y)

/-- QW_CLAIM_SEND (R168): at Q − 16 the claim goes to every partner tree; claims need tick-locked devices (R405). -/
def Dev.claimSend (d : Dev) (t : Nat) (was : Bool) (ps : List (Nat × Nat)) : Dev :=
  let q := d.now + 16
  if !d.wouldOpen t was q then d
  else
    let x := d.tree t
    let w := x.disc.settings.width
    let y := if 255 < x.disc.yields then 255 else x.disc.yields
    let g := d.origin t
    let d := d.modTree t (fun x => { x with disc := { x.disc with claimed := x.disc.claimed ++ [(q, w)] } })
    ps.foldl (fun (d : Dev) p =>
      if p.1 = d.dev.devAddr then d.takeClaim p.2 { g, q, w, y }
      else if !d.tickLocked p.1 then d
      else d.sendUnit p.1 5 none (be 2 g ++ be 6 q ++ be 1 w ++ be 1 y ++ be 2 (p.1 * 64 + p.2) ++ zeros 4)) d

/-- QW_SETTLE (R169, R170): at Q − 8 the claimed window is kept, or yields to a partner's claim. A partner's device that is not tick-locked counts as
having no route (R405). -/
def Dev.claimSettle (d : Dev) (t : Nat) (ps : List (Nat × Nat)) : Dev :=
  let x := d.tree t
  let q := d.now + 8
  match x.disc.claimed.find? (fun e => e.1 == q) with
  | none => d
  | some (_, w) =>
    let y := if 255 < x.disc.yields then 255 else x.disc.yields
    let d := d.modTree t (fun x => { x with disc := { x.disc with claimed := x.disc.claimed.filter (fun e => e.1 != q) } })
    let rivals := x.disc.claims.filter (fun c => rangesMeet q w c.q c.w)
    if rivals.all (claimWins (d.origin t) q y d.now) then
      let d := d.modTree t (fun x => { x with disc := { x.disc with kept := x.disc.kept ++ [(q, w)] } })
      if ps.any (fun p => p.1 != d.dev.devAddr && ((d.nextHop p.1 none).isNone || !d.tickLocked p.1)) then (d.countTree t .qwUncoord).schedEvent t 4 none else d
    else (d.modTree t (fun x => { x with disc := { x.disc with yields := x.disc.yields + 1 } })).countTree t .qwYield

/-- The window of a tree that is put to Sluice at this boundary, as (tree, Q, W): Q = C + 5 (R119); a tree with partners only where it kept the window. -/
def Dev.windowDue (d : Dev) (t : Nat) (was : Bool) (ps : List (Nat × Nat)) : Option (Nat × Nat × Nat) :=
  let q := d.now + 5
  let x := d.tree t
  let w := x.disc.settings.width
  if d.wouldOpen t was q && (ps.isEmpty || x.disc.kept.contains (q, w)) then some (t, q, w) else none

/-- Sluice admits a window (R119, R169). -/
def Dev.admitWindow (d : Dev) (w : Nat × Nat × Nat) : Dev :=
  let o : QwOpen := { q := w.2.1, w := w.2.2, hails := [], collided := false, spoiled := [] }
  d.modTree w.1 (fun x => { x with
    disc := { x.disc with windows := x.disc.windows ++ [o], lastEnd := some (w.2.1 + w.2.2), yields := 0 } })

/-- A window opens at its tick Q (R118, R119): TREE.QW_OPENED, and the WINDOWS count of every listed terminal (R142). -/
def Dev.openWindow (d : Dev) (t : Nat) : Dev :=
  if (d.tree t).disc.windows.any (fun o => o.q == d.now) then
    (d.modTree t (fun x => { x with terms := x.terms.map (fun y => { y with windows := y.windows + 1 }) })).countTree t .qwOpened
  else d

/-- Wake ticks that fall in a quiet window move behind it, with the DOZE_END or REMOVE that waits for them (R135). -/
def Dev.moveWakes (d : Dev) (t : Nat) : Dev :=
  (d.tree t).disc.windows.foldl (fun (d : Dev) o =>
    let end_ := o.q + o.w
    let place (c : Nat) : Nat := if o.q ≤ c ∧ c < end_ then end_ else c
    (d.tree t).terms.foldl (fun (d : Dev) y =>
      match y.doze with
      | none => d
      | some z =>
        let move (m : LockMsg) : LockMsg :=
          if m.serial ≠ y.serial then m
          else if m.kind = .dozeEnd then
            { m with tick := m.tick.map place, notBefore := (m.tick.map place).elim m.notBefore (fun w => if some w = m.tick then m.notBefore else w - 4) }
          else if m.kind = .remove ∧ y.state = .dozing then { m with notBefore := place (m.notBefore + 4) - 4 }
          else m
        d.modTree t (fun x =>
          { (x.modTerm y.serial (fun v => { v with doze := some { z with nextWake := place z.nextWake, endAt := z.endAt.map place } })) with
            down := { x.down with lm := x.down.lm.map move } })) d) d

/-- TREE_PARAMS (R154). -/
def treeParamsMsg (w c : Nat) : LockMsg := lockMsg 0xFFFF 0x21 0 (be 1 w ++ be 1 0) none [] .plain .other 0 c

/-- QUIET_WINDOW_SET takes effect for the windows decided after this boundary (R139); a change of REACH goes to the terminals (R154). -/
def Dev.qwSettings (d : Dev) (t : Nat) : Dev :=
  let x := d.tree t
  match x.disc.settingsPend.getLast? with
  | none => d
  | some s =>
    let d := d.modTree t (fun x => { x with disc := { x.disc with settings := s, settingsPend := [] } })
    if s.reach = x.disc.settings.reach then d else d.modTree t (fun x => x.queueMsg (treeParamsMsg s.width d.now))

/-- What no later boundary needs goes. -/
def Dev.qwPrune (d : Dev) (t : Nat) : Dev :=
  d.modTree t (fun x => { x with
    disc := { x.disc with claims := x.disc.claims.filter (fun c => decide (d.now ≤ c.q + c.w)),
                          claimed := x.disc.claimed.filter (fun e => decide (d.now < e.1)),
                          kept := x.disc.kept.filter (fun e => decide (d.now + 5 < e.1)) },
    keep := { x.keep with confirms := x.keep.confirms.filter (fun c => decide (d.now ≤ c.2 + 1)) } })

/-- Quiet windows and Sluice at a boundary (R21 step 5); `was` lists the trees sealed before it. -/
def Dev.windowsBoundary (d : Dev) (was : List Nat) : Dev :=
  let ts := (tkeys d.trees).filter (fun t => d.treeUp t)
  let ps (t : Nat) : List (Nat × Nat) := d.partners d.prot.pairs t
  let sealed (t : Nat) : Bool := was.contains t
  let two := ts.filter (fun t => !(ps t).isEmpty)
  let d := two.foldl (fun (d : Dev) t => d.claimSettle t (ps t)) d
  let d := two.foldl (fun (d : Dev) t => d.claimSend t (sealed t) (ps t)) d
  let (got, d) := d.sluiceAdmit (ts.filterMap (fun t => d.windowDue t (sealed t) (ps t)))
  -- a tree whose wake is admitted at this boundary sends its first frame at the next, in time for a window of C + 5 (R136; log entry 108)
  let woken := ts.filter (fun t => (d.tree t).lanes.state == .waking d.now false)
  let (more, d) := d.admitWindows (woken.filterMap (fun t => d.windowDue t (sealed t) (ps t)))
  let got := got ++ more
  let d := got.foldl Dev.admitWindow d
  ts.foldl (fun (d : Dev) t => (((d.openWindow t).moveWakes t).qwSettings t).qwPrune t) d

/-! ### Messages and grants before a frame -/

/-- The standing set of a terminal whose ADMIT is queued returns (R126, R151, R532). -/
def Dev.setsReturn (d : Dev) (t : Nat) : Dev :=
  ((d.tree t).terms.filter (fun y => y.admitFrom.isSome && !y.setReturned)).foldl (fun (d : Dev) y =>
    if y.hasTable then d.putInForce t y.serial { weir := none, cads := [] } y.set none []
    else d.modTerm t y.serial (fun y => { y with setReturned := true })) d

/-- An offer of doze that was not confirmed ends once its START has passed (R134). -/
def Dev.dozesLapse (d : Dev) (t : Nat) : Dev :=
  ((d.tree t).terms.filter (fun y => y.doze.elim false (fun z => !z.confirmed && decide (z.start + 1 ≤ d.now)))).foldl (fun (d : Dev) y =>
    d.cancelDoze t y) d

/-- A downstream parcel of a terminal that was queued before its doze began needs the terminal (R135). -/
def Dev.dozeNeeded (d : Dev) (t : Nat) (y : Term) : Dev :=
  let waits := d.pool.flows.any (fun e => e.2.dir == 0 && e.2.tree == t && some e.2.id == y.id && e.2.serial == y.serial &&
    (List.range 8).any (fun k => !(d.queue (e.1 * 8 + k)).all.isEmpty))
  if y.dozes d.now && waits then d.endDoze t y else d

/-- Does a terminal meet the conditions of R133?
A weir-class flow of a terminal is a WEIR standing place or a berth of it (DESIGN CHOICE, log entry 115). -/
def Dev.mayDoze (d : Dev) (t : Nat) (y : Term) : Bool :=
  y.policy.enable && bitOf y.caps 2 && y.set.weir.isNone && y.state == .inService && y.doze.isNone && y.removing.isNone &&
    (d.port t).isNone && !(d.tree t).down.maps.any (fun m => m.2.any (fun b => some b.tid == y.id)) &&
    y.emptySince.elim false (fun e => decide (e + y.policy.idle * 64 ≤ d.now))

/-- DOZE_OFFER in frame C with START = C + 8, the confirm place in START − 1, and a wake place that R149 and R150 admit (R134). -/
def Dev.dozeOffer (d : Dev) (t : Nat) (y : Term) : Dev :=
  let tr := d.tree t
  match y.id, chooseStart tr.standing 1 0 (placeCost y.fecNeed 0) with
  | some id, some b =>
    let place : Standing := { tid := id, start := b, ncw := 0, fec := y.fecNeed, n := 1, phase := 0 }
    if !d.mayDoze t y || !d.loadOk t (place :: tr.standing) tr.keep.gq tr.keep.poll then d
    else
      let s := d.now + 8
      let z : Doze :=
        { period := y.policy.period, start := s, wakeB := b, confirmed := false, nextWake := s + y.policy.period, missed := 0, endAt := none,
          goneFrom := none }
      let m := lockMsg id 0x16 2 (be 2 z.period) (some s) (be 4 b) .oneTerminal .dozeOffer y.serial d.now
      d.modTree t (fun x =>
        let x := (x.modTerm y.serial (fun v => { v with doze := some z })).queueMsg m
        { x with keep := { x.keep with confirms := x.keep.confirms ++ [(id, s - 1)] } })
  | _, _ => d

/-- TERMINAL_STATUS (R88): in frames with C mod 8 = id mod 8, once the terminal holds its downstream SA; one that still waits carries the newest counts. -/
def Dev.statusMsg (d : Dev) (t : Nat) (y : Term) : Dev :=
  match y.id with
  | none => d
  | some id =>
    let admitted := y.serving d.now || y.state == .quarantined || y.state == .dozing
    if d.now % 8 ≠ id % 8 || !admitted || !(d.keys (globalIndex t id)).held d.now then d
    else
      let body := be 4 (y.bip8 % 2 ^ 32) ++ be 4 (y.darnBytes % 2 ^ 32) ++ be 4 (y.uncorrCw % 2 ^ 32) ++ be 2 (d.defectsOf true t id) ++ be 2 0
      let is (m : LockMsg) : Bool := m.typ == 0x01 && m.dest == id
      d.modTree t (fun x =>
        if x.down.lm.any is then { x with down := { x.down with lm := x.down.lm.map (fun m => if is m then { m with pre := body } else m) } }
        else x.queueMsg (lockMsg id 0x01 1 body none [] .plain .other y.serial d.now))

/-- The table in force of an IN_SERVICE terminal is repeated once every 64 ticks (R154). -/
def Dev.tableRepeat (d : Dev) (t : Nat) (y : Term) : Dev :=
  match y.id, (y.tables.filter (fun tb => decide (tb.from_ ≤ d.now))).getLast? with
  | some id, some tb =>
    if d.now % 64 ≠ id % 64 || !y.serving d.now || !tb.sent then d
    else
      let m := standingMsg y tb.version tb.from_ d.now 4 tb.set
      d.modTree t (fun x => x.queueMsg { m with rule := .plain, kind := .other })
  | _, _ => d

/-- The messages that a boundary queues for a lit tree. -/
def Dev.treeMessages (d : Dev) (t : Nat) : Dev :=
  let each (f : Dev → Term → Dev) (d : Dev) : Dev := (d.tree t).terms.foldl f d
  let d := d.setsReturn t
  let d := d.dozesLapse t
  let d := each (fun d y => d.dozeNeeded t y) d
  let d := each (fun d y => d.dozeOffer t y) d
  let d := each (fun d y => d.statusMsg t y) d
  let d := each (fun d y => d.tableRepeat t y) d
  let d := d.timeMessages t
  if d.now % 64 ≠ 0 then d
  else
    let d := d.modTree t (fun x => x.queueMsg (treeParamsMsg x.disc.settings.width d.now))
    if (d.port t).elim false (fun p => p.state = .holder) then
      d.modTree t (fun x => x.queueMsg (keyOriginMsg x.epoch (d.origin t) d.now)) else d

/-! ### The build of a tree (R158, R293, R301) -/

/-- A protected holder grants at least one place of an IN_SERVICE terminal in every tick outside quiet windows: a POLL place for the next one (R293). -/
def Dev.witnessPlace (d : Dev) (t : Nat) : Dev :=
  let x := d.tree t
  match d.port t, x.keep.building with
  | some p, some m =>
    let un := x.unlisted m.target
    let service (id : Nat) : Bool := (x.byId id).elim false (fun y => y.serving d.now)
    let ids := sortBy (fun (a b : Nat) => decide (a ≤ b)) ((x.terms.filter (fun y => y.serviceAt m.target && y.serving d.now)).filterMap (fun y => y.id))
    if !(p.state = .holder || p.move.elim false (fun k => k.gain)) || x.inWindow m.target || m.grants.any (fun g => service g.tid) || un.any (fun q => q.kind != 8 && service q.tid) then d
    else
      let next := (ids.find? (fun i => p.polled.elim true (fun k => decide (k < i)))).or ids.head?
      let spans := (x.reserved m.target).map (fun q => (q.lo, q.len)) ++ m.grants.map (fun g => (g.start - 320, placeCost (x.fecOf m.target g.tid) g.ncw))
      match next, lowestFit spans 1096 with
      | some id, some lo =>
        let g : Grant := { tid := id, start := lo + 320, ncw := 0, kind := 4, flow := 0, cls := 0, shares := [] }
        let grants := sortBy (fun (a c : Grant) => decide (a.start ≤ c.start)) (m.grants ++ [g])
        (d.modPort t (fun p => { p with polled := some id })).modTree t (fun x => { x with keep := { x.keep with building := some { m with grants } } })
      | _, _ => d
  | _, _ => d

/-- MANIFEST_BUILD of one tree for C + 5, where this device is the one that builds (R301, R304). -/
def Dev.buildNext (d : Dev) (t : Nat) : Dev :=
  let x := d.now + 5
  if !d.treeUp t || !d.mayBuild t x then d
  else if d.buildEmpty t x then
    let m : Manifest := { target := x, grants := [], missed := false }
    d.modTree t (fun y => { y with keep := { (y.keep.takeReports d.pool.flows t d.now).credits with building := some m } })
  else ((d.buildTree t).witnessPlace t).modTree t Tree.noteStates

/-! ### The boundary -/

/-- The points whose DRR level has an eligible queue at the end of the tick, and those on whose line it has sent in it (R225). -/
def Dev.starveSample (d : Dev) : Dev :=
  let now := Config.clocksPerTick
  let waits (p : Nat) : Bool := (d.linked p).any (fun q => decide (4 ≤ q % 8) && d.eligible p now q)
  -- a frame of the DRR level may go on in the tick for longer than its selection
  let sends (p : Nat) : Bool := (tget d.upl.ports p).elim false (fun x => x.tx.elim false (fun f => decide (4 ≤ f.cls) && decide (d.clk 0 < f.stop)))
  let points := tmap d.sched.points (fun p (x : Point) => { x with drrHad := x.drrHad || waits p, drrSent := x.drrSent || sends p })
  { d with sched := { d.sched with points } }

/-- Is the object of an instance of a group present and in use (R477)? -/
def Dev.instPresent (d : Dev) (g i : Nat) : Bool :=
  let term (i : Nat) : Bool := ((d.tree (i / 256)).byId (i % 256)).isSome
  match g with
  | 1 => d.treePresent i
  | 2 => term i
  | 3 => term (i / 2)
  | 4 => if i < 64 then d.treePresent i else if i < 72 then decide (i - 64 < d.uplinkCount) else true
  | 5 => (tget d.ctr.blocks (i / 64)).isSome
  | 6 => d.pointPresent i
  | 7 => (d.flow i).isSome
  | 8 => (tget d.sched.hists i).isSome
  | 10 => (tget d.fdb.domains i).isSome
  | 11 => if i < 0x4000 then term i else true
  | 12 => (tget d.cam.tables i).isSome
  | 13 => d.upPresent (if i = 32 then 0xA4 else 0x40 + i)
  | 14 => (tget d.sec.macsec i).isSome
  | 15 => d.prot.pairs.any (fun e => e.2.flowA == i / 2)
  | 16 => d.prot.ports.any (fun e => e.2.pgid == i)
  | 18 => (d.stream i).isSome
  | 19 => if i < 33 then d.upPresent (if i = 32 then 0xA4 else 0x40 + i) else true
  | _ => true

/-- A pipeline with both halves of its hold buffer held (R366) at a clock. -/
def Dev.bothHeld (d : Dev) (k clk : Nat) : Bool :=
  (lget d.sec.pipes k CipherPipe.reset).halfA.isSome && (lget d.sec.pipes k CipherPipe.reset).halfB.isSome ||
    (let g := if k < 11 then 0 else if k < 22 then 1 else 2
     let p := lget (lget d.sec.groups g (.reset 2)).run.2 (k - 11 * g) { input := 0, halfA := 0, halfB := 0 }
     decide (clk < p.halfA) && decide (clk < p.halfB))

/-- A condition of R479 at the end of the tick, for at least one instance in a range. Of condition 7 the whole tick is seen (R31). -/
def Dev.condition (d : Dev) (code first last : Nat) : Bool :=
  let last_ := Config.clocksPerTick - 1
  let within (i : Nat) : Bool := decide (first ≤ i) && decide (i ≤ last)
  match code with
  | 1 => d.pool.queues.any (fun e => within e.1 && !e.2.basin.isEmpty)
  | 2 => d.pool.queues.any (fun e => within e.1 && e.2.spilled)
  | 3 => (d.pool.queues.filter (fun e => !e.2.basin.isEmpty)).any (fun e =>
      let p := d.pointOf e.1
      within p && !(d.linked p).any (fun q => d.eligible p last_ q))
  | 4 => decide (2 ≤ d.pool.basinState.code)
  | 5 => decide (2 ≤ d.pool.resvState.code)
  | 6 => (d.tow.links.zip (List.range 8)).any (fun e => within e.2 && e.1.up && e.1.txq.any (fun u => !e.1.credit u))
  | 7 => d.pool.hbmFull
  | 8 => (within 0 && !d.cls.upRecirc.isEmpty) || (within 1 && !d.cls.downRecirc.isEmpty)
  | _ => (List.range 24).any (fun k => within k && d.bothHeld k (d.clk last_))

/-- What a condition counter adds in the ending tick: clocks in LEVEL, rises in EDGE. The model has no clock of 0.8 ns, so the number is free (log entry 4), with what
is known of it: LEVEL adds at least 1 where the condition holds, EDGE at least 1 where it has begun to hold, at most one for each clock of the longest tick (R13) or for every
second one, and condition 7 adds nothing in a tick in which the HBM slots were never all held (R31). -/
def condAdds (p : Prog) (holds : Bool) (v : Nat) : Nat :=
  let most := if p.mode = 2 then 312500 else 156250
  let least := b2n (holds && (p.mode == 2 || !p.held))
  if p.group = 7 ∧ !holds then 0 else least + v % (most - least)

/-- Condition counters add what their condition held in the ending tick. -/
def Dev.conditionCounts (d : Dev) : Dev :=
  d.ctr.progs.foldl (fun d e =>
    if e.2.mode ≠ 0 ∧ e.2.kind = 2 then
      let (v, d) := d.draw
      let holds := d.condition e.2.group e.2.first e.2.last
      let ps := progsBump d.ctr.progs (fun p => p.1 == e.1) (condAdds e.2 holds v)
      { d with ctr := { d.ctr with progs := tmod ps e.1 (fun p => { p with held := holds }) } }
    else d) d

/-- The tick that ends: a build not yet checked is (R165), the frames are sent, and condition counters add what they held. -/
def Dev.endTick (d : Dev) : Dev :=
  let ts := tkeys d.trees
  let d := ts.foldl (fun (d : Dev) t => if (d.tree t).keep.building.isSome then d.manifestTree t false else d) d
  let d := ts.foldl (fun (d : Dev) t => d.finishFrame t) d
  let d := d.conditionCounts.starveSample
  let hbmFull := decide (Config.hbmSlots ≤ d.pool.hbmUsed)
  { d with pool := { d.pool with hbmFull } }

/-- The cycle number and the key clock after the boundary (R20, R359): a number is loaded once, and not after the first attach. -/
def Clock.next (c : Clock) : Nat × Nat :=
  (match c.loadCycle with
    | some n => if c.cycleLoaded ∨ c.everAttached then c.cycle + 1 else n
    | none => c.cycle + 1, c.keyClock + 1)

/-- The cycle number advances, or takes the one loaded (R20), after 25,000 periods of 6.25 clocks; R13's lengthening ends with the tick it lengthened. -/
def Dev.advance (d : Dev) : Dev :=
  let c := d.clock
  let longer := if c.everAttached then 0 else c.lengthenTo.getD 0
  let c := { c with cycle := c.next.1, base := c.base + (25000 + longer) * 25 / 4, cycleLoaded := c.cycleLoaded || c.loadCycle.isSome }
  { d with clock := { c with loadCycle := none, lengthenTo := none, inBoundary := true }, ev := { d.ev with seen := [] } }

/-- Steps 1 to 3: snapshot, counters, the step of the time counter, rule sets. -/
def Dev.stepsOneToThree (d : Dev) (extra : Nat) (info : Option (Int × Nat × Nat)) : Dev :=
  let isStep (c : TimeChange) : Bool := match c with
    | .stepAbs _ _ => true
    | .stepRel _ _ => true
    | _ => false
  let step := d.time.pend.any isStep
  let d := { d with ctr := d.ctr.latch d.now d.instPresent }
  let d := d.applyCounters
  let dumps := d.ctr.dumpPend
  let d := dumps.foldl Dev.applyDumpSet { d with ctr := { d.ctr with dumpPend := [] } }
  let d := if step then d.closeAll true 0 else d
  let d := d.timeBoundary extra
  let d := if step then d.gatesStepped else d
  -- the servo, from which TIME_INFO comes, waits in a pause (R460)
  let d := (if d.host.idle then none else info).elim d (fun v => { d with time := { d.time with info := v } })
  d.versionSwitch

/-- Step 4 and the other applications of a boundary before Sluice; `heard` lists the trees whose receive lane showed energy in the tick that ended. -/
def Dev.stepFour (d : Dev) (heard : List Nat) : Dev :=
  let ts := tkeys d.trees
  let d := d.applyCfg
  let d := d.recBoundary.flowsBoundary.queueWrites.flushTick
  let d := d.offersBoundary.persist.pauseBoundary.releaseAttach
  let d := d.modUpd (fun u => { u with session := u.session.map (fun x => { x with idle := x.idle + 1 }) })
  let d := ts.foldl (fun (d : Dev) t => d.removalsBoundary t) d
  let d := ts.foldl (fun (d : Dev) t => d.lanesBoundary t) d
  let d := d.refBoundary.powerBoundary.txBoundary
  let d := d.blocksBoundary
  let d := ts.foldl (fun (d : Dev) t => if d.treeUp t then d.defectsBoundary t (heard.contains t) else d) d
  let d := ts.foldl (fun (d : Dev) t => d.leaseBoundary t (heard.contains t)) d
  let d := d.pulseSend.poolDown.poolAudit.creditBoundary.mgmtBoundary.bulkBoundary
  ts.foldl (fun (d : Dev) t => if (d.push t).running && (!d.treeUp t || d.offLease t) then d.endPush t 4 else d) d

/-- Step 6: the key clock, and what the keys do at a boundary. -/
def Dev.stepSix (d : Dev) : Dev :=
  let d := { d with clock := { d.clock with keyClock := d.clock.keyClock + 1 } }
  let d := d.rekeysBoundary.massDue
  (tkeys d.trees).foldl (fun (d : Dev) t =>
    if (d.tree t).lit then ((d.tree t).terms.foldl (fun (d : Dev) y => d.keysBoundary t y) d).flipKp t else d) d

/-- A change of a terminal's FEC setting: FEC_SET in frame C with FROM = C + 4 (R103, R125). The manual gives no command that changes it: the head-end's own
choice, an input of the boundary (log entry 77). A change that would bring standing places together, or a tree over its standing load, is not made (R149, R150). -/
def Dev.setFec (d : Dev) (v : Nat × Nat × Bool) : Dev :=
  match (d.tree v.1).byId v.2.1 with
  | none => d
  | some x =>
    let z := { x with fecSet := some (v.2.2, d.now + 4) }
    if !x.serving d.now ∨ x.fecSet.isSome ∨ x.fec = v.2.2 ∨ !(d.modTerm v.1 x.serial (fun _ => z)).standingFits v.1 z then d
    else
      d.modTree v.1 (fun y => (y.modTerm x.serial (fun z => { z with fecSet := some (v.2.2, d.now + 4) })).queueMsg
        (lockMsg v.2.1 0x18 2 (be 1 (b2n v.2.2) ++ be 1 0) (some (d.now + 4)) [] .oneTerminal .fecSet x.serial d.now))

/-- The pulses of TREE_BRST in the tick that begins (R50 to R52): those of the tree's places; at a standby, those of the places it hunts (R110). -/
def Dev.pulseBrst (d : Dev) (t : Nat) : Dev :=
  let x := d.tree t
  let places : Option Tree := match d.port t with
    | some p => if d.offLease t then d.mirrorTree p else some x
    | none => some x
  -- the receive lane of a standby that wakes is active already
  let hears := x.lanes.state = .lit ∨ x.lanes.state = .standby ∨ (x.lanes.state ≠ .idle ∧ d.offLease t ∧ !d.quiet t)
  let new := if hears then places.elim [] (fun y => y.guardPulses d.now) else []
  let brst := if x.lanes.state = .idle then [] else x.lanes.brst.filter (fun e => decide (d.now ≤ e.1)) ++ new
  d.modTree t (fun x => { x with lanes := { x.lanes with brst } })

/-- Step 7: messages, berth maps, frames and builds. -/
def Dev.stepSeven (d : Dev) (maps : List (Nat × List (Nat × Nat × Nat))) (fec : List (Nat × Nat × Bool)) : Dev :=
  let lit := (tkeys d.trees).filter (fun t => (d.tree t).lit)
  let d := (fec.filter (fun v => lit.contains v.1)).foldl Dev.setFec d
  let d := lit.foldl (fun (d : Dev) t => d.treeMessages t) d
  let d := { d with time := { d.time with infoSent := d.time.info } }
  let d := maps.foldl (fun (d : Dev) e =>
    if lit.contains e.1 then d.newMap e.1 (e.2.map (fun b => { tid := b.1, first := b.2.1, slots := b.2.2 })) else d) d
  let d := lit.foldl (fun (d : Dev) t => d.beginFrame t) d
  let d := (tkeys d.trees).foldl (fun (d : Dev) t => d.buildNext t) d
  (tkeys d.trees).foldl (fun (d : Dev) t => d.pulseBrst t) d

/-- Does the tick end? Not without main power, nor before a reference clocks the part (R36). -/
def Dev.ticks (d : Dev) : Bool := d.dev.power != .offVbat && d.clocked

/-- TICK_BOUNDARY (R21). -/
def tickBoundary (i : TickIn) (d : Dev) : Dev :=
  if !d.ticks then d
  else
    let next := d.clock.next
    let heard := (tkeys d.trees).filter (fun t => i.line.any (fun e => e.1 == t && anyEnergy e.2) || (d.line t).energy)
    let was := (tkeys d.trees).filter (fun t => (d.tree t).sealed)
    let extra := if d.clock.everAttached then 0 else d.clock.lengthenTo.getD 0
    let d := d.endTick.advance
    let d := d.stepsOneToThree extra i.timeInfo
    let d := (d.stepFour heard).thermal i.tj
    let d := (d.windowsBoundary was).stepSix
    let d := (d.stepSeven i.maps i.fec).dumpStart
    let points := tmap d.sched.points (fun _ (p : Point) => p.tick)
    -- the queues of the DRR level that this boundary has freed or held back (R208, R209)
    ({ d with sched := { d.sched with points }, clock := { d.clock with cycle := next.1, keyClock := next.2, inBoundary := false } }).syncDrr 0 (fun _ => true)
def execTickBoundary (i : TickIn) (s : State) : Host.Outcome State Fault Refusal := s.onDev (tickBoundary i)

end Sys2Proof.Machine
end

