-- ==== Sys2Proof/Machine/Dispatch.lean ====
section
/-!
DEFINITION. The meaning of every command, one arm each.
-/
namespace Sys2Proof.Machine
open Sys2Proof

/-- What a command does to everything but the queue. -/
def exec (i : Instr) (s : State) : Host.Outcome State Fault Refusal :=
  match i with
  | .tickBoundary input => Sys2Proof.Machine.execTickBoundary input s
  | .manifestDeadline missed => Sys2Proof.Machine.execManifestDeadline missed s
  | .quietWindowEnd tree => Sys2Proof.Machine.execQuietWindowEnd tree s
  | .errorBlockEnd => Sys2Proof.Machine.execErrorBlockEnd s
  | .pmSecondEnd => Sys2Proof.Machine.execPmSecondEnd s
  | .counterDumpDone => Sys2Proof.Machine.execCounterDumpDone s
  | .namedTickReached tree => Sys2Proof.Machine.execNamedTickReached tree s
  | .rekeyErase tree id => Sys2Proof.Machine.execRekeyErase tree id s
  | .bargeReceive r => Sys2Proof.Machine.execBargeReceive r s
  | .reasmTimeout tree id => Sys2Proof.Machine.execReasmTimeout tree id s
  | .hailReceive r => Sys2Proof.Machine.execHailReceive r s
  | .terminalLost tree serial => Sys2Proof.Machine.execTerminalLost tree serial s
  | .idHoldExpiry tree id => Sys2Proof.Machine.execIdHoldExpiry tree id s
  | .upstreamParcel lane now => Sys2Proof.Machine.execUpstreamParcel lane now s
  | .cipherTagVerify => Sys2Proof.Machine.execCipherTagVerify s
  | .uplinkFrameRx r => Sys2Proof.Machine.execUplinkFrameRx r s
  | .recirculationPass pipeline now => Sys2Proof.Machine.execRecirculationPass pipeline now s
  | .recircTimeout pipeline now => Sys2Proof.Machine.execRecircTimeout pipeline now s
  | .fdbLearn => Sys2Proof.Machine.execFdbLearn s
  | .fdbAgeSweep => Sys2Proof.Machine.execFdbAgeSweep s
  | .spillWriteComplete queue frame => Sys2Proof.Machine.execSpillWriteComplete queue frame s
  | .refillClaimGrant => Sys2Proof.Machine.execRefillClaimGrant s
  | .refillReadComplete queue frame => Sys2Proof.Machine.execRefillReadComplete queue frame s
  | .hbmUncorrectableFault => Sys2Proof.Machine.execHbmUncorrectableFault s
  | .egressSelect o => Sys2Proof.Machine.execEgressSelect o s
  | .fragmentAbort tree => Sys2Proof.Machine.execFragmentAbort tree s
  | .calendarSlot slot => Sys2Proof.Machine.execCalendarSlot slot s
  | .drrStarve point => Sys2Proof.Machine.execDrrStarve point s
  | .gateListEntry port now => Sys2Proof.Machine.execGateListEntry port now s
  | .gateListOperational port now => Sys2Proof.Machine.execGateListOperational port now s
  | .preemptVerify port ok => Sys2Proof.Machine.execPreemptVerify port ok s
  | .lpiEntry port now => Sys2Proof.Machine.execLpiEntry port now s
  | .uplinkLinkChange port up speed => Sys2Proof.Machine.execUplinkLinkChange port up speed s
  | .hostTxFetch o => Sys2Proof.Machine.execHostTxFetch o s
  | .doorbellLo o => Sys2Proof.Machine.execDoorbellLo o s
  | .mailboxComplete ctx => Sys2Proof.Machine.execMailboxComplete ctx s
  | .cycleLoRead => Sys2Proof.Machine.execCycleLoRead s
  | .snapLoRead => Sys2Proof.Machine.execSnapLoRead s
  | .eventRingCtrlWrite ring value => Sys2Proof.Machine.execEventRingCtrlWrite ring value s
  | .registerWrite off value => Sys2Proof.Machine.execRegisterWrite off value s
  | .eventRaise now => Sys2Proof.Machine.execEventRaise now s
  | .eventCoalesceExpiry ring now => Sys2Proof.Machine.execEventCoalesceExpiry ring now s
  | .sysInfo ctx => Sys2Proof.Machine.execSysInfo ctx s
  | .sysResetSystem ctx confirm => Sys2Proof.Machine.execSysResetSystem ctx confirm s
  | .sysResetManagement ctx confirm => Sys2Proof.Machine.execSysResetManagement ctx confirm s
  | .boardProfileLoad ctx r => Sys2Proof.Machine.execBoardProfileLoad ctx r s
  | .powerStateSet ctx state => Sys2Proof.Machine.execPowerStateSet ctx state s
  | .sluiceBudgetSet ctx r => Sys2Proof.Machine.execSluiceBudgetSet ctx r s
  | .sluiceStatus ctx => Sys2Proof.Machine.execSluiceStatus ctx s
  | .treeAttach ctx tree sealIt => Sys2Proof.Machine.execTreeAttach ctx tree sealIt s
  | .treeDetach ctx tree => Sys2Proof.Machine.execTreeDetach ctx tree s
  | .treeConfig ctx r => Sys2Proof.Machine.execTreeConfig ctx r s
  | .treeStatus ctx tree => Sys2Proof.Machine.execTreeStatus ctx tree s
  | .treeSeal ctx tree => Sys2Proof.Machine.execTreeSeal ctx tree s
  | .treeUnseal ctx tree => Sys2Proof.Machine.execTreeUnseal ctx tree s
  | .quietWindowSet ctx r => Sys2Proof.Machine.execQuietWindowSet ctx r s
  | .terminalAdmit ctx r => Sys2Proof.Machine.execTerminalAdmit ctx r s
  | .terminalRemove ctx r => Sys2Proof.Machine.execTerminalRemove ctx r s
  | .terminalStatus ctx n => Sys2Proof.Machine.execTerminalStatus ctx n s
  | .terminalDozePolicy ctx r => Sys2Proof.Machine.execTerminalDozePolicy ctx r s
  | .rangeReport ctx tree first => Sys2Proof.Machine.execRangeReport ctx tree first s
  | .flowCreate ctx r => Sys2Proof.Machine.execFlowCreate ctx r s
  | .flowDelete ctx r => Sys2Proof.Machine.execFlowDelete ctx r s
  | .grantSetWeir ctx r => Sys2Proof.Machine.execGrantSetWeir ctx r s
  | .grantSetCadence ctx r => Sys2Proof.Machine.execGrantSetCadence ctx r s
  | .grantSetReported ctx r => Sys2Proof.Machine.execGrantSetReported ctx r s
  | .grantSetBest ctx r => Sys2Proof.Machine.execGrantSetBest ctx r s
  | .grantSetDefault ctx r => Sys2Proof.Machine.execGrantSetDefault ctx r s
  | .grantSetTreeParams ctx tree poll => Sys2Proof.Machine.execGrantSetTreeParams ctx tree poll s
  | .queueConfigProfileSet ctx r => Sys2Proof.Machine.execQueueConfigProfileSet ctx r s
  | .queueConfigBind ctx r => Sys2Proof.Machine.execQueueConfigBind ctx r s
  | .shaperSet ctx r => Sys2Proof.Machine.execShaperSet ctx r s
  | .schedConfigQuantum ctx r => Sys2Proof.Machine.execSchedConfigQuantum ctx r s
  | .schedConfigPoint ctx r => Sys2Proof.Machine.execSchedConfigPoint ctx r s
  | .schedConfigHist ctx r => Sys2Proof.Machine.execSchedConfigHist ctx r s
  | .feederPolicy ctx r => Sys2Proof.Machine.execFeederPolicy ctx r s
  | .poolConfigWrite ctx r => Sys2Proof.Machine.execPoolConfigWrite ctx r s
  | .poolConfigRead ctx => Sys2Proof.Machine.execPoolConfigRead ctx s
  | .gateListSetList ctx r => Sys2Proof.Machine.execGateListSetList ctx r s
  | .gateListSetPort ctx r => Sys2Proof.Machine.execGateListSetPort ctx r s
  | .gateListSetSteer ctx r => Sys2Proof.Machine.execGateListSetSteer ctx r s
  | .parseGraphLoad ctx r => Sys2Proof.Machine.execParseGraphLoad ctx r s
  | .rulesetStageBegin ctx r => Sys2Proof.Machine.execRulesetStageBegin ctx r s
  | .rulesetStageAdd ctx slot rules => Sys2Proof.Machine.execRulesetStageAdd ctx slot rules s
  | .rulesetStageBuild ctx slot => Sys2Proof.Machine.execRulesetStageBuild ctx slot s
  | .rulesetCompileDone slot words => Sys2Proof.Machine.execRulesetCompileDone slot words s
  | .rulesetStageFree ctx slot => Sys2Proof.Machine.execRulesetStageFree ctx slot s
  | .rulesetCommit ctx slot keep => Sys2Proof.Machine.execRulesetCommit ctx slot keep s
  | .rulesetStatus ctx => Sys2Proof.Machine.execRulesetStatus ctx s
  | .fdbConfigGlobal ctx r => Sys2Proof.Machine.execFdbConfigGlobal ctx r s
  | .fdbConfigDomain ctx r => Sys2Proof.Machine.execFdbConfigDomain ctx r s
  | .fdbConfigMember ctx r => Sys2Proof.Machine.execFdbConfigMember ctx r s
  | .fdbConfigLimit ctx r => Sys2Proof.Machine.execFdbConfigLimit ctx r s
  | .fdbEntryAdd ctx r => Sys2Proof.Machine.execFdbEntryAdd ctx r s
  | .fdbEntryDelete ctx fid mac => Sys2Proof.Machine.execFdbEntryDelete ctx fid mac s
  | .fdbEntryReadKey ctx fid mac => Sys2Proof.Machine.execFdbEntryReadKey ctx fid mac s
  | .fdbEntryFlush ctx r => Sys2Proof.Machine.execFdbEntryFlush ctx r s
  | .fdbEntryReadIndex ctx index count => Sys2Proof.Machine.execFdbEntryReadIndex ctx index count s
  | .camLayout ctx r => Sys2Proof.Machine.execCamLayout ctx r s
  | .camEntryWrite ctx r => Sys2Proof.Machine.execCamEntryWrite ctx r s
  | .camEntryInvalidate ctx table index => Sys2Proof.Machine.execCamEntryInvalidate ctx table index s
  | .camEntryRead ctx table index => Sys2Proof.Machine.execCamEntryRead ctx table index s
  | .saInstall ctx r => Sys2Proof.Machine.execSaInstall ctx r s
  | .saRekeyTerminal ctx tree id => Sys2Proof.Machine.execSaRekeyTerminal ctx tree id s
  | .saRekeyTree ctx tree => Sys2Proof.Machine.execSaRekeyTree ctx tree s
  | .saRekeyDevice ctx => Sys2Proof.Machine.execSaRekeyDevice ctx s
  | .saRekeyTxSwitch ctx uplink sa => Sys2Proof.Machine.execSaRekeyTxSwitch ctx uplink sa s
  | .saRekeySaDelete ctx uplink sa => Sys2Proof.Machine.execSaRekeySaDelete ctx uplink sa s
  | .saStatus ctx kind unit_ index => Sys2Proof.Machine.execSaStatus ctx kind unit_ index s
  | .tamperPolicySet ctx r => Sys2Proof.Machine.execTamperPolicySet ctx r s
  | .tamperPolicyRead ctx => Sys2Proof.Machine.execTamperPolicyRead ctx s
  | .tamperPolicyReadLog ctx => Sys2Proof.Machine.execTamperPolicyReadLog ctx s
  | .lifecycleProvision ctx r => Sys2Proof.Machine.execLifecycleProvision ctx r s
  | .lifecycleSecure ctx r => Sys2Proof.Machine.execLifecycleSecure ctx r s
  | .lifecycleClearAlarm ctx r => Sys2Proof.Machine.execLifecycleClearAlarm ctx r s
  | .lifecycleDecommission ctx r => Sys2Proof.Machine.execLifecycleDecommission ctx r s
  | .lifecycleRekeyOwner ctx r => Sys2Proof.Machine.execLifecycleRekeyOwner ctx r s
  | .debugChallengeIssue ctx => Sys2Proof.Machine.execDebugChallengeIssue ctx s
  | .debugOpenSigned ctx r => Sys2Proof.Machine.execDebugOpenSigned ctx r s
  | .debugClose ctx => Sys2Proof.Machine.execDebugClose ctx s
  | .debugOpen ctx => Sys2Proof.Machine.execDebugOpen ctx s
  | .debugWindowExpiry => Sys2Proof.Machine.execDebugWindowExpiry s
  | .timeConfigClock ctx r => Sys2Proof.Machine.execTimeConfigClock ctx r s
  | .timeConfigPort ctx r => Sys2Proof.Machine.execTimeConfigPort ctx r s
  | .timeConfigTree ctx r => Sys2Proof.Machine.execTimeConfigTree ctx r s
  | .timeConfigStatus ctx => Sys2Proof.Machine.execTimeConfigStatus ctx s
  | .timeIncrementSetIncrement ctx inc now => Sys2Proof.Machine.execTimeIncrementSetIncrement ctx inc now s
  | .timeIncrementSetStepAbs ctx sec ns => Sys2Proof.Machine.execTimeIncrementSetStepAbs ctx sec ns s
  | .timeIncrementSetStepRel ctx offset => Sys2Proof.Machine.execTimeIncrementSetStepRel ctx offset s
  | .tevScheduleMode ctx r => Sys2Proof.Machine.execTevScheduleMode ctx r s
  | .tevScheduleAdd ctx r now => Sys2Proof.Machine.execTevScheduleAdd ctx r now s
  | .tevScheduleCancelAll ctx pin => Sys2Proof.Machine.execTevScheduleCancelAll ctx pin s
  | .netTriggerSet ctx r => Sys2Proof.Machine.execNetTriggerSet ctx r s
  | .netTriggerCancel ctx r => Sys2Proof.Machine.execNetTriggerCancel ctx r s
  | .protGroupCreate ctx r => Sys2Proof.Machine.execProtGroupCreate ctx r s
  | .protGroupDelete ctx pgid => Sys2Proof.Machine.execProtGroupDelete ctx pgid s
  | .leaseStatus ctx pgid => Sys2Proof.Machine.execLeaseStatus ctx pgid s
  | .leaseDrillDrill ctx r => Sys2Proof.Machine.execLeaseDrillDrill ctx r s
  | .leaseDrillCalibrate ctx r => Sys2Proof.Machine.execLeaseDrillCalibrate ctx r s
  | .leaseDrillMove ctx r => Sys2Proof.Machine.execLeaseDrillMove ctx r s
  | .drillDwellExpiry r => Sys2Proof.Machine.execDrillDwellExpiry r s
  | .calMeanUpdate tree => Sys2Proof.Machine.execCalMeanUpdate tree s
  | .twinFlowSet ctx r => Sys2Proof.Machine.execTwinFlowSet ctx r s
  | .twinFlowClear ctx devA flowA => Sys2Proof.Machine.execTwinFlowClear ctx devA flowA s
  | .towpathConfigLink ctx r => Sys2Proof.Machine.execTowpathConfigLink ctx r s
  | .towpathConfigFabric ctx r => Sys2Proof.Machine.execTowpathConfigFabric ctx r s
  | .towpathTopologyLinks ctx => Sys2Proof.Machine.execTowpathTopologyLinks ctx s
  | .towpathTopologyRoutes ctx => Sys2Proof.Machine.execTowpathTopologyRoutes ctx s
  | .towpathTopologyDevices ctx => Sys2Proof.Machine.execTowpathTopologyDevices ctx s
  | .recorderConfigGlobal ctx r => Sys2Proof.Machine.execRecorderConfigGlobal ctx r s
  | .recorderConfigStream ctx r => Sys2Proof.Machine.execRecorderConfigStream ctx r s
  | .recorderConfigRule ctx r => Sys2Proof.Machine.execRecorderConfigRule ctx r s
  | .recorderConfigStore ctx r => Sys2Proof.Machine.execRecorderConfigStore ctx r s
  | .recorderTrigger ctx tag => Sys2Proof.Machine.execRecorderTrigger ctx tag s
  | .recorderIndexList ctx id count => Sys2Proof.Machine.execRecorderIndexList ctx id count s
  | .recorderIndexKeep ctx id => Sys2Proof.Machine.execRecorderIndexKeep ctx id s
  | .recorderIndexUnkeep ctx id => Sys2Proof.Machine.execRecorderIndexUnkeep ctx id s
  | .recorderIndexDelete ctx id => Sys2Proof.Machine.execRecorderIndexDelete ctx id s
  | .recorderIndexReadPile ctx id pile addr => Sys2Proof.Machine.execRecorderIndexReadPile ctx id pile addr s
  | .foldBlockTimeout stream now => Sys2Proof.Machine.execFoldBlockTimeout stream now s
  | .pileTimeout now => Sys2Proof.Machine.execPileTimeout now s
  | .captureEnd id now => Sys2Proof.Machine.execCaptureEnd id now s
  | .nvmeCompletion r => Sys2Proof.Machine.execNvmeCompletion r s
  | .imageOpen ctx r => Sys2Proof.Machine.execImageOpen ctx r s
  | .imageOpenAgent ctx r => Sys2Proof.Machine.execImageOpenAgent ctx r s
  | .imageBlock ctx r => Sys2Proof.Machine.execImageBlock ctx r s
  | .imageVerifyDone => Sys2Proof.Machine.execImageVerifyDone s
  | .imageStatus ctx => Sys2Proof.Machine.execImageStatus ctx s
  | .imageActivate ctx => Sys2Proof.Machine.execImageActivate ctx s
  | .pauseEnd readable now => Sys2Proof.Machine.execPauseEnd readable now s
  | .imageCommit ctx => Sys2Proof.Machine.execImageCommit ctx s
  | .imageAbortSession ctx => Sys2Proof.Machine.execImageAbortSession ctx s
  | .imageAbortRollback ctx => Sys2Proof.Machine.execImageAbortRollback ctx s
  | .trialExpiry => Sys2Proof.Machine.execTrialExpiry s
  | .bitmapPersist => Sys2Proof.Machine.execBitmapPersist s
  | .inbandFrameRx flashFails => Sys2Proof.Machine.execInbandFrameRx flashFails s
  | .terminalImagePushStart ctx r => Sys2Proof.Machine.execTerminalImagePushStart ctx r s
  | .terminalImagePushStatus ctx tree => Sys2Proof.Machine.execTerminalImagePushStatus ctx tree s
  | .terminalImagePushCancel ctx tree => Sys2Proof.Machine.execTerminalImagePushCancel ctx tree s
  | .terminalImagePushActivate ctx tree at_ => Sys2Proof.Machine.execTerminalImagePushActivate ctx tree at_ s
  | .tswReportRx => Sys2Proof.Machine.execTswReportRx s
  | .tswQueryTimeout tree => Sys2Proof.Machine.execTswQueryTimeout tree s
  | .counterDumpSet ctx r => Sys2Proof.Machine.execCounterDumpSet ctx r s
  | .counterSelectProgram ctx r => Sys2Proof.Machine.execCounterSelectProgram ctx r s
  | .counterSelectClear ctx r => Sys2Proof.Machine.execCounterSelectClear ctx r s
  | .counterSelectQueueBlock ctx r => Sys2Proof.Machine.execCounterSelectQueueBlock ctx r s
  | .counterSelectWindow ctx r => Sys2Proof.Machine.execCounterSelectWindow ctx r s
  | .counterSelectCatalog ctx group => Sys2Proof.Machine.execCounterSelectCatalog ctx group s
  | .eventRoute ctx r => Sys2Proof.Machine.execEventRoute ctx r s
  | .pmReadRead ctx r => Sys2Proof.Machine.execPmReadRead ctx r s
  | .pmReadConfig ctx r => Sys2Proof.Machine.execPmReadConfig ctx r s
  | .debugStatus ctx => Sys2Proof.Machine.execDebugStatus ctx s
  | .powerOnReset p => Sys2Proof.Machine.execPowerOnReset p s
  | .systemReset cause => Sys2Proof.Machine.execSystemReset cause s
  | .mainRailsLost => Sys2Proof.Machine.execMainRailsLost s
  | .managementRestart core => Sys2Proof.Machine.execManagementRestart core s
  | .hostInterfaceReset cause => Sys2Proof.Machine.execHostInterfaceReset cause s
  | .refclkFail reference => Sys2Proof.Machine.execRefclkFail reference s
  | .refclkRestore a b => Sys2Proof.Machine.execRefclkRestore a b s
  | .timeSourceLost => Sys2Proof.Machine.execTimeSourceLost s
  | .timeSourceRegained => Sys2Proof.Machine.execTimeSourceRegained s
  | .holdoverLimit => Sys2Proof.Machine.execHoldoverLimit s
  | .ppsInEdge now => Sys2Proof.Machine.execPpsInEdge now s
  | .servoUpdate o => Sys2Proof.Machine.execServoUpdate o s
  | .ppsOutPulse now => Sys2Proof.Machine.execPpsOutPulse now s
  | .tevFire pin now => Sys2Proof.Machine.execTevFire pin now s
  | .tevCapture pin rising now => Sys2Proof.Machine.execTevCapture pin rising now s
  | .tickAlign given cycle => Sys2Proof.Machine.execTickAlign given cycle s
  | .tamperDetect sources seconds => Sys2Proof.Machine.execTamperDetect sources seconds s
  | .keeperPulseRx r => Sys2Proof.Machine.execKeeperPulseRx r s
  | .leaseExpiry tree => Sys2Proof.Machine.execLeaseExpiry tree s
  | .leaseInitTimeout tree => Sys2Proof.Machine.execLeaseInitTimeout tree s
  | .leasePathTimeout tree => Sys2Proof.Machine.execLeasePathTimeout tree s
  | .leaseHeartbeatRx r => Sys2Proof.Machine.execLeaseHeartbeatRx r s
  | .trainUnitRx r => Sys2Proof.Machine.execTrainUnitRx r s
  | .trainingTimeout link now => Sys2Proof.Machine.execTrainingTimeout link now s
  | .backoffExpiry link now => Sys2Proof.Machine.execBackoffExpiry link now s
  | .dormantWake link => Sys2Proof.Machine.execDormantWake link s
  | .helloTimeout link now => Sys2Proof.Machine.execHelloTimeout link now s
  | .blockLockLoss link now => Sys2Proof.Machine.execBlockLockLoss link now s
  | .helloSend => Sys2Proof.Machine.execHelloSend s
  | .helloRx r => Sys2Proof.Machine.execHelloRx r s
  | .lsaFlood now => Sys2Proof.Machine.execLsaFlood now s
  | .lsaRx r => Sys2Proof.Machine.execLsaRx r s
  | .lsaExpiry now => Sys2Proof.Machine.execLsaExpiry now s
  | .routeRecompute => Sys2Proof.Machine.execRouteRecompute s
  | .creditAdvertiseRx link cls limit => Sys2Proof.Machine.execCreditAdvertiseRx link cls limit s
  | .towpathDataRx r lane => Sys2Proof.Machine.execTowpathDataRx r lane s
  | .twinUnitRx r => Sys2Proof.Machine.execTwinUnitRx r s
  | .claimRx r => Sys2Proof.Machine.execClaimRx r s
  | .mirrorRx r m => Sys2Proof.Machine.execMirrorRx r m s
  | .bulkSegmentRx r => Sys2Proof.Machine.execBulkSegmentRx r s
  | .bulkSegmentTimeout src object now => Sys2Proof.Machine.execBulkSegmentTimeout src object now s
  | .voidRx r => Sys2Proof.Machine.execVoidRx r s
  | .mgmtUnitRx r => Sys2Proof.Machine.execMgmtUnitRx r s
  | .laneWakeFail tree => Sys2Proof.Machine.execLaneWakeFail tree s
  | .wakeRetry tree => Sys2Proof.Machine.execWakeRetry tree s
  | .wakeSeriesRestart tree => Sys2Proof.Machine.execWakeSeriesRestart tree s
  | .modulePoll r => Sys2Proof.Machine.execModulePoll r s
  | .sluiceWait => Sys2Proof.Machine.execSluiceWait s
  | .sluiceWaitLimit => Sys2Proof.Machine.execSluiceWaitLimit s
  | .hbmRinseStart => Sys2Proof.Machine.execHbmRinseStart s
  | .hbmRinseDone clean => Sys2Proof.Machine.execHbmRinseDone clean s
  | .camVerifyRewrite table index eccBad => Sys2Proof.Machine.execCamVerifyRewrite table index eccBad s
  | .tapDbgAuth r => Sys2Proof.Machine.execTapDbgAuth r s
  | .tapExtest => Sys2Proof.Machine.execTapExtest s
  | .tapSamplePreload pins preload => Sys2Proof.Machine.execTapSamplePreload pins preload s
  | .coreHalt core => Sys2Proof.Machine.execCoreHalt core s
  | .coreResume core => Sys2Proof.Machine.execCoreResume core s
  | .coreSingleStep core => Sys2Proof.Machine.execCoreSingleStep core s
  | .breakpointHit r => Sys2Proof.Machine.execBreakpointHit r s
  | .systemMemoryAccess r => Sys2Proof.Machine.execSystemMemoryAccess r s
  | .evtReady => Sys2Proof.Machine.execEvtReady s
  | .settingsRestore => Sys2Proof.Machine.execSettingsRestore s
  | .adesaFatal => Sys2Proof.Machine.execAdesaFatal s
  | .rollbackPauseEnd now => Sys2Proof.Machine.execRollbackPauseEnd now s
  | .nvmeLinkChange up => Sys2Proof.Machine.execNvmeLinkChange up s
  | .vbatFall => Sys2Proof.Machine.execVbatFall s
  | .towpathLinkEgressSlot link now => Sys2Proof.Machine.execTowpathLinkEgressSlot link now s
  | .unitCrcDrop link => Sys2Proof.Machine.execUnitCrcDrop link s
  | .alignWaitExpiry => Sys2Proof.Machine.execAlignWaitExpiry s
  | .tableRebuildDone job => Sys2Proof.Machine.execTableRebuildDone job s
  | .ptpMessageInterval port event => Sys2Proof.Machine.execPtpMessageInterval port event s
  | .d3hotTransition d3 => Sys2Proof.Machine.execD3hotTransition d3 s

end Sys2Proof.Machine
end

