-- ==== Sys2Proof/Safety.lean ====
section
/-!
DEFINITION. The terms in which statements about the block are made: what a safe run is, and the names for a mailbox command that begins, is answered or
waits for a boundary.
-/
namespace Sys2Proof.Machine
open Sys2Proof

/-- The reference that the next mailbox command of a context gets (R440). -/
def Dev.refOf (d : Dev) (ctx : Nat) : CmdRef := { ctx, id := d.host.nextCmd }

/-- The device when the next command of a context has begun and has no status yet. -/
def Dev.begun (d : Dev) (ctx : Nat) : Dev := d.begin (d.refOf ctx)

/-- The state with another device: the queue and host memory stay. -/
def State.withDev (s : State) (d : Dev) : State := { s with dev := d }

/-- The state after a command of a context that completes at once, with nothing else changed. -/
def State.answered (s : State) (ctx : Nat) (st : Status) (resp : Bytes) : State :=
  s.withDev ((s.dev.begun ctx).complete (s.dev.refOf ctx) st resp)

/-- The state after a command of a context that completes OK at once and changes the device by `f`. -/
def State.done (s : State) (ctx : Nat) (f : Dev → Dev) (resp : Bytes) : State :=
  s.withDev ((f (s.dev.begun ctx)).complete (s.dev.refOf ctx) .ok resp)

/-- The state after a command of a context whose change `c` waits for the next boundary (R21 step 4). -/
def State.waiting (s : State) (ctx : Nat) (c : CfgChange) : State := s.withDev ((s.dev.begun ctx).later c)

/-- A terminal as it stands right after TERMINAL_ADMIT has listed it (R126, R141). -/
def Term.isFresh (x : Term) : Bool := x.state == .listed && x.id.isNone && x.rangingPlaces.isEmpty && x.tables.isEmpty

/-- A safe outcome: the block goes on. -/
def safe (o : Host.Outcome State Fault Refusal) : Bool :=
  match o with
  | .next _ => true
  | .fault _ => false
  | .refused _ => false

/-- The commands that act on host memory: those that write to it by DMA. -/
def touchesHost : Instr → Bool
  | .counterDumpDone => true
  | .egressSelect _ => true
  | .hostTxFetch _ => true
  | .doorbellLo _ => true
  | .mailboxComplete _ => true
  | .eventRaise _ => true
  | .nvmeCompletion _ => true
  | .pauseEnd _ _ => true
  | .rollbackPauseEnd _ => true
  | .d3hotTransition _ => true
  | .systemMemoryAccess _ => true
  | _ => false

end Sys2Proof.Machine
end

