-- ==== Sys2Proof/Certificates/Slice0/Obligations.lean ====
section
/-!
DEFINITION. The statements for the provers. Each is a proposition about the commands of the block, as its title in OBLIGATIONS.json says.
-/
open Sys2Proof Sys2Proof.Machine

/-- For every command and state, the step of the state with the command at the front of its queue is exec of that command on the state with the rest
of the queue; on an empty queue the block idles, which is the model's choice (log entry 5). (00_scope.md, 01_architecture.md) -/
def Obligations.StepRunsFrontCommand : Prop :=
  (∀ (c : Instr) (rest : List Instr) (s : State), step { s with pending := c :: rest } = exec c { s with pending := rest }) ∧
  (∀ s : State, s.pending = [] → step s = .next s)

/-- For every command and every state, exec answers a next state, never a fault or a refusal, and that state has the queue it was given. (00_scope.md,
18_host_mailboxes.md) -/
def Obligations.EveryCommandGoesOn : Prop :=
  (∀ (c : Instr) (s : State), ∃ t, exec c s = .next t ∧ t.pending = s.pending)

/-- A command that is none of COUNTER_DUMP_DONE, EGRESS_SELECT, HOST_TX_FETCH, DOORBELL_LO, MAILBOX_COMPLETE, EVENT_RAISE, NVME_COMPLETION, PAUSE_END,
ROLLBACK_PAUSE_END, D3HOT_TRANSITION and SYSTEM_MEMORY_ACCESS leaves every byte of host memory as it was. (18_host_mailboxes.md, 20_counters.md,
17_recorder.md) -/
def Obligations.OnlyDmaCommandsWriteHostMemory : Prop :=
  (∀ (c : Instr) (s t : State), touchesHost c = false → exec c s = .next t → ∀ a, memRead t.hostMem a = memRead s.hostMem a)

/-- Host memory as the device has written it is a list of cells with strictly rising addresses, and every step from every state that has this form
leads to one that has it. (18_host_mailboxes.md, 20_counters.md, 17_recorder.md) -/
def Obligations.HostMemoryFormIsKept : Prop :=
  (∀ s t : State, memWf s.hostMem = true → step s = .next t → memWf t.hostMem = true)

/-- A tick boundary of a clocked part runs the steps of R21 in their order, then advances the key clock by one and the cycle number, by one where no
cycle number is loaded; without a clock nothing happens. The manifest deadline releases or replaces the build of every tree, in tree order; a build
whose every entry passes the check is released as it stands and ends. The end of a block given in its last tick is marked for the boundary that
follows; at C mod 4,000 = 0 the block of every attached tree ends, where that boundary has not ended it, then every holder is tested for release; at C
mod 8,000 = 0 the second of every attached tree ends. When a named tick is reached the changes of that tick are made for every terminal of the tree;
one that makes a terminal IN_SERVICE alone admits it. (R20, R21, R64, R166, R318, R325, R327, 01_architecture.md) -/
def Obligations.TickBoundaryAdvances : Prop :=
  (∀ (i : TickIn) (s : State), s.dev.ticks = true →
    ∃ d, exec (.tickBoundary i) s = .next (s.withDev d) ∧ d.clock.keyClock = s.dev.clock.keyClock + 1 ∧
      d.clock.inBoundary = false ∧ d.clock.cycle = s.dev.clock.next.1 ∧ (s.dev.clock.loadCycle = none → d.clock.cycle = s.dev.clock.cycle + 1)) ∧
  (∀ (i : TickIn) (s : State), s.dev.ticks = true →
    ∃ d1 d4 d6 d7 : Dev,
      d1 = s.dev.endTick.advance.stepsOneToThree (if s.dev.clock.everAttached then 0 else s.dev.clock.lengthenTo.getD 0) i.timeInfo ∧
      d4 = (d1.stepFour ((tkeys s.dev.trees).filter (fun t => i.line.any (fun e => e.1 == t && anyEnergy e.2) || (s.dev.line t).energy))).thermal i.tj ∧
      d6 = (d4.windowsBoundary ((tkeys s.dev.trees).filter (fun t => (s.dev.tree t).sealed))).stepSix ∧
      d7 = (d6.stepSeven i.maps i.fec).dumpStart ∧
      exec (.tickBoundary i) s = .next (s.withDev (({ d7 with
        sched := { d7.sched with points := tmap d7.sched.points (fun _ (p : Point) => p.tick) },
        clock := { d7.clock with cycle := s.dev.clock.next.1, keyClock := s.dev.clock.next.2, inBoundary := false } } : Dev).syncDrr 0 (fun _ => true)))) ∧
  (∀ (i : TickIn) (s : State), s.dev.ticks = false → exec (.tickBoundary i) s = .next s) ∧
  (∀ (s : State) (missed : List Nat),
    exec (.manifestDeadline missed) s = .next (s.withDev ((tkeys s.dev.trees).foldl (fun d t => d.manifestTree t (missed.contains t)) s.dev))) ∧
  (∀ (d : Dev) (t : Nat) (m : Manifest), (d.tree t).keep.building = some m → (d.tree t).keep.missRun = 0 →
    (d.tree t).check m.target (fun g => (d.tree t).keep.stateOk.contains (g.tid, g.kind)) m.grants = (m.grants, 0) →
    d.manifestTree t false = (d.modTree t (fun y => { y with
      keep := { (y.keep.charge m) with
        manifests := tset (y.keep.manifests.filter (fun e => decide (d.now ≤ e.1 + 1))) m.target m,
        building := none, missRun := 0 } })).sendMirror t) ∧
  (∀ (s : State), (s.dev.now + 1) % 4000 = 0 → exec .errorBlockEnd s = .next (s.withDev { s.dev with clock := { s.dev.clock with blockDue := true } })) ∧
  (∀ (s : State), s.dev.now % 4000 = 0 → s.dev.clock.blockDone ≠ some s.dev.now →
    ∃ ts d, ts = (tkeys s.dev.trees).filter (fun t => s.dev.treeUp t) ∧ d = ts.foldl (fun (d : Dev) t => d.treeBlock t) s.dev ∧
      exec .errorBlockEnd s = .next (s.withDev (ts.foldl (fun (d : Dev) t =>
        (d.port t).elim d (fun p => if p.state = .holder then d.releaseTest t p else d)) { d with clock := { d.clock with blockDue := false, blockDone := some d.now } }))) ∧
  (∀ (s : State), s.dev.now % 8000 = 0 →
    exec .pmSecondEnd s = .next (s.withDev (((tkeys s.dev.trees).filter (fun t => s.dev.treeUp t)).foldl (fun (d : Dev) t => d.pmTree t) s.dev))) ∧
  (∀ (s : State) (t : Nat),
    exec (.namedTickReached t) s = .next (s.withDev (((s.dev.tree t).terms.foldl (fun (d : Dev) x => d.namedTick t x) s.dev).syncDrr 0 (· == t)))) ∧
  (∀ (d : Dev) (t : Nat) (x : Term) (f : Nat), x.admitFrom = some f → f ≤ d.now → x.adj = none → x.fecSet = none → x.doze = none →
    d.namedTick t x = d.admitNow t x)

/-- In an open quiet window each burst of the line's bits is taken as a hail burst of that window, in their order; outside a window nothing happens.
At the window's end the window closes, COLL_SEEN being due where it collided, and its hails are handled in order of their ranges, of one serial the
first only; the hail of a serial that is not listed is answered by HAIL_DEFER in frame Q + W + 1, logged with outcome 2 and reported. The hold of a
dynamic id ends at its cycle: the id is free with its keys erased, and a static id only loses its hold. After the end of a window the DRR rings of the
tree are renewed (R208). (R113, R120, R121, R131) -/
def Obligations.HailOutcome : Prop :=
  (∀ (s : State) (r : HailRx) (w : QwOpen),
    (s.dev.tree r.tree).disc.windows.find? (fun w => decide (w.q ≤ s.dev.now) && decide (s.dev.now ≤ w.q + w.w)) = some w →
    exec (.hailReceive r) s = .next (s.withDev ((bursts r.first r.bits).foldl (fun (d : Dev) e => d.hailBurst r.tree w r e)
      (s.dev.modLine r.tree (fun l => { l with energy := l.energy || anyEnergy r.bits }))))) ∧
  (∀ (s : State) (r : HailRx),
    (s.dev.tree r.tree).disc.windows.find? (fun w => decide (w.q ≤ s.dev.now) && decide (s.dev.now ≤ w.q + w.w)) = none →
    exec (.hailReceive r) s = .next s) ∧
  (∀ (s : State) (t : Nat) (w : QwOpen), (s.dev.tree t).disc.windows.find? (fun w => decide (w.q + w.w ≤ s.dev.now)) = some w →
    ∃ hs, hs = sortBy (fun (a b : Hail) => decide (a.d ≤ b.d)) w.hails ∧
    exec (.quietWindowEnd t) s = .next (s.withDev ((hs.foldl (fun (d : Dev) h =>
        d.handleHail t w.q (w.q + w.w + 1) (decide (1 < (hs.filter (fun k => k.serial == h.serial)).length)) ((hs.filter (fun k => k.serial == h.serial)).head? == some h) h)
      (s.dev.modTree t (fun x => { x with disc := { x.disc with
        windows := x.disc.windows.filter (fun v => v.q != w.q),
        collSeen := if w.collided then some (w.q + w.w + 1) else x.disc.collSeen } }))).syncDrr 0 (· == t)))) ∧
  (∀ (d : Dev) (t q f : Nat) (h : Hail), (d.tree t).bySerial h.serial = none →
    d.handleHail t q f false true h = ((d.modTree t (fun x =>
      (x.queueMsg (hailDefer h.serial h.nonce f)).logHail { cycle := q, serial := h.serial, range := h.d - 512, outcome := 2, id := 0xFF })).discEvent t 5 none (le 8 h.serial))) ∧
  (∀ (s : State) (t id : Nat) (h : IdHold), (s.dev.tree t).holds.find? (fun h => h.id == id) = some h → h.until_ ≤ s.dev.now →
    (s.dev.tree t).terms.any (fun y => y.staticId == some id) = false →
    exec (.idHoldExpiry t id) s = .next (s.withDev ((s.dev.modTree t (fun x => { x with
      holds := x.holds.filter (fun k => k.id != id),
      terms := x.terms.map (fun y => if y.id == some id then { y with id := none } else y) })).eraseAll t id))) ∧
  (∀ (s : State) (t id : Nat) (h : IdHold), (s.dev.tree t).holds.find? (fun h => h.id == id) = some h → h.until_ ≤ s.dev.now →
    (s.dev.tree t).terms.any (fun y => y.staticId == some id) = true →
    exec (.idHoldExpiry t id) s = .next (s.withDev (s.dev.modTree t (fun x => { x with holds := x.holds.filter (fun k => k.id != id) }))))

/-- On a lit attached tree that this device holds, in a tick whose calibration place is another: at a granted place of a listed terminal a barge found
in the window with the terminal's id is accepted, cut off at the next window that opens; any other outcome of the hunt is counted and reported on the
line, and the place is missed. A granted place whose terminal is gone is only counted. At a shadow place energy is looked for. A standby hunts in the
place its mirror grants. The incomplete parcels that are 16 ticks old go and are counted. A terminal whose lost time has passed becomes LOST. After a
place and after a loss the DRR rings of the tree are renewed (R208). (R102, R107, R108, R109, R114, R126, R152, R293, R361) -/
def Obligations.BargeAndLoss : Prop :=
  (∀ (s : State) (r : BargeRx) (d : Dev) (pl : PlaceAt) (y : Term) (w : Option Nat) (p : Nat) (h : HeadRead),
    d = s.dev.modLine r.tree (fun l => { l with energy := l.energy || anyEnergy r.bits }) →
    (tget s.dev.prot.ports r.tree).filter (fun p => p.state ≠ .holder) = none → d.treeUp r.tree = true → (d.tree r.tree).lit = true →
    d.calPlace r.tree ≠ some (r.tid, r.start) → (d.tree r.tree).placeNow s.dev.now r.tid r.start = some pl → pl.kind ≠ 8 →
    (d.tree r.tree).byId r.tid = some y → w = (d.tree r.tree).nextOpening s.dev.now pl.start →
    hunt r.first (w.elim r.bits (fun w => r.bits.take (w - r.first))) s.dev.now r.tid pl.start (if pl.kind = 2 then 0 else y.offset) = .found p h →
    exec (.bargeReceive r) s = .next (s.withDev ((d.accepted r.tree y pl p h
      ((lineAt r.first (w.elim r.bits (fun w => r.bits.take (w - r.first))) p).drop 64) (w.elim false (fun w => decide (w ≤ r.first + r.bits.length)))).syncDrr 0 (· == r.tree)))) ∧
  (∀ (s : State) (r : BargeRx) (d : Dev) (pl : PlaceAt) (y : Term) (w : Option Nat) (m : Hunt),
    d = s.dev.modLine r.tree (fun l => { l with energy := l.energy || anyEnergy r.bits }) →
    (tget s.dev.prot.ports r.tree).filter (fun p => p.state ≠ .holder) = none → d.treeUp r.tree = true → (d.tree r.tree).lit = true →
    d.calPlace r.tree ≠ some (r.tid, r.start) → (d.tree r.tree).placeNow s.dev.now r.tid r.start = some pl → pl.kind ≠ 8 →
    (d.tree r.tree).byId r.tid = some y → w = (d.tree r.tree).nextOpening s.dev.now pl.start →
    hunt r.first (w.elim r.bits (fun w => r.bits.take (w - r.first))) s.dev.now r.tid pl.start (if pl.kind = 2 then 0 else y.offset) = m → (∀ p h, m ≠ .found p h) →
    exec (.bargeReceive r) s = .next (s.withDev (((d.countMiss r.tree y.id m).placeMissed r.tree y pl (decide (m = .dark))).syncDrr 0 (· == r.tree)))) ∧
  (∀ (s : State) (r : BargeRx) (d : Dev) (pl : PlaceAt),
    d = s.dev.modLine r.tree (fun l => { l with energy := l.energy || anyEnergy r.bits }) →
    (tget s.dev.prot.ports r.tree).filter (fun p => p.state ≠ .holder) = none → d.treeUp r.tree = true → (d.tree r.tree).lit = true →
    d.calPlace r.tree ≠ some (r.tid, r.start) → (d.tree r.tree).placeNow s.dev.now r.tid r.start = some pl → pl.kind ≠ 8 →
    (d.tree r.tree).byId r.tid = none →
    exec (.bargeReceive r) s = .next (s.withDev (((d.countMiss r.tree (some r.tid) (hunt r.first
      (((d.tree r.tree).nextOpening s.dev.now pl.start).elim r.bits (fun w => r.bits.take (w - r.first))) s.dev.now r.tid pl.start 0)).modLine r.tree
        (fun l => { l with counted := true })).syncDrr 0 (· == r.tree)))) ∧
  (∀ (s : State) (r : BargeRx) (d : Dev) (pl : PlaceAt),
    d = s.dev.modLine r.tree (fun l => { l with energy := l.energy || anyEnergy r.bits }) →
    (tget s.dev.prot.ports r.tree).filter (fun p => p.state ≠ .holder) = none → d.treeUp r.tree = true → (d.tree r.tree).lit = true →
    d.calPlace r.tree ≠ some (r.tid, r.start) → (d.tree r.tree).placeNow s.dev.now r.tid r.start = some pl → pl.kind = 8 →
    exec (.bargeReceive r) s = .next (s.withDev ((d.shadowPlace r.tree r.tid r.start (anyEnergy (pl.bitsOf r.first r.bits))).syncDrr 0 (· == r.tree)))) ∧
  (∀ (s : State) (r : BargeRx) (p : Port), tget s.dev.prot.ports r.tree = some p → p.state ≠ .holder →
    exec (.bargeReceive r) s = .next (s.withDev (((s.dev.modLine r.tree (fun l => { l with energy := l.energy || anyEnergy r.bits })).standbyHunt r.tree p r).syncDrr 0 (· == r.tree)))) ∧
  (∀ (s : State) (t id : Nat) (y : Term) (late : List Reasm), (s.dev.tree t).byId id = some y →
    late = y.reasm.filter (fun r => decide (r.cycle + 16 < s.dev.now)) → late ≠ [] →
    exec (.reasmTimeout t id) s = .next (s.withDev ((s.dev.modTerm t y.serial (fun y => { y with
      reasm := y.reasm.filter (fun r => !decide (r.cycle + 16 < s.dev.now)) })).countTerm t y.id .reasmTimeout late.length))) ∧
  (∀ (s : State) (t n : Nat) (x : Tree) (y : Term), s.dev.tree t = x → x.bySerial n = some y → y.state = .inService →
    y.aliveAt + lostTimeOf x y < s.dev.now → exec (.terminalLost t n) s = .next (s.withDev ((s.dev.becomeLost t y).syncDrr 0 (· == t))))

/-- A counter dump in progress for which 500,000 bytes a tick have been enough is written to its slot, DONE last, with the whole records that fit,
DUMP_HEAD advances and the job ends; one that does not fit is marked TRUNCATED and counted. A due key erasure makes the erasures of a rekey that are
due, then ends the mass rekeys that have none left; at X + 64 of a rekey that is what the old downstream slot is erased by. (R372, R374, R484, R486,
15_security.md, 20_counters.md) -/
def Obligations.DumpAndKeyErasure : Prop :=
  (∀ (s : State) (j : DumpJob) (b : Bytes) (n : Nat) (cut : Bool) (d : Dev), s.dev.ctr.job = some j → s.dev.host.d3 = false →
    j.records (j.settings.slotSize - 64) (selected j.settings.select) = (b, n, cut) → j.cycle + (63 + b.length) / 500000 ≤ s.dev.now →
    d = { s.dev with ctr := { s.dev.ctr with job := none, dumpHead := (j.head + 1) % j.settings.slots } } →
    exec .counterDumpDone s = .next { s with
      hostMem := memWrite (memWrite (memWrite s.hostMem (j.settings.base + j.head * j.settings.slotSize)
        (le 4 0x504D5544 ++ le 2 1 ++ le 2 (b2n cut) ++ le 8 j.seq ++ fromResp j.cycle ++ le 8 j.prev ++ le 4 j.skipped ++ le 4 n ++ le 8 (64 + b.length) ++ le 8 0))
        (j.settings.base + j.head * j.settings.slotSize + 64) b) (j.settings.base + j.head * j.settings.slotSize + 56) (fromResp j.cycle),
      dev := if cut then d.countDev .dumpTrunc else d }) ∧
  (∀ (s : State) (t id : Nat), exec (.rekeyErase t id) s = .next (s.withDev (s.dev.rekeyDue t id).massDue)) ∧
  (∀ (d : Dev) (t id : Nat) (r : Rekey), (d.keys (globalIndex t id)).rekey = some r → r.x + 64 ≤ d.now → d.now < r.u + 36 → r.erasedDown = false →
    d.rekeyDue t id = d.modKeys (globalIndex t id) (fun k => { k with down := eraseSlot k.down (!r.phase), rekey := some { r with erasedDown := true } }))

/-- Outside QUIET and DOZE: The oldest released parcel that is no report of a push enters the pipeline; where none has been released the cipher gives
its next verdict first. The verdict of the parcel held longest in a pipeline is given, its half is free and waiting parcels enter. A frame at a live
uplink port is counted and dropped where its FCS fails, where it is a MAC control frame, where it is over-long or where its address is filtered, and
else is counted and enters the pipeline as MACsec opens it. The packet that has waited longest takes its second pass, or is dropped and counted after
4 µs. (R16, R17, R28, R239, R240, R274, R277, R340, R366, R370, R490) -/
def Obligations.UpstreamPath : Prop :=
  (∀ (s : State) (lane now : Nat) (d : Dev) (u : PlainUnit) (rest : List PlainUnit),
    d = (if (takeFirst (fun u => !s.dev.isReport u) s.dev.sec.released).isNone then cipherTagVerify s.dev else s.dev) →
    takeFirst (fun u => !d.isReport u) d.sec.released = some (u, rest) →
    exec (.upstreamParcel lane now) s = .next (s.withDev (({ d with sec := { d.sec with released := rest } } : Dev).parcelIn u lane now))) ∧
  (∀ (d : Dev) (u : PlainUnit) (lane now : Nat), u.twinTag = none →
    d.parcelIn u lane now = d.pipeline { Pkt.make u.frame 0 u.tree (d.flowSource u.flow (globalIndex u.tree u.tid)) u.tree lane now with inFlow := some u.flow, twin := none }) ∧
  (∀ (s : State) (k : Nat) (b : Bool) (h : HeldUnit), s.dev.gated = false → s.dev.sec.oldest = some (k, b, h) →
    ∃ d : Dev, d = ({ s.dev with sec := s.dev.sec.freeHalf k b } : Dev).verify h.u ∧
      exec .cipherTagVerify s = .next (s.withDev { d with sec := d.sec.enterAll })) ∧
  (∀ (d : Dev) (u : CipherUnit) (k : KeySlot), slotOf (d.keys (globalIndex u.tree u.tid)).up u.kp = some k →
    d.verify u = match u.open_ k with
      | some f => { d with sec := { d.sec with
          released := d.sec.released ++ [{ tree := u.tree, tid := u.tid, flow := u.flow, twinTag := u.tag, frame := f }] } }
      | none => (d.count 3 .saTagFail (2 * globalIndex u.tree u.tid + 1)).raiseFirst 0x2C4 (le 2 (2 * globalIndex u.tree u.tid + 1)) 0 (globalIndex u.tree u.tid)) ∧
  (∀ (d : Dev) (u : CipherUnit), slotOf (d.keys (globalIndex u.tree u.tid)).up u.kp = none →
    d.verify u = d.count 3 .saNoKey (2 * globalIndex u.tree u.tid + 1)) ∧
  (∀ (s : State) (r : UplinkRx) (d0 d : Dev) (l : Bytes), s.dev.upLive r.point = true → d0 = s.dev.countFec r → r.fcsOk = true →
    beAt r.bytes 12 2 ≠ 0x8808 → r.bytes.length + 4 ≤ (d0.upPort r.point).set.maxFrame + d0.macsecBytes r.point r.bytes →
    d0.macsecRx r.point r.now r.bytes = (some l, d) → (etherType l = 0x88F7 ∨ addrAccepted (d.upPort r.point).set (beAt l 0 6) = true) →
    exec (.uplinkFrameRx r) s = .next (s.withDev (((d.countUp r.point .uplRxFrames).countUp r.point .uplRxBytes (l.length + 4)).portFrame r.point l r.lane r.now))) ∧
  (∀ (s : State) (r : UplinkRx) (d : Dev), s.dev.upLive r.point = true → d = s.dev.countFec r →
    (r.fcsOk = false → exec (.uplinkFrameRx r) s = .next (s.withDev (d.countUp r.point .uplRxFcs))) ∧
    (r.fcsOk = true → beAt r.bytes 12 2 = 0x8808 → exec (.uplinkFrameRx r) s = .next (s.withDev (d.countUp r.point .uplMacctlDrop))) ∧
    (r.fcsOk = true → beAt r.bytes 12 2 ≠ 0x8808 → (d.upPort r.point).set.maxFrame + d.macsecBytes r.point r.bytes < r.bytes.length + 4 →
      exec (.uplinkFrameRx r) s = .next (s.withDev (d.filterDrop r.point .uplRxOversize)))) ∧
  (∀ (s : State) (p now : Nat) (r : Recirc) (rest : List Recirc), s.dev.gated = false → s.dev.cls.buffer p = r :: rest → r.since + 5000 ≤ s.dev.clk now →
    exec (.recirculationPass p now) s = .next (s.withDev (((s.dev.setBuffer p rest).modSlot r.pkt.slot (fun v =>
      { v with inflight := v.inflight - 1 })).recircDrop r.pkt))) ∧
  (∀ (s : State) (p now : Nat) (r : Recirc) (rest : List Recirc) (e : ClsEnd) (pk : Pkt) (d : Dev), s.dev.gated = false → s.dev.cls.buffer p = r :: rest → s.dev.clk now < r.since + 5000 →
    ((s.dev.setBuffer p rest).modSlot r.pkt.slot (fun v => { v with inflight := v.inflight - 1 })).classPass
      { r.pkt with now } r.start true r.tag = (e, pk, d) →
    exec (.recirculationPass p now) s = .next (s.withDev (d.afterClass pk e))) ∧
  (∀ (s : State) (p now : Nat) (r : Recirc) (rest : List Recirc), s.dev.cls.buffer p = r :: rest → r.since + 5000 ≤ s.dev.clk now →
    exec (.recircTimeout p now) s = .next (s.withDev (((s.dev.setBuffer p rest).modSlot r.pkt.slot (fun v =>
      { v with inflight := v.inflight - 1 })).recircDrop r.pkt)))

/-- The oldest learning request is taken: of a source that is no member of its domain it has no other effect, of a member for the entry it already has
it sets HIT, for a key without an entry it inserts one with the engine's next victim, counted as learned, and where a limit is reached it is refused.
A due visit of the sweeper leaves a static entry and one already visited in this sweep, clears HIT and records the sweep of an entry that was hit,
marks one that was not, and removes one marked before; then it goes to the next index. The rinse rewrites a row from its verify copy, and removes an
entry whose copy is bad. The end of a rebuild rehashes the table, or removes the learned entries of a domain or member, and completes its command.
(R251, R254, R255, R256, R257, R259, R263, R266) -/
def Obligations.ForwardingTableUpkeep : Prop :=
  (∀ (s : State) (r : LearnReq) (rest : List LearnReq), s.dev.fdb.fifo = r :: rest →
    exec .fdbLearn s = .next (s.withDev ((s.dev.modFdb (fun f => { f with fifo := rest })).learn r))) ∧
  (∀ (d : Dev) (r : LearnReq) (m : Member),
    (d.fdb.member r.fid r.source = none → d.learn r = d) ∧
    (d.fdb.member r.fid r.source = some m → (tget d.fdb.domains r.fid).isSome = true →
      (∀ i e, d.fdb.lookup r.fid r.mac = some (i, e) → e.static = false → e.source = r.source → e.dest = m.flow → d.learn r = d.putEnt i { e with hit := true }) ∧
      (d.fdb.lookup r.fid r.mac = none → ∀ scope, d.fdb.overLimit r.source none = some scope → d.learn r = d.limitRefused r.source scope) ∧
      (d.fdb.lookup r.fid r.mac = none → d.fdb.overLimit r.source none = none → ∀ e d1 i d2, d.newEnt false r.fid r.mac r.source m.flow = (e, d1) →
        d1.insertEnt e = (some i, d2) → d.learn r = d2.count 10 .fdbLearned r.fid))) ∧
  (∀ (s : State) (e : FdbEnt), s.dev.fdb.visitDue ≤ s.dev.up → tget s.dev.fdb.entries s.dev.fdb.sweepNext = some e → e.static = false →
    e.sweep ≠ decide (s.dev.fdb.sweepNo % 2 = 1) →
    exec .fdbAgeSweep s = .next (s.withDev ((match e.visit s.dev.fdb.sweepNo with
      | some x => s.dev.putEnt s.dev.fdb.sweepNext x
      | none => (s.dev.delEnt s.dev.fdb.sweepNext).count 10 .fdbAgedOut e.fid).modFdb Fdb.sweepOn))) ∧
  (∀ (s : State), s.dev.fdb.visitDue ≤ s.dev.up →
    (∀ e, tget s.dev.fdb.entries s.dev.fdb.sweepNext = some e → e.static = true ∨ e.sweep = decide (s.dev.fdb.sweepNo % 2 = 1)) →
    exec .fdbAgeSweep s = .next (s.withDev (s.dev.modFdb Fdb.sweepOn))) ∧
  (∀ (e : FdbEnt) (n : Nat) (f : Fdb),
    (e.hit = true → e.visit n = some { e with hit := false, aged := false, lastSeen := n % 32768, sweep := decide (n % 2 = 1) }) ∧
    (e.hit = false → e.aged = false → e.visit n = some { e with aged := true, sweep := decide (n % 2 = 1) }) ∧
    (e.hit = false → e.aged = true → e.visit n = none) ∧
    (f.sweepNext ≠ 262143 → f.sweepOn = { f with sweepNext := f.sweepNext + 1 })) ∧
  (∀ (s : State) (t i : Nat) (e : CamEnt) (bad : Bool), tget s.dev.cam.entries (camKey t i) = some e →
    exec (.camVerifyRewrite t i bad) s = .next (s.withDev (
      if bad then ({ s.dev with cam := { s.dev.cam with entries := tdel s.dev.cam.entries (camKey t i) } } : Dev).raise 0x376 (le 1 t ++ le 2 i)
      else { s.dev with cam := { s.dev.cam with entries := tset s.dev.cam.entries (camKey t i) { e with rows := e.copy } } }))) ∧
  (∀ (s : State) (job : Nat) (x : Rebuild) (d : Dev), s.dev.fdb.rebuilds.find? (fun x => x.job == job && x.running) = some x →
    d = s.dev.modFdb (fun f => { f with rebuilds := f.rebuilds.filter (fun y => y.job != job) }) →
    exec (.tableRebuildDone job) s = .next (s.withDev ((match x.what with
      | .salt salt => (d.rehash salt).endOp (fun o => o = HeavyOp.tableRebuild job)
      | .domain fid => d.modFdb (fun f => { f with entries := f.entries.filter (fun e => e.2.static || e.2.fid != fid) })
      | .member fid src => d.modFdb (fun f => { f with entries := f.entries.filter (fun e => e.2.static || e.2.fid != fid || e.2.source != src) })).complete x.ref .ok)))

/-- At the end of a spill write, once its HBM transactions have been made, the frame stands in reservoir, the frame it was copied from loses its
reference or its own basin cells are free, and claims are issued for the queue's refill part. Outside HBM self-refresh the oldest refill claim is
granted the lowest free basin cells once WEIR_RESERVE + n cells are free, and its read asks for the HBM. A frame whose refill read has ended is done,
and the frames done at the head of the refill part join the basin part. An uncorrectable HBM fault drops the spilled parts of every queue, stops the
Feeder, empties the claims, is reported and asks for a rinse where none waits or runs. (R31, R181, R191, R192, R194, R196, R200) -/
def Obligations.SpillAndRefill : Prop :=
  (∀ (s : State) (q f : Nat) (e : QEnt) (g : QEnt → QEnt) (d d2 : Dev),
    ((s.dev.queue q).refill ++ (s.dev.queue q).resv).find? (fun e => e.frame == f && e.place == .writing) = some e →
    s.dev.hbmReady (.spill q f) = true → g = (fun e => if e.frame = f ∧ e.place = .writing then { e with place := .reservoir, src := none } else e) →
    d = (s.dev.hbmEnd (fun w => w == .spill q f)).modQueue q (fun y => { y with refill := y.refill.map g, resv := y.resv.map g }) →
    d2 = (match e.src with
      | some k => d.release k ((tget d.pool.frames f).elim 0 (fun x => x.req))
      | none => (d.freeBasin ((tget d.pool.frames f).elim [] (fun x => x.cells)) ((tget d.pool.frames f).elim 0 (fun x => x.req))).modFrm f (fun x => { x with cells := [] })) →
    exec (.spillWriteComplete q f) s = .next (s.withDev (if d2.pool.hbmFault then d2 else d2.issueRefill q))) ∧
  (∀ (s : State) (q f : Nat) (rest : List (Nat × Nat)) (cs : List Nat) (d : Dev) (asked : Option Nat), s.dev.pool.claims = (q, f) :: rest →
    s.dev.selfRefresh = false → s.dev.pool.basin.length + s.dev.pool.weirReserve + cellsOf (s.dev.frmLen f) ≤ Config.basinCells →
    cs = lowestFree s.dev.pool.basin (cellsOf (s.dev.frmLen f)) →
    d = ((({ s.dev with pool := { s.dev.pool with claims := rest } } : Dev).holdBasin cs 83).modFrm f
      (fun x => { x with cells := cs, req := 83 })).modQueue q
      (fun y => { y with refill := y.refill.map (fun e => if e.frame = f then { e with place := .reading } else e) }) →
    asked = (if d.draw.1 % 2 = 0 then none else d.pool.hbm.getLast?.bind (·.asked)) →
    exec .refillClaimGrant s = .next (s.withDev ((d.draw.2.hbmAsk 83 (cellsOf (s.dev.frmLen f)) asked (.refill q f)).poolUp))) ∧
  (∀ (s : State) (q f : Nat), (s.dev.queue q).refill.any (fun e => e.frame == f && e.place == .reading) = true → s.dev.hbmReady (.refill q f) = true →
    exec (.refillReadComplete q f) s = .next (s.withDev (((s.dev.hbmEnd (fun w => w == .refill q f)).modQueue q (fun y => { y with
      refill := y.refill.map (fun e => if e.frame = f then { e with place := .readDone } else e) })).linkRefilled q))) ∧
  (∀ (d : Dev) (q : Nat) (done rest : List QEnt), splitDone (d.queue q).refill = (done, rest) →
    d.linkRefilled q = ((done.foldl (fun (d : Dev) e => (d.freeResv e.resv).countQueue q (d.pointOf q) .qRefillFrames) d).modQueue q (fun y =>
      { y with basin := y.basin ++ done.map (fun e => { e with place := .basin, resv := [] }), refill := rest, underrun := y.underrun && done.isEmpty })).joinDrr q) ∧
  (∀ (s : State) (qs : List Nat) (lost : Nat) (d d2 d3 : Dev), qs = (s.dev.pool.queues.filter (fun e => e.2.spilled)).map (fun e => e.1) →
    lost = sumOf (qs.map (fun q => sumOf (((s.dev.queue q).refill ++ (s.dev.queue q).resv).map (fun e => e.resv.length)))) →
    d = qs.foldl Dev.dropSpilled (s.dev.hbmEnd (fun w => !w.isPile)) →
    d2 = { d with pool := { d.pool with feederOn := false, hbmFault := true, hbmUsable := false, claims := [] } } →
    d3 = (if lost = 0 then d2 else d2.countDev .resvLostCells lost).raise 0x328 (le 4 lost) →
    d3.sluice.fifo.any (fun r => decide (r.op = HeavyOp.hbmRinse)) = false → d3.sluice.held.any (fun h => decide (h.op = HeavyOp.hbmRinse)) = false →
    exec .hbmUncorrectableFault s = .next (s.withDev (d3.request .hbmRinse 14 none).1))

/-- Outside QUIET and DOZE the selection at an attached tree, and at a live uplink port, takes that port's next unit; at the point of another device
the first level with an eligible queue sends its pick over Towpath, or nothing is eligible; at a host receive ring that ring's. The parcels of a tree
whose first fragment went more than 16 ticks ago are aborted, counted and taken from their queues. In a calendar slot every shaper entered there for
that slot or earlier is updated and entered again or made eligible, and the queues of those that are eligible join their rings. A starved DRR level is
counted and reported. While the pipelines are gated a selection changes nothing. (R84, R206, R207, R208, R211, R215, R216, R225, R226, R451, R490) -/
def Obligations.EgressAndShaping : Prop :=
  (∀ (s : State) (o : Egress), s.dev.gated = false → o.point < 0x40 → s.dev.treeUp o.point = true →
    exec (.egressSelect o) s = .next (s.withDev (s.dev.treeSelect o.point o.now))) ∧
  (∀ (s : State) (o : Egress), s.dev.gated = false → (0x40 ≤ o.point ∧ o.point < 0x60) ∨ o.point = 0xA4 → s.dev.upLive o.point = true →
    exec (.egressSelect o) s = .next (s.withDev (s.dev.upSelect o.point o.now))) ∧
  (∀ (s : State) (o : Egress) (x : Option Nat) (d : Dev), s.dev.gated = false → 0x60 ≤ o.point → o.point < 0xA0 → o.point - 0x60 ≠ s.dev.dev.devAddr →
    Dev.firstPick o.point ((s.dev.linked o.point).filter (fun q => s.dev.eligible o.point o.now q)) (List.range 5)
      (s.dev.refreshDrr o.point ((s.dev.linked o.point).filter (fun q => s.dev.eligible o.point o.now q))) = (x, d) →
    exec (.egressSelect o) s = .next (s.withDev (x.elim d (fun q => d.towSend o.point q o.now)))) ∧
  (∀ (s : State) (o : Egress), s.dev.gated = false → 0xA0 ≤ o.point → o.point < 0xA4 →
    exec (.egressSelect o) s = .next { s with dev := (s.dev.ringSelect o s.hostMem).1, hostMem := (s.dev.ringSelect o s.hostMem).2 }) ∧
  (∀ (s : State) (o : Egress), s.dev.gated = true → exec (.egressSelect o) s = .next s) ∧
  (∀ (s : State) (t : Nat), exec (.fragmentAbort t) s = .next (s.withDev
    (((s.dev.tree t).down.frags.filter (fun e => decide (e.2.firstFrame + 16 < s.dev.now))).foldl (fun (d : Dev) e =>
      ((d.modDown t (fun x => { x with frags := tdel x.frags e.1 })).countTree t .fragAbort).dequeue e.2.queue false) s.dev))) ∧
  (∀ (s : State) (k n : Nat) (due : Tbl Bucket) (d : Dev), n = s.dev.now * 16 + k →
    due = s.dev.sched.buckets.filter (fun e => e.2.mode == 1 && e.2.entry.elim false (fun m => decide (m ≤ n))) →
    d = due.foldl (fun (d : Dev) e => d.modBucket e.1 (fun b => (b.update n).calendar n)) s.dev →
    exec (.calendarSlot k) s = .next (s.withDev (d.joinAll ((((due.map (fun e => e.1)).filter (fun f => (d.bucket f).entry.isNone)).flatMap drrQueues).filter
      (fun q => (d.bucket (q / 8)).covers 1 (q % 8)))))) ∧
  (∀ (s : State) (p : Nat), 0 < (s.dev.point p).starve → (s.dev.point p).starveSeen + (s.dev.point p).starve ≤ (s.dev.point p).idleRun →
    exec (.drrStarve p) s = .next (s.withDev (((s.dev.modPoint p (fun y => { y with starveSeen := y.starveSeen + y.starve })).count 6 .drrStarve p).raise 0x331 (le 1 p))))

/-- An entry of a configured gate list sets the gates of its moment; a reached list becomes operational, an enabled one ends LPI, and its command
completes with its start. A preemption verification that passes makes preemption active, one that fails after the verify time leaves it inactive and
is reported. An idle port with LPI enabled enters LPI and is counted. A link that comes up where the port is able, or goes down, is set so, and its
coming up ends its uplink's wake. (R270, R273, R278, R280, R282, R283, R493) -/
def Obligations.UplinkPortEvents : Prop :=
  (∀ (s : State) (p now : Nat), (s.dev.upPort p).list.isSome = true → exec (.gateListEntry p now) s = .next (s.withDev (s.dev.setGates p now))) ∧
  (∀ (s : State) (p now : Nat) (ref : CmdRef) (g : GateList) (a : Nat), (s.dev.upPort p).gatePend = some (ref, g, a) → a ≤ s.dev.ptpNs now →
    exec (.gateListOperational p now) s = .next (s.withDev (((s.dev.modUp p (fun x => { x with gate := some g, gatePend := none, gates := 0, inLpi := x.inLpi && !g.enable })).setGates p now).complete
      ref .ok (le 8 (a / 1000000000) ++ le 4 (a % 1000000000))))) ∧
  (∀ (s : State) (p c : Nat), (s.dev.upPort p).verifyFrom = some c →
    exec (.preemptVerify p true) s = .next (s.withDev (s.dev.modGate p (fun x => { x with preemptActive := true, verifyFrom := none }))) ∧
    (c + 8 * (s.dev.upPort p).set.verifyMs ≤ s.dev.now → exec (.preemptVerify p false) s = .next (s.withDev
      ((s.dev.modGate p (fun x => { x with preemptActive := false, verifyFrom := none })).raise (upSource p 4) (le 1 (subPort p)))))) ∧
  (∀ (s : State) (p now : Nat), (s.dev.upPort p).up = true → (s.dev.upPort p).set.lpi = true → s.dev.lpiAble p = true → (s.dev.upPort p).list.isNone = true →
    (s.dev.upPort p).inLpi = false → s.dev.upIdle p now = true →
    exec (.lpiEntry p now) s = .next (s.withDev ((s.dev.modUp p (fun x => { x with inLpi := true })).countUp p .uplLpiEntries))) ∧
  (∀ (s : State) (p speed : Nat),
    (s.dev.linkAble p speed = true → exec (.uplinkLinkChange p true speed) s = .next (s.withDev ((s.dev.setLink p true speed).endOp
      (fun o => o = HeavyOp.wakeUplink (if p = 0xA4 then 8 else (p - 0x40) / 4))))) ∧
    exec (.uplinkLinkChange p false speed) s = .next (s.withDev (s.dev.setLink p false speed)))

/-- A doorbell of an enabled context with room, whose page can be read, takes the page with the next SEQ and writes SEQ, PENDING and STATE 1 to it;
with eight commands outstanding it is answered BUSY; a doorbell of a disabled context, where mailboxes are not served, or whose page cannot be read,
is discarded; in D3hot or a pause an enabled one waits, which is the model's choice (log entry 74). The oldest page of a context completes with the
status its header check gave, or else with its result, which is written to it and signalled. The oldest staged event is written to its ring where the
ring has room, HEAD advances and its vector is signalled, or its message held within the coalescing interval; at a full or disabled ring it is
dropped. A frame of a transmit ring goes to the pipeline where it has no error, no other ring that is ready in its clock comes before it (R9), and its
descriptors are returned. (R439, R440, R445, R447, R450) -/
def Obligations.DoorbellAndCompletion : Prop :=
  (∀ (s : State) (o : Doorbell) (p : PageRead), s.dev.host.d3 = false → s.dev.host.pause = false → o.ctx < 8 → (s.dev.ctx o.ctx).enable = true → s.dev.host.serves = true →
    (s.dev.ctx o.ctx).pages.length < 8 → o.page = some p →
    exec (.doorbellLo o) s = .next { s with
      hostMem := memWrite (memWrite (memWrite s.hostMem (pageAddr (s.dev.ctx o.ctx) o.value + 16) (le 8 ((s.dev.ctx o.ctx).seq + 1)))
        (pageAddr (s.dev.ctx o.ctx) o.value + 8) (le 1 Status.pending.code)) (pageAddr (s.dev.ctx o.ctx) o.value + 3) [1],
      dev := s.dev.modCtx o.ctx (fun c => { c with
        submitted := (c.submitted + 1) % 2 ^ 32, seq := (s.dev.ctx o.ctx).seq + 1,
        pages := c.pages ++ [{ addr := pageAddr (s.dev.ctx o.ctx) o.value, seq := (s.dev.ctx o.ctx).seq + 1, hostTag := p.hostTag, early := headerCheck c p, opcode := p.opcode, tick := s.dev.now }] }) }) ∧
  (∀ (s : State) (o : Doorbell), s.dev.host.d3 = false → s.dev.host.pause = false → o.ctx < 8 →
    ((s.dev.ctx o.ctx).enable = true → s.dev.host.serves = true → 8 ≤ (s.dev.ctx o.ctx).pages.length → exec (.doorbellLo o) s = .next { s with
      hostMem := writeDone s.hostMem (pageAddr (s.dev.ctx o.ctx) o.value) ((s.dev.ctx o.ctx).seq + 1) s.dev.now .busy [] true,
      dev := (s.dev.modCtx o.ctx (fun c => { c with
        submitted := (c.submitted + 1) % 2 ^ 32, completed := (c.completed + 1) % 2 ^ 32, seq := (s.dev.ctx o.ctx).seq + 1 })).signal o.ctx }) ∧
    ((s.dev.ctx o.ctx).enable = true → s.dev.host.serves = true → (s.dev.ctx o.ctx).pages.length < 8 → o.page = none → exec (.doorbellLo o) s = .next (s.withDev
      ((s.dev.modCtx o.ctx (fun c => { c with discarded := (c.discarded + 1) % 2 ^ 32 })).raise 0x3D8 (le 1 o.ctx ++ le 8 (pageAddr (s.dev.ctx o.ctx) o.value)))))) ∧
  (∀ (s : State) (o : Doorbell), o.ctx < 8 →
    ((s.dev.ctx o.ctx).enable = true → s.dev.host.serves = true → (s.dev.host.d3 = true ∨ s.dev.host.pause = true) →
      exec (.doorbellLo o) s = .next (s.withDev { s.dev with host := { s.dev.host with rung := s.dev.host.rung ++ [o] } })) ∧
    ((s.dev.ctx o.ctx).enable = false ∨ s.dev.host.serves = false → exec (.doorbellLo o) s = .next (s.withDev (s.dev.modCtx o.ctx (fun c =>
      { c with discarded := (c.discarded + 1) % 2 ^ 32 }))))) ∧
  (∀ (c : MbCtx) (p : PageRead), (p.format ≠ 1 → headerCheck c p = some .version) ∧
    (p.format = 1 → 1 ≤ p.opcode / 256 → p.opcode / 256 ≤ 14 → bitOf c.allow (p.opcode / 256 - 1) = false → headerCheck c p = some .denied) ∧
    (p.format = 1 → (p.opcode / 256 < 1 ∨ 14 < p.opcode / 256 ∨ bitOf c.allow (p.opcode / 256 - 1) = true) →
      (opcodeListed p.opcode = false ∨ p.reqLen < requestBytes p.opcode p.payload → headerCheck c p = some .invalid) ∧
      (opcodeListed p.opcode = true → requestBytes p.opcode p.payload ≤ p.reqLen → operationBad p.opcode p.payload = false → headerCheck c p = none))) ∧
  (∀ (s : State) (ctx : Nat) (p : MbPage) (rest : List MbPage) (r : MbResult) (others : List MbResult), s.dev.host.d3 = false → s.dev.host.fatal = false →
    s.dev.host.pause = false → s.dev.host.ready = true → (s.dev.ctx ctx).pages = p :: rest → p.early = none → takeResult ctx s.dev.host.results = some (r, others) →
    exec (.mailboxComplete ctx) s = .next { s with
      hostMem := writeDone s.hostMem p.addr p.seq s.dev.now (r.status.getD .ok) r.resp false,
      dev := (({ s.dev with host := { s.dev.host with results := others } } : Dev).modCtx ctx (fun c => { c with
        pages := rest, completed := (c.completed + 1) % 2 ^ 32 })).signal ctx }) ∧
  (∀ (s : State) (ctx : Nat) (p : MbPage) (rest : List MbPage) (st : Status), s.dev.host.d3 = false → s.dev.host.fatal = false →
    s.dev.host.pause = false → s.dev.host.ready = true → (s.dev.ctx ctx).pages = p :: rest → p.early = some st →
    exec (.mailboxComplete ctx) s = .next { s with
      hostMem := writeDone s.hostMem p.addr p.seq s.dev.now st [] false,
      dev := (s.dev.modCtx ctx (fun c => { c with pages := rest, completed := (c.completed + 1) % 2 ^ 32 })).signal ctx }) ∧
  (∀ (s : State) (now : Nat) (e : EvRec) (rest : List EvRec) (r : Ring) (hold : Bool) (d : Dev), s.dev.host.idle = false → s.dev.host.d3 = false →
    s.dev.ev.staging = e :: rest → r = s.dev.ring e.ring → r.enable = true → (r.head + 1) % r.entries ≠ r.tail % r.entries →
    hold = r.lastMsg.elim false (fun m => decide (s.dev.clk now < m + r.coalesce * Config.clocksPerMicrosecond)) →
    d = ({ s.dev with ev := { s.dev.ev with staging := rest } } : Dev).modRing e.ring (fun x => { x with
      head := (r.head + 1) % r.entries, phase := if (r.head + 1) % r.entries = 0 then !x.phase else x.phase, drops := 0,
      msgDue := hold, lastMsg := if hold then x.lastMsg else some (s.dev.clk now) }) →
    exec (.eventRaise now) s = .next { s with
      hostMem := memWrite s.hostMem (r.entryAddr r.head) (e.bytes r.phase r.drops), dev := if hold then d else d.signal (16 + e.ring) }) ∧
  (∀ (s : State) (now : Nat) (e : EvRec) (rest : List EvRec), s.dev.host.idle = false → s.dev.host.d3 = false →
    s.dev.ev.staging = e :: rest →
    (s.dev.ring e.ring).enable = false ∨ ((s.dev.ring e.ring).head + 1) % (s.dev.ring e.ring).entries = (s.dev.ring e.ring).tail % (s.dev.ring e.ring).entries →
    exec (.eventRaise now) s = .next (s.withDev (({ s.dev with ev := { s.dev.ev with staging := rest } } : Dev).modRing e.ring Ring.drop))) ∧
  (∀ (s : State) (o : TxFetch) (ds : List TxDesc) (r : Ring) (d : Dev), o.ring ≤ 3 → r = s.dev.pktRing o.ring → r.enable = true → s.dev.host.d3 = false → s.dev.backPressure = false → s.dev.gated = false →
    s.dev.ringBefore o.ring o.ready = false → frameDescs (o.descs.take r.posted) = some ds →
    d = (s.dev.modPktRing o.ring (fun r => { r with head := (r.head + ds.length) % r.entries })).signal (8 + o.ring) →
    exec (.hostTxFetch o) s = .next { s with
      hostMem := returnDescs s.hostMem r (txBad ds) r.head ds,
      dev := if txBad ds then (d.count 20 .hostTxErr o.ring).raiseFirst 0x3DA (le 1 o.ring ++ le 2 r.head)
        else (d.count 20 .hostTxFrames o.ring).pipeline (Pkt.make (ds.flatMap (fun x => fit x.len x.data)) 4 o.ring (0x4030 + o.ring) 80 o.lane o.now) })

/-- CYCLE_LO and SNAP_LO answer the low word of the cycle number and of the snapshot's and latch the high word. A write of a ring's CTRL sets
COALESCE_US and ENABLE, and SIZE where ENABLE read 0 and the value is 0 to 10; enabling a ring sets its indexes to 0 and its phase to 1. A write of
DOORBELL_HI, a context's CTRL, BASE, TAIL, the MSI-X table, PERMIT or DUMP_TAIL sets that and nothing else, an unaligned one nothing; after a write to
a host packet ring the DRR rings of the ring points are renewed (R208); a pending ring message goes out when its coalescing interval ends. EVENT_ROUTE
changes the routes it names. A host-interface reset returns contexts, rings and the MSI-X table to reset; READY is set once with its event. Entering
D3hot sets it; leaving it sends the messages that were held and takes the doorbells that waited (log entry 74). SYS_INFO answers and changes nothing.
(R8, R432, R433, R434, R443, R446, R447, R448, R485, R498) -/
def Obligations.HostRegisters : Prop :=
  (∀ s : State, exec .cycleLoRead s = .next (s.withDev { s.dev with host := { s.dev.host with
    readData := s.dev.now % 2 ^ 32, cycleHi := s.dev.now / 2 ^ 32 % 2 ^ 16 } })) ∧
  (∀ s : State, exec .snapLoRead s = .next (s.withDev { s.dev with
    host := { s.dev.host with readData := s.dev.ctr.snapC % 2 ^ 32 },
    ctr := { s.dev.ctr with snapHi := s.dev.ctr.snapC / 2 ^ 32 % 2 ^ 16 } })) ∧
  (∀ (s : State) (k v : Nat),
    (k < 112 → exec (.eventRingCtrlWrite k v) s = .next (s.withDev (s.dev.modRing k (fun r => r.ctrl v)))) ∧
    (112 ≤ k → k < 120 → exec (.eventRingCtrlWrite k v) s = .next (s.withDev (({ s.dev with host := { s.dev.host with
      pktRings := lmod s.dev.host.pktRings (k - 112) Ring.reset (fun r => r.ctrl v) } } : Dev).syncDrr 0 isRingPoint)))) ∧
  (∀ (r : Ring) (v : Nat),
    (r.enable = false → bitOf v 0 = true → r.ctrl v = { r with
      coalesce := field v 16 16, enable := true, size := if field v 8 4 ≤ 10 then field v 8 4 else r.size, head := 0, tail := 0, phase := true,
      lastMsg := none, msgDue := false }) ∧
    (r.enable = true → r.ctrl v = { r with coalesce := field v 16 16, enable := bitOf v 0 })) ∧
  (∀ (s : State) (v : Nat),
    exec (.registerWrite 0x6000 v) s = .next (s.withDev { s.dev with ctr := { s.dev.ctr with permit := v % 2 ^ 32 % 2 ^ 22 } }) ∧
    exec (.registerWrite 0x6010 v) s = .next (s.withDev { s.dev with ctr := { s.dev.ctr with dumpTail := v % 2 ^ 32 } }) ∧
    (∀ c, c < 8 → exec (.registerWrite (0x1000 + 0x200 * c + 4) v) s = .next (s.withDev (s.dev.modCtx c (fun x => { x with doorbellHi := v % 2 ^ 32 }))) ∧
      exec (.registerWrite (0x1000 + 0x200 * c + 8) v) s = .next (s.withDev (s.dev.modCtx c (fun x =>
        { x with allow := field (v % 2 ^ 32) 17 14, enable := bitOf (v % 2 ^ 32) 0 })))) ∧
    (∀ k o, k < 112 → o < 0x40 → o % 4 = 0 → exec (.registerWrite (0x4000 + 0x40 * k + o) v) s = .next (s.withDev (s.dev.modRing k (fun r => r.write o (v % 2 ^ 32))))) ∧
    (∀ k o, k < 8 → o < 0x40 → o % 4 = 0 → exec (.registerWrite (0x8000 + 0x40 * k + o) v) s = .next (s.withDev (({ s.dev with host := { s.dev.host with
      pktRings := lmod s.dev.host.pktRings k Ring.reset (fun r => r.write o (v % 2 ^ 32)) } } : Dev).syncDrr 0 isRingPoint))) ∧
    (∀ w, w < 512 → exec (.registerWrite (0xC000 + 4 * w) v) s = .next (s.withDev { s.dev with host := s.dev.host.msixWrite w (v % 2 ^ 32) }))) ∧
  (∀ (s : State) (a v : Nat), a % 4 ≠ 0 → ¬ (0x8000 ≤ a ∧ a < 0x8200) → exec (.registerWrite a v) s = .next s) ∧
  (∀ (s : State) (k now : Nat),
    (k < 112 → (s.dev.ring k).expired (s.dev.clk now) = true →
      exec (.eventCoalesceExpiry k now) s = .next (s.withDev ((s.dev.modRing k (fun r => { r with msgDue := false, lastMsg := some (s.dev.clk now) })).signal (16 + k)))) ∧
    (∀ j r, k = 112 + j → j < 8 → r = lget s.dev.host.pktRings j Ring.reset → r.expired (s.dev.clk now) = true →
      exec (.eventCoalesceExpiry k now) s = .next (s.withDev (({ s.dev with host := { s.dev.host with
        pktRings := lset s.dev.host.pktRings j { r with msgDue := false, lastMsg := some (s.dev.clk now) } } } : Dev).signal (8 + j))))) ∧
  (∀ (s : State) (ctx : Nat) (r : EventRouteReq), s.dev.served ctx 0x0D03 = true → r.first + r.count ≤ 1024 → (r.ring ≤ 111 ∨ r.ring = 255) →
    exec (.eventRoute ctx r) s = .next (s.done ctx (fun d => { d with ev := { d.ev with
      routes := (rangeFrom r.first r.count).foldl (fun t n => tput t n 0 r.ring) d.ev.routes } }) [])) ∧
  (∀ (s : State) (ctx : Nat), s.dev.served ctx 0x0101 = true → exec (.sysInfo ctx) s = .next (s.answered ctx .ok (sysInfoResp (s.dev.begun ctx)))) ∧
  (∀ (s : State) (cause : Nat), ∃ d : Dev, exec (.hostInterfaceReset cause) s = .next (s.withDev ((d.raise 0x3DB [] cause).syncDrr 0 isRingPoint)) ∧
    d.host.evRings = List.replicate 112 Ring.reset ∧ d.host.pktRings = List.replicate 8 Ring.reset ∧ d.host.msix = [] ∧ d.host.pba = [] ∧ d.host.rung = [] ∧ d.host.d3 = false ∧
    d.host.results = (s.dev.host.results.filter (fun r => r.status.isNone)).map (fun r => { r with noResponse := true }) ∧ d.trees = s.dev.trees ∧ d.pool = s.dev.pool) ∧
  (∀ s : State, exec (.d3hotTransition true) s = .next (s.withDev { s.dev with host := { s.dev.host with d3 := true } })) ∧
  (∀ (s : State) (h : HostIf) (d : Dev) (r : Dev × List Host.Cell), h = { s.dev.host with d3 := false } →
    d = { s.dev with host := (h.pba.filter (fun v => !h.masked v)).foldl HostIf.signal { h with pba := h.pba.filter h.masked } } →
    r = (d.host.rung.foldl (fun (r : Dev × List Host.Cell) o => doorbell o r.1 r.2) ({ d with host := { d.host with rung := [] } }, s.hostMem)) → d.host.rung ≠ [] →
    exec (.d3hotTransition false) s = .next { s with dev := r.1, hostMem := r.2 }) ∧
  (∀ (s : State) (d : Dev), s.dev.host.ready = false → s.dev.dev.power ≠ .offVbat →
    d = { s.dev with host := { s.dev.host with ready := true, evtReady := true }, dev := { s.dev.dev with mgmtRestartRef := none, resetCause := 0 } } →
    exec .evtReady s = .next (s.withDev ((if s.dev.dev.resetCause = 0 then d else d.raise 0x3A7 [] s.dev.dev.resetCause).completeOpt s.dev.dev.mgmtRestartRef .ok)))

/-- SYS_RESET SYSTEM with its confirm word sets the reset for 1 ms later; MANAGEMENT restarts the management unit. A valid profile section is loaded
and the command completes. POWER_STATE_SET and SLUICE_BUDGET_SET with valid operands wait for the boundary. SLUICE_STATUS answers with its state.
(R503, R504, R506, R507, R508) -/
def Obligations.PowerAndBudget : Prop :=
  (∀ (s : State) (ctx : Nat), s.dev.served ctx 0x0102 = true → s.dev.upd.pause = none →
    exec (.sysResetSystem ctx 0x6408) s = .next (s.withDev { s.dev.begun ctx with dev := { s.dev.dev with resetAt := some (s.dev.now + 8) } })) ∧
  (∀ (s : State) (ctx : Nat), s.dev.served ctx 0x0102 = true → s.dev.upd.pause = none →
    exec (.sysResetManagement ctx 0x6408) s = .next (s.withDev ((s.dev.begun ctx).mgmtRestart 2 (some (s.dev.refOf ctx))))) ∧
  (∀ (s : State) (ctx : Nat) (r : BoardProfileReq) (b : Bytes), s.dev.served ctx 0x0103 = true → r.section_ ≤ 3 → r.length = sectionLength r.section_ → s.dev.host.d3 = false →
    s.dev.upd.session.elim false (fun x => decide (x.state = .verifying)) = false → r.data = some b → sectionOk r.section_ b = true →
    exec (.boardProfileLoad ctx r) s = .next (s.done ctx (fun d =>
      (if r.persist then { d with flash := d.flash.set r.section_ b } else d).loadSection r.section_ b ctx) [])) ∧
  (∀ (s : State) (ctx : Nat) (p : PowerState), s.dev.served ctx 0x0104 = true → p ∈ [PowerState.active, .trim, .quiet, .doze] →
    exec (.powerStateSet ctx p.code) s = .next (s.withDev { s.dev.begun ctx with dev := { s.dev.dev with
      powerPend := s.dev.dev.powerPend ++ [(s.dev.refOf ctx, p)] } })) ∧
  (∀ (s : State) (ctx : Nat) (r : BudgetReq), s.dev.served ctx 0x0105 = true → 80 ≤ r.budget → r.budget ≤ 480 → 1 ≤ r.waitLimit → r.waitLimit ≤ 3600 →
    r.prio.length = 7 → r.prio.all (fun p => decide (p ≤ 3)) = true →
    exec (.sluiceBudgetSet ctx r) s = .next (s.withDev { s.dev.begun ctx with sluice := { s.dev.sluice with
      pend := s.dev.sluice.pend ++ [(s.dev.refOf ctx, r.budget, r.waitLimit, r.prio)] } })) ∧
  (∀ (s : State) (ctx : Nat), s.dev.served ctx 0x0106 = true → exec (.sluiceStatus ctx) s = .next (s.answered ctx .ok (sluiceStatusResp (s.dev.begun ctx))))

/-- A power-on reset takes the device address from its pins and the references found good, boots, and brings the security unit up. A boot leaves
trees, buffers, tables, cycle, host interface, time and Towpath at reset and the keys gone, takes the address and the cause, and keeps lifecycle, VBAT
domain and the profile of the flash. SRST_N, and a SYS_RESET whose 1 ms has passed, reset the system, with the address and the judgement of the
references kept. A loss of the main rails boots so too, with debug closed and no uplink lit. A missed watchdog of a core that is not halted restarts
the management unit: the third restart within 60 s is a system reset, one in TRIAL a rollback, otherwise READY clears. Settings come back once after
each boot: ring size, ALIGN, the enabled links and the attached trees. A fatal error of Adesa stops it, in TRIAL with a rollback. A fall of VBAT while
main power is off loses the owner key. (R380, R462, R491, R498, R499, R502) -/
def Obligations.ResetsAndRails : Prop :=
  (∀ (s : State) (p : PorPins) (e : Dev) (wA wB : Option Nat), e = s.dev.booted (p.devAddr % 64) 1 → wA = (if p.refA then none else some 80000) →
    wB = (if p.refB then none else some 80000) →
    exec (.powerOnReset p) s = .next (s.withDev
      (({ e with ref := ({ e.ref with goodA := p.refA, goodB := p.refB, waitA := wA, waitB := wB } : RefClk).first } : Dev).secureBoot true))) ∧
  (∀ (d : Dev) (a c : Nat), (d.booted a c).trees = Dev.reset.trees ∧ (d.booted a c).pool = Dev.reset.pool ∧ (d.booted a c).fdb = Dev.reset.fdb ∧
    (d.booted a c).clock = Dev.reset.clock ∧ (d.booted a c).host = Dev.reset.host ∧ (d.booted a c).time = Dev.reset.time ∧ (d.booted a c).tow = Dev.reset.tow ∧
    (d.booted a c).dev.devAddr = a ∧ (d.booted a c).dev.strap = a ∧ (d.booted a c).dev.resetCause = c ∧ (d.booted a c).dev.power = .active ∧
    (d.booted a c).sec.lifecycle = d.sec.lifecycle ∧ (d.booted a c).sec.vbat = d.sec.vbat ∧ (d.booted a c).sec.keys = [] ∧
    (d.booted a c).sec.debug = debugAtReset d.sec.lifecycle ∧ (d.booted a c).profile = d.flash) ∧
  (∀ s : State, s.dev.dev.power ≠ .offVbat →
    exec (.systemReset 2) s = .next (s.withDev (s.dev.systemReset 2)) ∧
    (∀ r, s.dev.dev.resetAt = some r → r ≤ s.dev.now → exec (.systemReset 3) s = .next (s.withDev (s.dev.systemReset 3)))) ∧
  (∀ (d : Dev) (c : Nat) (e : Dev) (wA wB : Option Nat), e = d.booted d.dev.devAddr c → wA = d.ref.waitA.map (fun n => n - d.up) →
    wB = d.ref.waitB.map (fun n => n - d.up) →
    d.systemReset c =
      ({ e with ref := ({ e.ref with goodA := d.ref.goodA, goodB := d.ref.goodB, waitA := wA, waitB := wB } : RefClk).first } : Dev).secureBoot false) ∧
  (∀ (s : State) (e : Dev), s.dev.dev.power ≠ .offVbat → e = s.dev.booted s.dev.dev.devAddr 1 →
    exec .mainRailsLost s = .next (s.withDev { e with
      dev := { e.dev with power := .offVbat }, sec := { e.sec with debug := .closed }, upl := { e.upl with lit := [] } })) ∧
  (∀ (s : State) (c : Nat), s.dev.dev.power ≠ .offVbat → c ≤ 3 → s.dev.coreHalted c = false →
    exec (.managementRestart c) s = .next (s.withDev (s.dev.mgmtRestart 1 none))) ∧
  (∀ (d d2 d3 : Dev) (cause : Nat) (ref : Option CmdRef) (l : List Nat),
    l = (d.now :: d.dev.restarts).filter (fun t => decide (d.now < t + 60 * Config.ticksPerSecond)) →
    ((∃ u, d.sec.debug = .challengeOpen u) ∧ d2 = d.setDebug .closed) ∨ ((∀ u, d.sec.debug ≠ .challengeOpen u) ∧ d2 = d) →
    d3 = ({ d2 with dev := { d2.dev with restarts := l } } : Dev).raise 0x3A6 [] cause →
    (3 ≤ l.length → d.mgmtRestart cause ref = d3.systemReset 4) ∧
    (l.length < 3 → d3.upd.trial.isSome = true → d.mgmtRestart cause ref = d3.rollback 6 ref) ∧
    (l.length < 3 → d3.upd.trial.isSome = false → d.mgmtRestart cause ref = { d3 with
      host := { d3.host with ready := false, evtReady := false, fatal := false }, dev := { d3.dev with mgmtRestartRef := ref } })) ∧
  (∀ (s : State) (x : Settings) (d d2 d3 : Dev), s.dev.host.ready = true → s.dev.dev.restoreDue = true → x = s.dev.upd.settings s.dev.dev.slot →
    d = ({ s.dev with
      dev := { s.dev.dev with restoreDue := false },
      recd := { s.dev.recd with set := { s.dev.recd.set with ring := if s.dev.recd.set.run then s.dev.recd.set.ring else x.ring } } } : Dev).resized →
    d2 = { d with tow := { d.tow with align := x.align, alignWait := x.alignWait } } →
    d3 = (x.links.filter (fun l => d2.towEnabled l.1)).foldl (fun (d : Dev) l => ((d.modLink l.1 (fun y => { y with cost := l.2 })).wakeLink l.1 9).1)
      (if (x.links.filter (fun l => d2.towEnabled l.1)).isEmpty then d2 else { d2 with tow := { d2.tow with enabledAt := some d2.now } }) →
    exec .settingsRestore s = .next (s.withDev (x.trees.foldl (fun (d : Dev) t => treeAttach t.1 t.2 adesaRef d) d3))) ∧
  (∀ (s : State) (d : Dev), s.dev.dev.power ≠ .offVbat → s.dev.host.fatal = false → d = { s.dev with host := { s.dev.host with fatal := true } } →
    exec .adesaFatal s = .next (s.withDev (if s.dev.upd.trial.isSome then d.rollback 6 none else d))) ∧
  (∀ s : State, s.dev.dev.power = .offVbat →
    exec .vbatFall s = .next (s.withDev (if s.dev.sec.vbat.ownerKey.isSome then
      { s.dev with sec := { s.dev.sec with vbat := { s.dev.sec.vbat with ownerKey := none, keyLost := true } } } else s.dev)))

/-- TREE_ATTACH of a present detached tree starts its attach: the seal is taken, the module's identity is asked for, and a tree that R57 does not keep
idle starts its wake; TREE_DETACH, TREE_SEAL and TREE_UNSEAL of an attached tree wait for the boundary; TREE_CONFIG writes the module's settings;
QUIET_WINDOW_SET queues its settings; TREE_STATUS answers and changes nothing. (R57, R59, R136, R139, R140, R509, R510, R511) -/
def Obligations.TreeCommands : Prop :=
  (∀ (s : State) (ctx t : Nat) (b : Bool), s.dev.served ctx 0x0201 = true → s.dev.treePresent t = true → (s.dev.tree t).attach = .detached →
    s.dev.tow.attachWait.any (fun e => e.2.1 == t) = false → s.dev.profile.tree.isSome = true → s.dev.dev.power ≠ .quiet → s.dev.dev.power ≠ .doze → s.dev.alignDue = false →
    exec (.treeAttach ctx t b) s = .next (s.withDev ((s.dev.begun ctx).startAttach t b (s.dev.refOf ctx)))) ∧
  (∀ (d d2 : Dev) (t : Nat) (b : Bool) (ref : CmdRef), d2 = (({ d with
      clock := { d.clock with everAttached := true }, dev := { d.dev with busFaulty := d.dev.busFaulty.filter (· != t / 8) } } : Dev).modTree t
        (fun x => { x with attach := .attaching ref b, sealed := b })).askModule t true →
    d.startAttach t b ref = if d2.wantsLit t then d2.startSeries t (some ref) ref.ctx else d2) ∧
  (∀ (s : State) (ctx t : Nat), s.dev.served ctx 0x0202 = true → tget s.dev.prot.ports t = none → s.dev.treePresent t = true → (s.dev.tree t).attach = .attached →
    (s.dev.tree t).detachPend = none →
    exec (.treeDetach ctx t) s = .next (s.withDev ((s.dev.begun ctx).modTree t (fun x => { x with detachPend := some (s.dev.refOf ctx) })))) ∧
  (∀ (s : State) (ctx : Nat) (r : TreeConfigReq), s.dev.served ctx 0x0203 = true → s.dev.treePresent r.tree = true →
    exec (.treeConfig ctx r) s = .next (s.done ctx (fun d => ({ d with dev := { d.dev with
        busFast := if r.fast then r.tree / 8 :: d.dev.busFast.filter (· != r.tree / 8) else d.dev.busFast.filter (· != r.tree / 8) } } : Dev).modTree r.tree
      (fun x => { x with lanes := { x.lanes with mset := { x.lanes.mset with txDisableIdle := r.txDisableIdle, rateSelect := r.rateSelect } } })) [])) ∧
  (∀ (s : State) (ctx t : Nat), s.dev.served ctx 0x0206 = true → s.dev.treePresent t = true →
    exec (.treeStatus ctx t) s = .next (s.answered ctx .ok (treeStatusResp (s.dev.begun ctx) t))) ∧
  (∀ (s : State) (ctx t : Nat), s.dev.served ctx 0x0204 = true → s.dev.treeUp t = true →
    exec (.treeSeal ctx t) s = .next (s.withDev ((s.dev.begun ctx).modTree t (fun x => { x with sealPend := x.sealPend ++ [(s.dev.refOf ctx, true)] })))) ∧
  (∀ (s : State) (ctx t : Nat), s.dev.served ctx 0x0204 = true → s.dev.treeUp t = true →
    exec (.treeUnseal ctx t) s = .next (s.withDev ((s.dev.begun ctx).modTree t (fun x => { x with sealPend := x.sealPend ++ [(s.dev.refOf ctx, false)] })))) ∧
  (∀ (s : State) (ctx : Nat) (r : QwSetReq), s.dev.served ctx 0x0205 = true → s.dev.treeUp r.tree = true → r.reach ≤ 1 → r.mode ≤ 1 → 16 ≤ r.period →
    r.period ≤ 4096 → r.phase < r.period →
    exec (.quietWindowSet ctx r) s = .next (s.done ctx (fun d => d.modTree r.tree (fun x => { x with disc := { x.disc with
      settingsPend := x.disc.settingsPend ++ [{ reach := r.reach, mode := r.mode, period := r.period, phase := r.phase }] } })) []))

/-- TERMINAL_ADMIT of a serial that is not listed lists it; TERMINAL_REMOVE of a terminal without an id marks it for the boundary; of one with an id
it withdraws its grants, holds the id and sends REMOVE, to a dozing terminal in time for its next wake; TERMINAL_STATUS and RANGE_REPORT answer and
change nothing; TERMINAL_DOZE_POLICY, its ranges tested where it enables, applies the policy, which replaces the terminal's; on a tree of a group it
is accepted and the tree stays as it was. (R126, R132, R137, R141, R142, R143, R287) -/
def Obligations.TerminalCommands : Prop :=
  (∀ (s : State) (ctx : Nat) (r : AdmitReq), s.dev.served ctx 0x0301 = true → s.dev.treeUp r.tree = true → (s.dev.tree r.tree).bySerial r.serial = none →
    (r.dynamic = true ∨ (r.id ≤ 255 ∧ (s.dev.tree r.tree).idTaken r.serial r.id = false)) → (r.lostTime = 0 ∨ (8 ≤ r.lostTime ∧ r.lostTime ≤ 1048576)) →
    (s.dev.tree r.tree).terms.length < 256 →
    exec (.terminalAdmit ctx r) s = .next (s.done ctx (fun d => d.modTree r.tree (fun x => { x with
      terms := x.terms ++ [Term.listed_ r.serial (if r.dynamic then none else some r.id) r.fec r.lostTime] })) [])) ∧
  (∀ (s : State) (ctx : Nat) (r : RemoveReq) (x : Term), s.dev.served ctx 0x0302 = true → s.dev.treeUp r.name.tree = true →
    (s.dev.tree r.name.tree).named r.name = some x → x.removing = none → x.id = none →
    exec (.terminalRemove ctx r) s = .next (s.withDev ((s.dev.begun ctx).modTerm r.name.tree x.serial (fun y => { y with removing := some (s.dev.refOf ctx) })))) ∧
  (∀ (s : State) (ctx : Nat) (r : RemoveReq) (x : Term) (id a : Nat) (z : Option Doze), s.dev.served ctx 0x0302 = true → s.dev.treeUp r.name.tree = true →
    (s.dev.tree r.name.tree).named r.name = some x → x.removing = none → x.id = some id → z = (if x.state = .dozing then x.doze else none) →
    a = z.elim (s.dev.now + 1) (fun z => (s.dev.tree r.name.tree).wakeToName z s.dev.nextFrame - 4) →
    exec (.terminalRemove ctx r) s = .next (s.withDev (((s.dev.begun ctx).modTree r.name.tree (fun y =>
      (((y.withdrawGrants x s.dev.nextBuild).modTerm x.serial (fun v => { v with
          removing := some (s.dev.refOf ctx), doze := z.map (fun w => { w with goneFrom := some s.dev.nextBuild }) })).hold x.serial id
        (s.dev.now + holdTicks)).queueMsg { lockMsg id 0x15 2 (be 2 r.holdoff ++ be 1 1 ++ be 1 0) none [] .plain .remove x.serial a with
          ref := some (s.dev.refOf ctx) })).clearBacklog r.name.tree id))) ∧
  (∀ (s : State) (ctx : Nat) (n : TermName) (x : Term), s.dev.served ctx 0x0303 = true → s.dev.treeUp n.tree = true → (s.dev.tree n.tree).named n = some x →
    exec (.terminalStatus ctx n) s = .next (s.answered ctx .ok (terminalStatusResp (s.dev.begun ctx) n.tree x))) ∧
  (∀ (s : State) (ctx : Nat) (r : DozeReq) (x : Term), s.dev.served ctx 0x0304 = true → s.dev.treeUp r.name.tree = true →
    (s.dev.tree r.name.tree).named r.name = some x → (r.enable = true → 1 ≤ r.period ∧ r.period ≤ 4096 ∧ 1 ≤ r.idle ∧ r.idle ≤ 16384) →
    (s.dev.port r.name.tree = none → exec (.terminalDozePolicy ctx r) s = .next (s.done ctx (fun d => d.modTerm r.name.tree x.serial (fun y => { y with
      policy := { enable := r.enable, period := r.period, idle := r.idle } })) [])) ∧
    ((s.dev.port r.name.tree).isSome = true → exec (.terminalDozePolicy ctx r) s = .next (s.done ctx (fun d => { d with
      trees := tset (d.modTerm r.name.tree x.serial (fun y => { y with
        policy := { enable := r.enable, period := r.period, idle := r.idle } })).trees r.name.tree (d.tree r.name.tree) }) []))) ∧
  (∀ (s : State) (ctx t n : Nat), s.dev.served ctx 0x0305 = true → s.dev.treeUp t = true →
    exec (.rangeReport ctx t n) s = .next (s.answered ctx .ok (le 4 (((s.dev.tree t).disc.log.drop n).take 64).length ++
      (((s.dev.tree t).disc.log.drop n).take 64).flatMap (fun e =>
        fromResp e.cycle ++ le 8 e.serial ++ le 4 e.range ++ le 1 e.outcome ++ le 1 e.id ++ le 2 0))))

/-- A failed wake attempt is counted, reported and begins a pause of 1 s, and the third ends the series, which returns an attaching tree to detached;
when the pause ends the next attempt is requested; 60 s after a series a new one begins, from idle or standby lanes, while lit lanes are called for. A
module poll makes the access at the head of its bus's queue, after the recoveries that it took; three failed recoveries mark the bus faulty and report
its eight trees. The selected reference that fails loses the selection to the other where that is good, and to none where not. One that recovers after
its wait is taken at the next boundary where none is selected or where it is preferred in revertive mode; a part not clocked yet selects at once.
Without a tick reference ALIGN_WAIT after the enable, waiting attaches go on. (R36, R37, R59, R405, 02_tree_line.md) -/
def Obligations.LaneAndClockEvents : Prop :=
  (∀ (s : State) (t since : Nat) (w : WakeSeries) (d : Dev), (s.dev.tree t).lanes.state = .waking since false → (s.dev.tree t).lanes.wake = some w →
    d = ((s.dev.modTree t (fun x => { x with lanes := { x.lanes with
        state := .waking since true, wake := some { w with failures := w.failures + 1, phase := .pausing (s.dev.now + Config.ticksPerSecond) } } })).countTree t
      .wakeFail).lineEvent t 5 none →
    exec (.laneWakeFail t) s = .next (s.withDev (if 3 ≤ w.failures + 1 then d.endSeries t .noResource else d))) ∧
  (∀ (d d2 : Dev) (t : Nat) (st : Status) (w : WakeSeries), (d.tree t).lanes.wake = some w →
    d2 = d.modTree t (fun x => { x with lanes := { x.lanes with wake := none, nextSeries := some (d.now + 60 * Config.ticksPerSecond) } }) →
    d.endSeries t st = w.ref.elim d2 (fun ref => (d2.modTree t (fun x => { x with attach := .detached, since := d2.now })).complete ref st)) ∧
  (∀ (s : State) (t a : Nat) (w : WakeSeries), (s.dev.tree t).lanes.wake = some w → w.phase = .pausing a → a ≤ s.dev.now →
    exec (.wakeRetry t) s = .next (s.withDev ((s.dev.modTree t (fun x => { x with lanes := { x.lanes with wake := some { w with phase := .waiting } } })).requestWake t 9))) ∧
  (∀ (s : State) (t n : Nat), (s.dev.tree t).attached = true → (s.dev.tree t).lanes.state.txIdle = true → (s.dev.tree t).lanes.wake = none → s.dev.wantsLit t = true →
    (s.dev.tree t).lanes.nextSeries = some n → n ≤ s.dev.now →
    exec (.wakeSeriesRestart t) s = .next (s.withDev (s.dev.startSeries t none 9))) ∧
  (∀ (s : State) (r : ModulePoll) (a : BusAccess) (rest : List BusAccess) (i : Bool) (ops : List BusOp) (data : Bytes × Bytes × Bytes × Nat × Nat × Nat),
    s.dev.host.idle = false → s.dev.treePresent r.tree = true →
    s.dev.dev.busFaulty.contains (r.tree / 8) = false → (s.dev.bus (r.tree / 8)).queue = a :: rest → a.tree = r.tree → r.failedRecoveries < 3 → r.data = some data →
    i = (a.identity || (s.dev.tree r.tree).lanes.module.isNone) → ops = busRecoveries r ++ accessOps (r.tree % 8) i (s.dev.tree r.tree).lanes.mset →
    exec (.modulePoll r) s = .next (s.withDev ((s.dev.modBus (r.tree / 8) (fun _ => { queue := rest, done := ops, connected := ops.foldl BusOp.connected 0 })).modTree
      r.tree (fun x => { x with lanes := x.lanes.access i data })))) ∧
  (∀ r : ModulePoll, (3 ≤ r.failedRecoveries → busRecoveries r = List.replicate 3 BusOp.recover) ∧
    (r.failedRecoveries < 3 → r.held = true ∨ 0 < r.failedRecoveries → busRecoveries r = List.replicate (r.failedRecoveries + 1) BusOp.recover) ∧
    (r.failedRecoveries = 0 → r.held = false → busRecoveries r = [])) ∧
  (∀ (s : State) (r : ModulePoll) (a : BusAccess) (rest : List BusAccess) (d : Dev), s.dev.host.idle = false → s.dev.treePresent r.tree = true →
    s.dev.dev.busFaulty.contains (r.tree / 8) = false → (s.dev.bus (r.tree / 8)).queue = a :: rest → a.tree = r.tree → 3 ≤ r.failedRecoveries →
    d = ({ s.dev with dev := { s.dev.dev with busFaulty := r.tree / 8 :: s.dev.dev.busFaulty } } : Dev).modBus (r.tree / 8) (fun b => { b with queue := [], done := busRecoveries r }) →
    exec (.modulePoll r) s = .next (s.withDev ((rangeFrom (8 * (r.tree / 8)) 8).foldl (fun d t => d.lineEvent t 6 none) d))) ∧
  (∀ (s : State) (i : Nat) (r : RefClk), i ≤ 1 → s.dev.ref.good i = true →
    r = (s.dev.ref.setGood i false).setFail i (if s.dev.clocked then some (s.dev.up + 80000) else none) →
    (r.selected = some i → r.good (1 - i) = true → exec (.refclkFail i) s = .next (s.withDev
      (({ s.dev with ref := { r with selected := some (1 - i), switchTo := none } } : Dev).raise 0x302))) ∧
    (r.selected = some i → r.good (1 - i) = false → exec (.refclkFail i) s = .next (s.withDev
      (({ s.dev with ref := { r with selected := none, switchTo := none } } : Dev).raise (0x300 + i)))) ∧
    (r.selected ≠ some i → exec (.refclkFail i) s = .next (s.withDev { s.dev with ref := { r with
      switchTo := if r.selected.isNone then r.best else if r.switchTo = some i then none else r.switchTo } }))) ∧
  (∀ (s : State) (a b : Bool) (r : RefClk), r = { s.dev.ref with
      goodA := s.dev.ref.goodA || (a && s.dev.refWaited 0), goodB := s.dev.ref.goodB || (b && s.dev.refWaited 1) } →
    (r.selected = none → s.dev.clocked = false → exec (.refclkRestore a b) s = .next (s.withDev { s.dev with ref := { r with selected := r.best } })) ∧
    (r.selected = none → s.dev.clocked = true → exec (.refclkRestore a b) s = .next (s.withDev { s.dev with ref := { r with switchTo := r.best } })) ∧
    (∀ i, r.selected = some i → exec (.refclkRestore a b) s = .next (s.withDev { s.dev with
      ref := if i ≠ r.pref ∧ r.revertive = true ∧ r.good r.pref = true ∧ s.dev.ref.good r.pref = false then { r with switchTo := some r.pref } else r }))) ∧
  (∀ (d : Dev) (i : Nat), d.ref.pendPref = none → d.ref.switchTo = some i →
    d.refBoundary = { d with ref := { d.ref with switchTo := none, selected := if d.ref.good i then some i else d.ref.selected } }) ∧
  (∀ (s : State) (e : Nat), s.dev.tow.enabledAt = some e → s.dev.tickRef = none → e * 1000 + s.dev.tow.alignWait * Config.ticksPerSecond ≤ s.dev.now * 1000 →
    exec .alignWaitExpiry s = .next (s.withDev (({ s.dev with tow := { s.dev.tow with alignOver := true } } : Dev).releaseAttach)))

/-- A request that has waited 1 s is reported once and stays; one that has waited WAIT_LIMIT leaves the FIFO and completes NOT_ADMITTED. The rinse is
requested in ACTIVE while none waits or runs; at its end its tokens are due for release and HBM is usable where the pass was clean. (R200, R492, R493,
R494, R514) -/
def Obligations.SluiceAndRinse : Prop :=
  (∀ (s : State) (due : SluiceReq → Bool) (d : Dev), due = (fun r => !r.reported && decide (r.since + Config.ticksPerSecond ≤ s.dev.now)) →
    d = { s.dev with sluice := { s.dev.sluice with fifo := s.dev.sluice.fifo.map (fun r => if due r then { r with reported := true } else r) } } →
    exec .sluiceWait s = .next (s.withDev ((s.dev.sluice.fifo.filter due).foldl (fun (d : Dev) r => d.raise 0x3A1 (le 1 r.index ++ le 1 r.op.code)) d))) ∧
  (∀ (s : State) (due : SluiceReq → Bool) (d : Dev), due = (fun r => decide (r.since + s.dev.sluice.waitLimit * Config.ticksPerSecond ≤ s.dev.now)) →
    d = { s.dev with sluice := { s.dev.sluice with fifo := s.dev.sluice.fifo.filter (fun r => !due r) } } →
    exec .sluiceWaitLimit s = .next (s.withDev ((s.dev.sluice.fifo.filter due).foldl (fun (d : Dev) r => (d.notAdmitted r.index r.op.code).dropOp r) d))) ∧
  (∀ s : State, s.dev.sluice.fifo.any (fun r => r.op == .hbmRinse) = false → s.dev.sluice.held.any (fun h => h.op == .hbmRinse && h.ended.isNone) = false →
    s.dev.dev.power = .active → s.dev.sluice.fifo.length < 1024 → s.dev.sluice.base + s.dev.sluice.reserve + HeavyOp.hbmRinse.cost ≤ s.dev.sluice.budget →
    exec .hbmRinseStart s = .next (s.withDev { s.dev with sluice := { s.dev.sluice with
      fifo := s.dev.sluice.fifo ++ [{ op := .hbmRinse, index := 14, since := s.dev.now, ref := none, reported := false }] } })) ∧
  (∀ (s : State) (b : Bool) (d : Dev), s.dev.sluice.held.any (fun h => h.op == .hbmRinse && h.ended.isNone) = true → d = s.dev.endOp (fun o => o = .hbmRinse) →
    exec (.hbmRinseDone b) s = .next (s.withDev { d with pool := { d.pool with hbmUsable := b } }))

/-- FLOW_CREATE of an unused flow number, with a listed terminal for DIR 0 and 1, a present egress for DIR 1 and 2 and profiles in range, creates it
accepting from the next frame with no binding, takes the profiles of its eight queues and sends FLOW_BIND to the terminal; FLOW_DELETE marks the flow
and waits for the boundary, at which it accepts no more and, where it drains, keeps its queues until the time given, or else discards them. (R197,
R198, R21) -/
def Obligations.FlowCommands : Prop :=
  (∀ (s : State) (ctx : Nat) (r : FlowReq) (ser : Nat) (f : Flow), s.dev.served ctx 0x0401 = true → r.flow ≤ 131071 → s.dev.flow r.flow = none → r.dir ≤ 2 →
    (r.dir ≤ 1 → s.dev.treePresent r.tree = true ∧ ((s.dev.tree r.tree).byId r.id).map (fun x => x.serial) = some ser) → (r.dir = 2 → ser = 0) →
    (1 ≤ r.dir → 0x40 ≤ r.egress ∧ r.egress ≤ 0xA4 ∧ s.dev.pointPresent r.egress = true) → r.profile.any (fun p => decide (255 < p)) = false →
    f = {
        dir := r.dir, tree := r.tree, id := r.id, serial := ser, egress := r.egress, accepting := true, acceptFrom := s.dev.now + 1, bound := none,
        deleting := none, drain := false, drainUntil := 0, unbindWait := false, unbound := false } →
    exec (.flowCreate ctx r) s = .next (s.done ctx (fun d =>
      (fun (d : Dev) => if r.dir ≤ 1 then d.modTree r.tree (fun x => x.queueMsg (bindMsg r.id ser r.flow true (s.dev.now + 1))) else d)
        ((List.range 8).foldl (fun d k => d.modQueue (r.flow * 8 + k) (fun y => { y with profile := lget r.profile k 0 }))
          { d with
            pool := { d.pool with flows := tset d.pool.flows r.flow f } })) [])) ∧
  (∀ (s : State) (ctx : Nat) (r : FlowDelReq) (f : Flow), s.dev.served ctx 0x0402 = true → s.dev.flow r.flow = some f → f.deleting = none →
    (r.drain = true → 8 ≤ r.drainTicks ∧ r.drainTicks ≤ 65535) →
    exec (.flowDelete ctx r) s = .next (s.withDev (({ s.dev.begun ctx with pool := { s.dev.pool with
      flows := tset s.dev.pool.flows r.flow { f with deleting := some (s.dev.refOf ctx) } } } : Dev).later (.flowDelete (s.dev.refOf ctx) r)))) ∧
  (∀ (d d2 : Dev) (ref : CmdRef) (r : FlowDelReq) (f : Flow), d.flow r.flow = some f →
    d2 = { d with pool := { d.pool with flows := tset d.pool.flows r.flow { f with accepting := false, drain := r.drain, drainUntil := d.now + r.drainTicks } } } →
    d.applyChange (.flowDelete ref r) = if r.drain then d2 else (List.range 8).foldl (fun d k => d.discardQueue (r.flow * 8 + k)) d2)

/-- Each GRANT_SET command waits for the next boundary. There a WEIR or CADENCE with operands in range changes the terminal's standing set: a pinned
start must be free, one not pinned is chosen, the load must fit; a set in force is changed with its table, whose frame completes the command, one of a
terminal that is about to enter IN_SERVICE has its table sent again, and one not in force is only kept. REPORTED, BEST and DEFAULT of a flow of the
tree set the mode and rates of its queue, REPORTED where the load fits; a flow that is not of the tree is INVALID. TREE_PARAMS sets POLL, 8 for 0,
where the load fits. The 28 bytes of a GRANT_SET spell the operation and its operands at the offsets of R173. (R151, R160, R173, R174, R21) -/
def Obligations.GrantCommands : Prop :=
  (∀ (s : State) (ctx : Nat) (r : WeirReq), s.dev.served ctx 0x0403 = true → exec (.grantSetWeir ctx r) s = .next (s.waiting ctx (.weir (s.dev.refOf ctx) r))) ∧
  (∀ (s : State) (ctx : Nat) (r : CadenceReq), s.dev.served ctx 0x0403 = true → exec (.grantSetCadence ctx r) s = .next (s.waiting ctx (.cadence (s.dev.refOf ctx) r))) ∧
  (∀ (s : State) (ctx : Nat) (r : QueueGrantReq), s.dev.served ctx 0x0403 = true → exec (.grantSetReported ctx r) s = .next (s.waiting ctx (.reported (s.dev.refOf ctx) r))) ∧
  (∀ (s : State) (ctx : Nat) (r : QueueGrantReq), s.dev.served ctx 0x0403 = true → exec (.grantSetBest ctx r) s = .next (s.waiting ctx (.best (s.dev.refOf ctx) r))) ∧
  (∀ (s : State) (ctx : Nat) (r : QueueGrantReq), s.dev.served ctx 0x0403 = true → exec (.grantSetDefault ctx r) s = .next (s.waiting ctx (.dfltGrant (s.dev.refOf ctx) r))) ∧
  (∀ (s : State) (ctx t p : Nat), s.dev.served ctx 0x0403 = true → exec (.grantSetTreeParams ctx t p) s = .next (s.waiting ctx (.treeParams (s.dev.refOf ctx) t p))) ∧
  (∀ (d : Dev) (ref : CmdRef) (r : WeirReq), d.treeUp r.tree = true → r.ncw ≤ 8 →
    d.applyChange (.weir ref r) = d.standingChange ref r.tree r.id (fun s => s.weir.map (fun w => (w.start, w.ncw, 1, 0)))
      (if r.ncw = 0 then none else some (r.ncw, 1, 0, r.start)) (fun s b => { s with weir := b.map (fun b => { ncw := r.ncw, start := b }) })) ∧
  (∀ (d : Dev) (ref : CmdRef) (r : CadenceReq), d.treeUp r.tree = true → r.slot ≤ 3 → r.ncw ≤ 805 →
    (r.ncw ≠ 0 → 2 ≤ r.n ∧ r.n ≤ 256 ∧ r.phase < r.n ∧ r.hint.elim true (fun f => decide (f ≤ 131071)) = true) →
    d.applyChange (.cadence ref r) = d.standingChange ref r.tree r.id (fun s => (tget s.cads r.slot).map (fun c => (c.start, c.ncw, c.n, c.phase)))
      (if r.ncw = 0 then none else some (r.ncw, r.n, r.phase, r.start))
      (fun s b => { s with cads := b.elim (tdel s.cads r.slot) (fun b => tset s.cads r.slot { n := r.n, phase := r.phase, ncw := r.ncw, start := b, hint := r.hint }) })) ∧
  (∀ (d : Dev) (ref : CmdRef) (t id : Nat) (old : StandSet → Option (Nat × Nat × Nat × Nat)) (want : Option (Nat × Nat × Nat × Option Nat))
      (update : StandSet → Option Nat → StandSet) (y : Term) (own others : List Standing) (finish : Nat → StandSet → Dev),
    (d.tree t).byId id = some y →
    own = (old y.set).elim [] (fun p => [{ tid := id, start := p.1, ncw := p.2.1, fec := y.fecNeed, n := p.2.2.1, phase := p.2.2.2 }]) →
    others = (if y.setReturned then (d.tree t).standing else (d.tree t).standing.filter (fun s => !own.contains s)) →
    finish = (fun start set =>
      if y.serving d.now || y.state == .dozing then d.putInForce t y.serial y.set set (some ref) (grantResp (d.now + 5) start)
      else if y.setReturned then (d.putInForce t y.serial y.set set none []).complete ref .ok (grantResp d.now start)
      else (d.modTerm t y.serial (fun z => { z with set })).complete ref .ok (grantResp d.now start)) →
    (want = none → d.standingChange ref t id old want update = finish 0 (update y.set none)) ∧
    (∀ ncw n phase b, want = some (ncw, n, phase, some b) → startOk others n phase b (placeCost y.fecNeed ncw) = true →
      d.loadOk t ({ tid := id, start := b, ncw, fec := y.fecNeed, n, phase } :: others) (d.tree t).keep.gq (d.tree t).keep.poll = true →
      d.standingChange ref t id old want update = finish b (update y.set (some b))) ∧
    (∀ ncw n phase b, want = some (ncw, n, phase, none) → chooseStart others n phase (placeCost y.fecNeed ncw) = some b →
      d.loadOk t ({ tid := id, start := 320, ncw, fec := y.fecNeed, n, phase } :: others) (d.tree t).keep.gq (d.tree t).keep.poll = true →
      d.standingChange ref t id old want update = finish b (update y.set (some b)))) ∧
  (∀ (d : Dev) (ref : CmdRef) (r : QueueGrantReq) (old : GrantQ) (put : GrantQ → Dev), d.treeUp r.tree = true → d.grantFlowOk r.tree r.flow = true → 1 ≤ r.cls → r.cls ≤ 7 →
    old = tgetD (d.tree r.tree).keep.gq (r.flow * 8 + r.cls) GrantQ.dflt →
    put = (fun q => (d.modTree r.tree (fun x => { x with keep := { x.keep with gq := tset (d.tree r.tree).keep.gq (r.flow * 8 + r.cls) q } })).complete ref .ok (grantResp d.now 0)) →
    (d.applyChange (.dfltGrant ref r) = put { old with mode := 0, weight := 1, ar := 0, pr := 0, a := 0, p := 0 }) ∧
    (1 ≤ r.weight → r.weight ≤ 255 → d.applyChange (.best ref r) = put { old with mode := 1, weight := r.weight, ar := 0, pr := 0, a := 0, p := 0 }) ∧
    (∀ q, 1 ≤ r.weight → r.weight ≤ 255 → r.pr ≤ 186992 → r.ar ≤ r.pr → r.pr ≠ 0 →
      q = (if old.mode = 2 then { old with weight := r.weight, ar := r.ar, pr := r.pr, a := minInt old.a (8 * r.ar), p := minInt old.p (8 * r.pr) }
        else { old with mode := 2, weight := r.weight, ar := r.ar, pr := r.pr, a := 0, p := 0 }) →
      d.applyChange (.reported ref r) =
        if d.loadOk r.tree (d.tree r.tree).standing (tset (d.tree r.tree).keep.gq (r.flow * 8 + r.cls) q) (d.tree r.tree).keep.poll then put q
        else d.complete ref .noResource)) ∧
  (∀ (ctx : Nat) (b : Bytes), (leAt b 1 1 = 0 → grantSetOf ctx b = some (.grantSetWeir ctx { tree := leAt b 0 1, id := leAt b 2 1, start := optionAt b 8, ncw := leAt b 12 2 })) ∧
    (leAt b 1 1 = 1 → grantSetOf ctx b = some (.grantSetCadence ctx {
        tree := leAt b 0 1, id := leAt b 2 1, slot := leAt b 3 1, hint := optionAt b 4, start := optionAt b 8, ncw := leAt b 12 2, n := leAt b 14 2,
        phase := leAt b 16 2 })) ∧
    (∀ q : QueueGrantReq, q = { tree := leAt b 0 1, cls := leAt b 3 1, flow := leAt b 4 4, weight := leAt b 18 1, ar := leAt b 20 4, pr := leAt b 24 4 } →
      (leAt b 1 1 = 2 → grantSetOf ctx b = some (.grantSetReported ctx q)) ∧ (leAt b 1 1 = 3 → grantSetOf ctx b = some (.grantSetBest ctx q)) ∧
      (leAt b 1 1 = 4 → grantSetOf ctx b = some (.grantSetDefault ctx q))) ∧
    (leAt b 1 1 = 5 → grantSetOf ctx b = some (.grantSetTreeParams ctx (leAt b 0 1) (leAt b 19 1))) ∧ (6 ≤ leAt b 1 1 → grantSetOf ctx b = none)) ∧
  (∀ (d : Dev) (ref : CmdRef) (r : QueueGrantReq), d.grantFlowOk r.tree r.flow = false →
    d.applyChange (.best ref r) = d.complete ref .invalid ∧ d.applyChange (.reported ref r) = d.complete ref .invalid ∧
    d.applyChange (.dfltGrant ref r) = d.complete ref .invalid) ∧
  (∀ (d : Dev) (ref : CmdRef) (t p q : Nat), d.treeUp t = true → p ≤ 64 → q = (if p = 0 then 8 else p) → d.loadOk t (d.tree t).standing (d.tree t).keep.gq q = true →
    d.applyChange (.treeParams ref t p) = (d.modTree t (fun x => { x with keep := { x.keep with poll := q } })).complete ref .ok (grantResp d.now 0))

/-- PROFILE_SET, FEEDER_POLICY and POOL_CONFIG WRITE with operands in range wait for the boundary, which writes what they name and completes them;
BIND, QUANTUM and HIST with a valid range begin a background write of those queues; POOL_CONFIG READ answers and changes nothing. (R199, R200, R201,
R208, R224, R21) -/
def Obligations.QueueAndPoolCommands : Prop :=
  (∀ (s : State) (ctx : Nat) (r : ProfileReq), s.dev.served ctx 0x0404 = true → r.profile ≤ 255 → 16384 ≤ r.maxBytes → r.maxBytes ≤ 16777216 →
    exec (.queueConfigProfileSet ctx r) s = .next (s.waiting ctx (.profileSet (s.dev.refOf ctx) r))) ∧
  (∀ (d : Dev) (ref : CmdRef) (r : ProfileReq), d.applyChange (.profileSet ref r) = (({ d with pool := { d.pool with
    profiles := tput d.pool.profiles r.profile QProfile.reset { d.qprofile r.profile with sample := r.sample, maxBytes := r.maxBytes } } } : Dev).complete ref .ok)) ∧
  (∀ (s : State) (ctx : Nat) (r : BindReq), s.dev.served ctx 0x0404 = true → r.profile ≤ 255 → rangeOk r.first r.count = true →
    exec (.queueConfigBind ctx r) s = .next (s.withDev ((s.dev.begun ctx).addJob (s.dev.refOf ctx) (.profile r.profile) r.first r.count))) ∧
  (∀ (s : State) (ctx : Nat) (r : FeederReq), s.dev.served ctx 0x0407 = true → (r.profile = 0xFFFF → r.enable = true → s.dev.pool.hbmUsable = true) →
    (r.profile ≠ 0xFFFF → r.profile ≤ 255 ∧ r.mode ≤ 1 ∧ 81 ≤ r.spillHi ∧ r.spillHi ≤ 65535 ∧ 16 ≤ r.refillLo ∧ r.refillLo ≤ 65470 ∧ r.refillLo + 65 ≤ r.spillHi) →
    exec (.feederPolicy ctx r) s = .next (s.waiting ctx (.feeder (s.dev.refOf ctx) r))) ∧
  (∀ (d d2 : Dev) (ref : CmdRef) (r : FeederReq), (r.profile = 0xFFFF → r.enable = true → d.pool.hbmUsable = true) →
    (r.profile = 0xFFFF → d2 = { d with pool := { d.pool with feederOn := r.enable, hbmFault := d.pool.hbmFault && !r.enable } }) →
    (r.profile ≠ 0xFFFF → d2 = { d with
      pool := { d.pool with
        profiles := tput d.pool.profiles r.profile QProfile.reset
          { d.qprofile r.profile with basinOnly := decide (r.mode = 1), spillHi := r.spillHi, refillLo := r.refillLo } } }) →
    d.applyChange (.feeder ref r) = d2.complete ref .ok (le 4 (d2.pool.queues.filter (fun e => e.2.spilled)).length ++ le 4 d2.pool.resv.length)) ∧
  (∀ (s : State) (ctx : Nat) (r : PoolReq), s.dev.served ctx 0x0408 = true → r.weirReserve ≤ 32768 → r.refillReserve ≤ 32768 → r.quota.length = 83 →
    r.quota.any (fun q => decide (196608 < q)) = false →
    exec (.poolConfigWrite ctx r) s = .next (s.waiting ctx (.poolWrite (s.dev.refOf ctx) r))) ∧
  (∀ (d : Dev) (ref : CmdRef) (r : PoolReq), ∃ e, e = ({ d with pool := { d.pool with
      quotasOn := r.quotas, weirReserve := r.weirReserve, refillReserve := r.refillReserve, quota := r.quota } } : Dev) ∧
    d.applyChange (.poolWrite ref r) = e.complete ref .ok (poolResp e)) ∧
  (∀ (s : State) (ctx : Nat), s.dev.served ctx 0x0408 = true → exec (.poolConfigRead ctx) s = .next (s.answered ctx .ok (poolResp (s.dev.begun ctx)))) ∧
  (∀ (s : State) (ctx : Nat) (r : QuantumReq), s.dev.served ctx 0x0406 = true → rangeOk r.first r.count = true → 64 ≤ r.quantum → r.quantum ≤ 65536 →
    exec (.schedConfigQuantum ctx r) s = .next (s.withDev ((s.dev.begun ctx).addJob (s.dev.refOf ctx) (.quantum r.quantum) r.first r.count))) ∧
  (∀ (s : State) (ctx : Nat) (r : HistReq), s.dev.served ctx 0x0406 = true → rangeOk r.first r.count = true → r.unit_ ≤ 1023 → (r.enable = true → r.nlog2 ≤ 16) →
    exec (.schedConfigHist ctx r) s = .next (s.withDev ((s.dev.begun ctx).addJob (s.dev.refOf ctx) (.hist r.enable r.unit_ r.nlog2) r.first r.count)))

/-- SHAPER_SET, SCHED_CONFIG POINT and GATE_LIST_SET LIST, PORT and STEER with operands in range wait for the boundary. There the shaper of an
existing flow takes its settings, with tokens full or none and no calendar entry, and answers what it owed; a point takes OVERHEAD, STARVE and
FRAG_BYTES; a port takes its settings, leaving LPI where they disable it, with preemption active at once where it is not to be verified, and steering
rules without their port go; a rule is set or cleared; a list replaces one that waits, which completes INVALID, and waits for its first start at least
125 microseconds away. (R217, R223, R224, R277, R278, R284, R21) -/
def Obligations.PointAndUplinkCommands : Prop :=
  (∀ (s : State) (ctx : Nat) (r : ShaperReq), s.dev.served ctx 0x0405 = true → (s.dev.flow r.bucket).isSome = true → r.mode ≤ 2 → r.classes ≤ 255 →
    (r.mode = 1 → bitOf r.classes 0 = false) → (r.mode = 2 → r.demote = true → 4 ≤ r.demoteClass ∧ r.demoteClass ≤ 7 ∧ bitOf r.classes r.demoteClass = false) →
    (r.mode ≠ 0 → 1 ≤ r.rate ∧ r.rate < 2 ^ 32 ∧ 1024 ≤ r.burst ∧ r.burst ≤ 16777216) →
    exec (.shaperSet ctx r) s = .next (s.waiting ctx (.shaper (s.dev.refOf ctx) r))) ∧
  (∀ (d : Dev) (ref : CmdRef) (r : ShaperReq) (u b : Bucket), (d.flow r.bucket).isSome = true → u = (d.bucket r.bucket).update (d.now * 16) →
    b = { u with
      mode := r.mode, classes := r.classes, demote := r.demote, demoteClass := r.demoteClass, rate := if r.mode = 0 then u.rate else r.rate,
      burst := if r.mode = 0 then u.burst else r.burst, last := d.now * 16, entry := none,
      tokens := if r.full then (((if r.mode = 0 then u.burst else r.burst) * 4096 : Nat) : Int) else 0 } →
    d.applyChange (.shaper ref r) = ({ d with sched := { d.sched with buckets := tset d.sched.buckets r.bucket b } } : Dev).complete ref .ok (fromResp d.now ++ le 4 (if u.mode = 0 then 0 else (-u.tokens).toNat / 4096) ++ le 4 0)) ∧
  (∀ (s : State) (ctx : Nat) (r : PointReq), s.dev.served ctx 0x0406 = true → s.dev.pointPresent r.point = true →
    (r.fragBytes ≠ 0 → r.point < 0x40 ∧ 256 ≤ r.fragBytes ∧ r.fragBytes ≤ 16383) → -32 ≤ r.overhead → r.overhead ≤ 63 →
    r.starve ≤ 65535 → exec (.schedConfigPoint ctx r) s = .next (s.waiting ctx (.point (s.dev.refOf ctx) r))) ∧
  (∀ (d : Dev) (ref : CmdRef) (r : PointReq), d.applyChange (.point ref r) = (d.modPoint r.point (fun x =>
      { x with fragBytes := if r.fragBytes = 0 then x.fragBytes else r.fragBytes, overhead := r.overhead, starve := r.starve })).complete ref .ok) ∧
  (∀ (s : State) (ctx : Nat) (r : GateListReq), s.dev.served ctx 0x0409 = true → s.dev.upPresent r.port = true → r.entries ≠ [] → r.entries.length ≤ 256 →
    r.baseNs ≤ 999999999 → 1000 ≤ r.cycle → r.cycle ≤ 1000000000 → r.maxSdu.length = 8 →
    r.maxSdu.any (fun m => m != 0 && (decide (m < 64) || decide (16384 < m))) = false →
    r.entries.any (fun e => decide (2 < e.op) || decide (255 < e.states) || decide (e.interval < 16) || decide (1000000000 < e.interval)) = false →
    (r.enable = true → s.dev.gateBad r.port (gateListOf r) = false) →
    exec (.gateListSetList ctx r) s = .next (s.waiting ctx (.gateList (s.dev.refOf ctx) r))) ∧
  (∀ (d d2 : Dev) (ref : CmdRef) (r : GateListReq), d2 = (d.upPort r.port).gatePend.elim d (fun p => d.complete p.1 .invalid) →
    d.applyChange (.gateList ref r) = d2.modUp r.port (fun x => { x with
      gatePend := some (ref, gateListOf r, firstStart (gateListOf r).base (gateListOf r).cycle (ceilDiv (d2.time.value 0) (2 ^ 32) + 125000)) })) ∧
  (∀ (s : State) (ctx : Nat) (r : UpPortReq), s.dev.served ctx 0x0409 = true → s.dev.upPresent r.port = true → r.express ≤ 255 → (r.preempt = true → r.addFrag ≤ 3) →
    (r.preempt = true → r.verify = true → 1 ≤ r.verifyMs ∧ r.verifyMs ≤ 128) → 1518 ≤ r.maxFrame → r.maxFrame ≤ 16384 →
    (r.lpi = true → 1 ≤ r.twUs ∧ r.twUs ≤ 1000) → r.addrs.length ≤ 16 → r.addrs.any (fun a => decide (2 ^ 48 ≤ a)) = false →
    (r.port ≠ 0xA4 → r.steering = true → s.dev.steering.contains ((r.port - 0x40) / 4) = false → s.dev.steering.length < 2) →
    exec (.gateListSetPort ctx r) s = .next (s.waiting ctx (.upPort (s.dev.refOf ctx) r))) ∧
  (∀ (d d2 : Dev) (ref : CmdRef) (r : UpPortReq) (kept : UpPort → Bool), gatePortBad d r = none → kept = (fun x => x.set.preempt && x.set.verify && (x.preemptActive || x.verifyFrom.isSome)) →
    d2 = d.modGate r.port (fun x => { x with
      set := r, inLpi := x.inLpi && r.lpi, preemptActive := x.up && r.preempt && (if r.verify then x.preemptActive && kept x else true),
      verifyFrom := if x.up && r.preempt && r.verify then (if kept x then x.verifyFrom else some d.now) else none }) →
    d.applyChange (.upPort ref r) = ({ d2 with upl := { d2.upl with
      steers := d2.upl.steers.filter (fun e => e.2.port == 0xA4 || d2.steering.contains ((e.2.port - 0x40) / 4)) } } : Dev).complete ref .ok) ∧
  (∀ (s : State) (ctx : Nat) (r : SteerReq), s.dev.served ctx 0x0409 = true → steerBad s.dev r = false →
    exec (.gateListSetSteer ctx r) s = .next (s.waiting ctx (.steer (s.dev.refOf ctx) r))) ∧
  (∀ (d : Dev) (ref : CmdRef) (r : SteerReq), steerBad d r = false → d.applyChange (.steer ref r) = (({ d with upl := { d.upl with
    steers := if r.valid then tset d.upl.steers r.rule r else tdel d.upl.steers r.rule } } : Dev).complete ref .ok))

/-- PARSE_GRAPH_LOAD writes nodes or transitions into a staging slot; BEGIN with valid fields takes the lowest FREE slot with the next version; ADD
appends rules of new ids; BUILD of a closed graph asks Sluice for the install; the compile's end makes the slot BUILT and answers its sizes, or ends
INVALID where the graph is open by then and NO_RESOURCE where memory is short; FREE of a staging or built slot frees it and ends its build; COMMIT of
a built or retiring slot waits for the boundary, one in each tick, where it becomes current and the current one retires; STATUS answers and changes
nothing. (R234, R235, R241, R243, R244, R245, R246) -/
def Obligations.RuleSetStaging : Prop :=
  (∀ (s : State) (ctx : Nat) (r : ParseReq), s.dev.served ctx 0x0501 = true → r.slot ≤ 3 → (s.dev.slot r.slot).state = .staging →
    (r.kind = 0 → r.nodes ≠ [] → r.first + r.nodes.length ≤ 64 → r.nodes.any nodeBad = false →
      exec (.parseGraphLoad ctx r) s = .next (s.done ctx (fun d => d.modSlot r.slot (fun v => { v with
        nodes := (r.nodes.zip (List.range r.nodes.length)).foldl (fun t e => tset t (r.first + e.2) e.1) v.nodes })) [])) ∧
    (r.kind = 1 → r.trans ≠ [] → r.first + r.trans.length ≤ 512 → r.trans.any (fun t => decide (65535 < t.1) || (decide (63 < t.2) && t.2 != 0xFE)) = false →
      exec (.parseGraphLoad ctx r) s = .next (s.done ctx (fun d => d.modSlot r.slot (fun v => { v with
        trans := (r.trans.zip (List.range r.trans.length)).foldl (fun t e => tset t (r.first + e.2) e.1) v.trans })) []))) ∧
  (∀ (s : State) (ctx : Nat) (r : StageBegin) (i : Nat) (d : Dev), s.dev.served ctx 0x0502 = true → r.start.length = 5 → r.start.any (fun n => decide (63 < n)) = false → r.deepAct ≤ 2 →
    r.lenAct ≤ 2 → ((r.deepAct == 1 || r.lenAct == 1 || r.miss.any (fun m => m.1 == 1)) && !ringOk r.mgmtRing) = false → r.miss.length = 5 → ((List.range 5).zip r.miss).any (fun m => missBad m.1 m.2) = false →
    (List.range 4).find? (fun i => (s.dev.slot i).state = .free) = some i →
    d = (s.dev.begun ctx).modSlot i (fun _ => { Slot.reset with
        state := .staging, version := s.dev.cls.nextVersion, start := r.start, deepAct := r.deepAct, lenAct := r.lenAct, mgmtRing := r.mgmtRing, miss := r.miss }) →
    exec (.rulesetStageBegin ctx r) s = .next (s.withDev (({ d with cls := { d.cls with nextVersion := s.dev.cls.nextVersion + 1 } } : Dev).complete (s.dev.refOf ctx) .ok
      (le 1 i ++ le 3 0 ++ le 4 s.dev.cls.nextVersion)))) ∧
  (∀ (s : State) (ctx n : Nat) (rs : List Rule), s.dev.served ctx 0x0502 = true → n ≤ 3 → (s.dev.slot n).state = .staging → rs ≠ [] → rs.length ≤ 15 → rs.any ruleBad = false →
    idsDistinct ((s.dev.slot n).rules.map (·.id) ++ rs.map (·.id)) = true →
    exec (.rulesetStageAdd ctx n rs) s = .next (s.done ctx (fun d => d.modSlot n (fun v => { v with rules := v.rules ++ rs })) [])) ∧
  (∀ (s : State) (ctx n : Nat), s.dev.served ctx 0x0502 = true → n ≤ 3 → (s.dev.slot n).state = .staging → (s.dev.slot n).building = none → (s.dev.slot n).closed = true →
    (s.dev.slot n).rules.length ≤ 65536 →
    s.dev.sluice.fifo.length < 1024 → s.dev.sluice.base + s.dev.sluice.reserve + (HeavyOp.rulesetInstall n).cost ≤ s.dev.sluice.budget →
    exec (.rulesetStageBuild ctx n) s = .next (s.withDev (({ s.dev.begun ctx with sluice := { s.dev.sluice with
        fifo := s.dev.sluice.fifo ++ [{ op := .rulesetInstall n, index := ctx, since := s.dev.now, ref := some (s.dev.refOf ctx), reported := false }] } } : Dev).modSlot n
      (fun v => { v with building := some (s.dev.refOf ctx) })))) ∧
  (∀ (s : State) (n w : Nat) (ref : CmdRef) (d : Dev), s.dev.sluice.held.any (fun h => h.op == .rulesetInstall n && h.ended.isNone) = true →
    (s.dev.slot n).building = some ref → d = s.dev.endOp (fun o => o = .rulesetInstall n) →
    ((s.dev.slot n).closed = true → sumOf (s.dev.cls.slots.map (fun x => x.words)) + w ≤ 131072 → (s.dev.slot n).rules.length ≤ 65536 →
      exec (.rulesetCompileDone n w) s = .next (s.withDev ((d.modSlot n (fun v => { v with building := none, state := .built, words := w })).complete ref .ok
        (le 4 (s.dev.slot n).rules.length ++ le 4 w ++ le 4 (equalOverlap (s.dev.slot n).rules))))) ∧
    ((s.dev.slot n).closed = false → exec (.rulesetCompileDone n w) s = .next (s.withDev ((d.modSlot n (fun v => { v with building := none })).complete ref .invalid))) ∧
    ((s.dev.slot n).closed = true → 131072 < sumOf (s.dev.cls.slots.map (fun x => x.words)) + w →
      exec (.rulesetCompileDone n w) s = .next (s.withDev ((d.modSlot n (fun v => { v with building := none })).complete ref .noResource)))) ∧
  (∀ (s : State) (ctx n : Nat), s.dev.served ctx 0x0502 = true → n ≤ 3 → (s.dev.slot n).state = .staging ∨ (s.dev.slot n).state = .built →
    exec (.rulesetStageFree ctx n) s = .next (s.done ctx (fun d => d.releaseSlot n) [])) ∧
  (∀ (d : Dev) (n : Nat), d.releaseSlot n = (d.slot n).building.elim (d.modSlot n (fun _ => Slot.reset)) (fun ref =>
    ((((d.modSlot n (fun _ => Slot.reset)).withdrawOp (fun o => o = .rulesetInstall n)).endOp (fun o => o = .rulesetInstall n)).complete ref .invalid))) ∧
  (∀ (s : State) (ctx n : Nat) (k : Bool), s.dev.served ctx 0x0503 = true → s.dev.cls.commit = none → n ≤ 3 → (s.dev.slot n).state = .built ∨ (s.dev.slot n).state = .retiring →
    exec (.rulesetCommit ctx n k) s = .next (s.withDev { s.dev.begun ctx with cls := { s.dev.cls with commit := some (s.dev.refOf ctx, n, k) } })) ∧
  (∀ (d d2 : Dev) (ref : CmdRef) (n : Nat) (k : Bool), d.cls.commit = some (ref, n, k) → (d.slot n).state = .built → (List.range 4).filter (fun i => (d.slot i).state = .retiring) = [] →
    d2 = ((List.range 4).foldl (fun d i => if (d.slot i).state = .current then d.modSlot i (fun v => { v with state := .retiring, keep := k }) else d)
      ({ d with cls := { d.cls with commit := none } } : Dev)).modSlot n (fun v => { v with state := .current, keep := false }) →
    d.versionSwitch = (d2.raise 0x360 (le 1 n ++ le 4 (d2.slot n).version)).complete ref .ok (fromResp d2.now)) ∧
  (∀ (s : State) (ctx : Nat), s.dev.served ctx 0x0504 = true → exec (.rulesetStatus ctx) s = .next (s.answered ctx .ok (s.dev.cls.slots.flatMap (fun v =>
      le 1 v.state.code ++ le 3 0 ++ le 4 (if v.state = .free then 0 else v.version) ++ le 4 v.inflight ++ le 4 v.words))))

/-- GLOBAL, DOMAIN, MEMBER and LIMIT with operands in range wait for the boundary, where the settings, the domain, the member or the limit take
effect; GLOBAL with a new SALT also asks Sluice for a rebuild, and a domain or member removed begins to be cleared; a limit answers the entries of its
scope. ADD overwrites the entry of its key, or inserts one, where no limit refuses it; DELETE removes the entry of its key and answers it; READ_KEY
and READ_INDEX answer and change nothing; FLUSH asks Sluice for a table operation. (R251, R255, R265, R266, R493) -/
def Obligations.FdbCommands : Prop :=
  (∀ (s : State) (ctx : Nat) (r : FdbGlobalReq), s.dev.served ctx 0x0601 = true → r.salt < 2 ^ 32 → 1 ≤ r.agePeriod → r.agePeriod ≤ 65535 →
    (r.salt = s.dev.fdb.salt → exec (.fdbConfigGlobal ctx r) s = .next (s.waiting ctx (.fdbGlobal (some (s.dev.refOf ctx)) r))) ∧
    (r.salt ≠ s.dev.fdb.salt → s.dev.sluice.fifo.length < 1024 →
      s.dev.sluice.base + s.dev.sluice.reserve + (HeavyOp.tableRebuild s.dev.fdb.nextJob).cost ≤ s.dev.sluice.budget →
      exec (.fdbConfigGlobal ctx r) s = .next (s.withDev ((({ s.dev.begun ctx with
        sluice := { s.dev.sluice with
          fifo := s.dev.sluice.fifo ++ [{ op := .tableRebuild s.dev.fdb.nextJob, index := ctx, since := s.dev.now, ref := some (s.dev.refOf ctx), reported := false }] } } : Dev).modFdb
        (fun f => { f with nextJob := f.nextJob + 1, rebuilds := f.rebuilds ++ [{ job := f.nextJob, ref := s.dev.refOf ctx, what := .salt r.salt, running := false }] })).later
          (.fdbGlobal none r))))) ∧
  (∀ (d : Dev) (ref : Option CmdRef) (r : FdbGlobalReq),
    (r.agePeriod = d.fdb.agePeriod → d.applyChange (.fdbGlobal ref r) = (d.modFdb (fun f => { f with
      learn := r.learn, oldest := r.oldest, agePeriod := r.agePeriod })).completeOpt ref .ok) ∧
    (r.agePeriod ≠ d.fdb.agePeriod → d.applyChange (.fdbGlobal ref r) = ((d.modFdb (fun f => { f with
      sweepBase := f.sweepNext, sweepFrom := d.upNext })).modFdb (fun f => { f with
      learn := r.learn, oldest := r.oldest, agePeriod := r.agePeriod })).completeOpt ref .ok)) ∧
  (∀ (s : State) (ctx : Nat) (r : FdbDomainReq), s.dev.served ctx 0x0601 = true → r.fid ≤ 4095 → (r.enable = true → r.flow ≤ 131071 ∧ r.missAct ≤ 2 ∧ (r.missAct = 2 → ringOk r.mgmtRing = true) ∧
      s.dev.fdb.domains.any (fun e => e.1 != r.fid && e.2.flow == r.flow) = false) →
    exec (.fdbConfigDomain ctx r) s = .next (s.waiting ctx (.fdbDomain (s.dev.refOf ctx) r))) ∧
  (∀ (d : Dev) (ref : CmdRef) (r : FdbDomainReq), d.domainBad r = false →
    (r.enable = true → d.applyChange (.fdbDomain ref r) = (d.modFdb (fun f => { f with
      domains := tset f.domains r.fid { flow := r.flow, learn := r.learn, missAct := r.missAct, mgmtRing := r.mgmtRing } })).complete ref .ok) ∧
    (r.enable = false → d.applyChange (.fdbDomain ref r) = (d.modFdb (fun f => { f with
      domains := tdel f.domains r.fid, members := f.members.filter (fun m => m.fid != r.fid), nextJob := f.nextJob + 1,
      rebuilds := f.rebuilds ++ [{ job := f.nextJob, ref, what := .domain r.fid, running := true }] })))) ∧
  (∀ (s : State) (ctx : Nat) (r : FdbMemberReq), s.dev.served ctx 0x0601 = true → r.fid ≤ 4095 → s.dev.sourceOk r.source = true → (r.add = true → r.returnFlow ≤ 131071) →
    (r.add = true → s.dev.fdb.member r.fid r.source = none → (s.dev.fdb.members.filter (fun m => m.fid == r.fid)).length < 256 ∧ s.dev.fdb.members.length < 32768) →
    exec (.fdbConfigMember ctx r) s = .next (s.waiting ctx (.fdbMember (s.dev.refOf ctx) r))) ∧
  (∀ (d : Dev) (ref : CmdRef) (r : FdbMemberReq) (others : List Member), d.memberBad r = none → others = d.fdb.members.filter (fun m => !(m.fid == r.fid && m.source == r.source)) →
    (r.add = true → d.applyChange (.fdbMember ref r) = (d.modFdb (fun f => { f with
      members := insertBy (fun a b => decide (a.fid * 65536 + a.source ≤ b.fid * 65536 + b.source))
        { fid := r.fid, source := r.source, flow := r.returnFlow, flood := r.flood } others })).complete ref .ok) ∧
    (r.add = false → d.applyChange (.fdbMember ref r) = (d.modFdb (fun f => { f with
      members := others, nextJob := f.nextJob + 1, rebuilds := f.rebuilds ++ [{ job := f.nextJob, ref, what := .member r.fid r.source, running := true }] })))) ∧
  (∀ (s : State) (ctx : Nat) (r : FdbLimitReq), s.dev.served ctx 0x0601 = true → s.dev.scopeOk r.scope = true → r.limit.elim true (fun n => decide (n ≤ 262144)) = true →
    exec (.fdbConfigLimit ctx r) s = .next (s.waiting ctx (.fdbLimit (s.dev.refOf ctx) r))) ∧
  (∀ (d : Dev) (ref : CmdRef) (r : FdbLimitReq), d.applyChange (.fdbLimit ref r) = (d.modFdb (fun f => { f with
    limits := tput f.limits r.scope (none, false) (r.limit, r.excessFlood) })).complete ref .ok (le 4 (d.fdb.scopeCount r.scope))) ∧
  (∀ (s : State) (ctx : Nat) (r : FdbAddReq) (src : Nat), s.dev.served ctx 0x0602 = true → s.dev.fdbKeyOk r.fid r.mac = true → r.dest ≤ 131071 →
    (r.static = false → s.dev.sourceOk r.source = true) → src = (if r.static then 0xFFFF else r.source) →
    (r.static = false → s.dev.fdb.overLimit src ((s.dev.fdb.lookup r.fid r.mac).bind (fun p => if p.2.static then none else some p.2.source)) = none) →
    (∀ i e e', s.dev.fdb.lookup r.fid r.mac = some (i, e) →
      e' = { e with static := r.static, source := src, dest := r.dest, hit := false, aged := false, lastSeen := s.dev.fdb.sweepNo % 32768 } →
      exec (.fdbEntryAdd ctx r) s = .next (s.done ctx (fun d => d.putEnt i e') (fdbResp (some (i, e'))))) ∧
    (∀ e d, s.dev.fdb.lookup r.fid r.mac = none → (s.dev.begun ctx).newEnt r.static r.fid r.mac src r.dest = (e, d) →
      exec (.fdbEntryAdd ctx r) s = .next (s.withDev ((d.insertEnt e).1.elim ((d.insertEnt e).2.complete (s.dev.refOf ctx) .noResource)
        (fun i => (d.insertEnt e).2.complete (s.dev.refOf ctx) .ok (fdbResp (some (i, e)))))))) ∧
  (∀ (s : State) (ctx f m : Nat), s.dev.served ctx 0x0602 = true → s.dev.fdbKeyOk f m = true →
    exec (.fdbEntryDelete ctx f m) s = .next (s.done ctx (fun d => (s.dev.fdb.lookup f m).elim d (fun p => d.delEnt p.1)) (fdbResp (s.dev.fdb.lookup f m)))) ∧
  (∀ (s : State) (ctx f m : Nat), s.dev.served ctx 0x0602 = true → s.dev.fdbKeyOk f m = true →
    exec (.fdbEntryReadKey ctx f m) s = .next (s.answered ctx .ok (fdbResp (s.dev.fdb.lookup f m)))) ∧
  (∀ (s : State) (ctx : Nat) (r : FdbFlushReq) (d : Dev), s.dev.served ctx 0x0602 = true →
    r.fid.elim true (fun n => decide (n ≤ 4095) && (tget s.dev.fdb.domains n).isSome) = true → r.scope.elim true s.dev.scopeOk = true →
    s.dev.sluice.fifo.length < 1024 → s.dev.sluice.base + s.dev.sluice.reserve + (HeavyOp.tableRebuild s.dev.fdb.nextJob).cost ≤ s.dev.sluice.budget →
    d = { s.dev.begun ctx with
      sluice := { s.dev.sluice with
        fifo := s.dev.sluice.fifo ++ [{ op := .tableRebuild s.dev.fdb.nextJob, index := ctx, since := s.dev.now, ref := some (s.dev.refOf ctx), reported := false }] } } →
    exec (.fdbEntryFlush ctx r) s = .next (s.withDev (d.modFdb (fun f => { f with
      nextJob := f.nextJob + 1,
      flushes := f.flushes ++ [{ job := f.nextJob, ref := s.dev.refOf ctx, fid := r.fid, scope := r.scope, next := 0, removed := 0, running := false }] })))) ∧
  (∀ (s : State) (ctx i n k : Nat), s.dev.served ctx 0x0602 = true → i ≤ 262143 → 1 ≤ n → n ≤ 64 → k = (if 262144 - i < n then 262144 - i else n) →
    exec (.fdbEntryReadIndex ctx i n) s = .next (s.answered ctx .ok (le 4 k ++ (rangeFrom i k).flatMap (fun i => (tget s.dev.fdb.entries i).elim (zeros 16) FdbEnt.bytes))))

/-- CAM_LAYOUT with a valid layout waits for the boundary, where the table takes its banks and width, or goes; WRITE to an index of an enabled table
writes rows, result and verify copy; INVALIDATE removes the entry; READ answers the verify copy and changes nothing. (R260, R262, R264, R267, R268) -/
def Obligations.CamCommands : Prop :=
  (∀ (s : State) (ctx : Nat) (r : CamLayoutReq), s.dev.served ctx 0x0603 = true → r.table ≤ 7 → s.dev.cam.holds r.table = false →
    (r.enable = true → 1 ≤ r.banks ∧ r.firstBank + r.banks ≤ 16 ∧ (r.width = 1 ∨ r.width = 2 ∨ r.width = 4) ∧ r.firstBank % r.width = 0 ∧ r.banks % r.width = 0 ∧
      (r.segOff.take r.width).any (fun o => decide (60 < o)) = false ∧ ringOk r.mgmtRing = true ∧
      s.dev.cam.tables.any (fun e => e.1 != r.table && decide (e.2.firstBank < r.firstBank + r.banks) && decide (r.firstBank < e.2.firstBank + e.2.banks)) = false) →
    exec (.camLayout ctx r) s = .next (s.waiting ctx (.camLayout (s.dev.refOf ctx) r))) ∧
  (∀ (d : Dev) (ref : CmdRef) (r : CamLayoutReq), d.layoutBad r = none →
    d.applyChange (.camLayout ref r) = (({ d with
      cam := { d.cam with
        tables := if r.enable then tset d.cam.tables r.table
          { firstBank := r.firstBank, banks := r.banks, width := r.width, inputMask := r.inputMask % 32, segOff := r.segOff.take r.width, mgmtRing := r.mgmtRing }
          else tdel d.cam.tables r.table } } : Dev).complete ref .ok)) ∧
  (∀ (s : State) (ctx : Nat) (r : CamWriteReq) (t : CamTable) (e : CamEnt), s.dev.served ctx 0x0604 = true → s.dev.camAt r.table r.index = some t → r.action ≤ 2 →
    (r.action = 0 → r.cls ≤ 7 ∧ r.flow ≤ 131071) →
    e = { rows := fit (20 * t.width) r.key, copy := fit (20 * t.width) r.key, priority := r.priority % 4096, action := r.action, cls := if r.action = 0 then r.cls else 0,
          flow := if r.action = 0 then r.flow else 0 } →
    exec (.camEntryWrite ctx r) s = .next (s.done ctx (fun d => { d with cam := { d.cam with entries := tset d.cam.entries (camKey r.table r.index) e } }) [])) ∧
  (∀ (s : State) (ctx t i : Nat) (x : CamTable), s.dev.served ctx 0x0604 = true → s.dev.camAt t i = some x →
    exec (.camEntryInvalidate ctx t i) s = .next (s.done ctx (fun d => { d with cam := { d.cam with entries := tdel d.cam.entries (camKey t i) } }) [])) ∧
  (∀ (s : State) (ctx t i : Nat) (x : CamTable), s.dev.served ctx 0x0604 = true → s.dev.camAt t i = some x →
    exec (.camEntryRead ctx t i) s = .next (s.answered ctx .ok (le 1 2 ++ le 1 t ++ le 2 (b2n (tget s.dev.cam.entries (camKey t i)).isSome) ++ le 4 i ++
      (tget s.dev.cam.entries (camKey t i)).elim (zeros 88) (fun e => le 2 e.priority ++ le 1 e.action ++ le 1 e.cls ++ le 4 e.flow ++ fit 80 e.copy))))

/-- SA_INSTALL of a test key in MANUFACTURE, or of a key that the owner key opens, stores it as terminal key, MACsec SA or fabric key, with the event
of R368 where the next PN is past the mark already, after the unwrap has used its pipeline; SA_REKEY of a keyed terminal begins at the boundary, of a
tree or the device is put to Sluice as a mass rekey, a TX_SWITCH to a transmit SA waits for the boundary, and an SA_DELETE removes the SA; SA_STATUS
answers and changes nothing, INVALID for a unit or index that there is not. (R368, R372, R383, R384, R385) -/
def Obligations.KeyCommands : Prop :=
  (∀ (s : State) (ctx : Nat) (r : SaInstallReq) (k : Bytes), s.dev.served ctx 0x0701 = true → s.dev.installOk r = true → s.dev.sec.lifecycle ≠ .alarmed → s.dev.sec.lifecycle ≠ .decommissioned →
    (r.test = true → s.dev.sec.lifecycle = .manufacture ∧ k = r.cipher) →
    (r.test = false → s.dev.sec.vbat.ownerKey.bind (fun o => gcmOpen o.toNat r.iv (saHead r) r.cipher r.tag) = some k) →
    exec (.saInstall ctx r) s = .next (s.done ctx (fun d => (if r.test then d else d.cipherUse 2 8 80 (d.clk 0) true).installKey r (BitVec.ofNat 256 (ofBE k))) [])) ∧
  (∀ (d : Dev) (r : SaInstallReq) (key : BitVec 256), (r.kind = 0 → d.installKey r key = d.modKeys (globalIndex r.unit_ r.index) (fun k => { k with tk := some key })) ∧
    (r.kind = 1 → ∀ (p : Nat) (sa : MacsecSa) (e : Dev), p = r.unit_ * 4 + r.sub →
      sa = { key, tx := r.tx, sub := r.sub, sci := r.sci, ssci := r.ssci, an := r.an, confOffset := r.confOffset, replay := r.replay,
             salt := r.salt, nextPn := r.nextPn, low := r.nextPn, stopped := false, installed := d.now } →
      e = { d with sec := { d.sec with
        macsec := tset d.sec.macsec (r.unit_ * 64 + r.index) sa,
        txActive := if r.tx ∧ (tget d.sec.txActive p).isNone then tset d.sec.txActive p r.index else d.sec.txActive,
        macsecPorts := if d.sec.macsecPorts.contains p then d.sec.macsecPorts else d.sec.macsecPorts ++ [p] } } →
      d.installKey r key = if r.tx ∧ pnMark ≤ r.nextPn then e.raise 0x2CA (le 1 p ++ le 1 r.index) else e) ∧
    (r.kind = 2 → ∀ e : Dev, e = (d.tow.bulk.filter (fun b => !b.void && !b.complete)).foldl (fun (d : Dev) b => d.voidObject b 3) d → d.installKey r key = { e with
      sec := { e.sec with fabricKey := some key, fabricSalt := r.salt / 2 ^ 64, object := 0 }, tow := { e.tow with bulk := [] } })) ∧
  (∀ (s : State) (ctx t id : Nat), s.dev.served ctx 0x0702 = true → s.dev.sec.lifecycle ≠ .alarmed → s.dev.treeUp t = true → s.dev.keyed t id = true → s.dev.rekeying t id = false →
    exec (.saRekeyTerminal ctx t id) s = .next (s.withDev { s.dev.begun ctx with sec := { s.dev.sec with
      rekeyPend := s.dev.sec.rekeyPend ++ [(some (s.dev.refOf ctx), t, id)] } })) ∧
  (∀ (s : State) (ctx t : Nat), s.dev.served ctx 0x0702 = true → s.dev.sec.lifecycle ≠ .alarmed → s.dev.treeUp t = true →
    (s.dev.inScope 1 t).any (fun p => s.dev.rekeying p.1 p.2) = false → s.dev.sluice.fifo.length < 1024 →
    s.dev.sluice.base + s.dev.sluice.reserve + (HeavyOp.massRekey s.dev.sec.nextJob).cost ≤ s.dev.sluice.budget →
    ∃ q m, q = ({ op := .massRekey s.dev.sec.nextJob, index := ctx, since := s.dev.now, ref := some (s.dev.refOf ctx), reported := false } : SluiceReq) ∧
    m = ({ job := s.dev.sec.nextJob, scope := 1, unit_ := t, ref := s.dev.refOf ctx, x := none } : MassRekey) ∧
    exec (.saRekeyTree ctx t) s = .next (s.withDev { s.dev.begun ctx with
      sluice := { s.dev.sluice with fifo := s.dev.sluice.fifo ++ [q] },
      sec := { s.dev.sec with nextJob := s.dev.sec.nextJob + 1, mass := s.dev.sec.mass ++ [m] } })) ∧
  (∀ (s : State) (ctx : Nat), s.dev.served ctx 0x0702 = true → s.dev.sec.lifecycle ≠ .alarmed →
    (s.dev.inScope 2 0).any (fun p => s.dev.rekeying p.1 p.2) = false → s.dev.sluice.fifo.length < 1024 →
    s.dev.sluice.base + s.dev.sluice.reserve + (HeavyOp.massRekey s.dev.sec.nextJob).cost ≤ s.dev.sluice.budget →
    ∃ q m, q = ({ op := .massRekey s.dev.sec.nextJob, index := ctx, since := s.dev.now, ref := some (s.dev.refOf ctx), reported := false } : SluiceReq) ∧
    m = ({ job := s.dev.sec.nextJob, scope := 2, unit_ := 0, ref := s.dev.refOf ctx, x := none } : MassRekey) ∧
    exec (.saRekeyDevice ctx) s = .next (s.withDev { s.dev.begun ctx with
      sluice := { s.dev.sluice with fifo := s.dev.sluice.fifo ++ [q] },
      sec := { s.dev.sec with nextJob := s.dev.sec.nextJob + 1, mass := s.dev.sec.mass ++ [m] } })) ∧
  (∀ (s : State) (ctx u a : Nat) (x : MacsecSa), s.dev.served ctx 0x0702 = true → s.dev.sec.lifecycle ≠ .alarmed → tget s.dev.sec.macsec (u * 64 + a) = some x → x.tx = true →
    a ≤ 63 → u < s.dev.uplinkCount →
    exec (.saRekeyTxSwitch ctx u a) s = .next (s.withDev { s.dev.begun ctx with sec := { s.dev.sec with
      txPend := s.dev.sec.txPend ++ [(s.dev.refOf ctx, u, a)] } })) ∧
  (∀ (s : State) (ctx u a : Nat) (x : MacsecSa), s.dev.served ctx 0x0702 = true → s.dev.sec.lifecycle ≠ .alarmed → tget s.dev.sec.macsec (u * 64 + a) = some x →
    a ≤ 63 → u < s.dev.uplinkCount →
    exec (.saRekeySaDelete ctx u a) s = .next (s.done ctx (fun d => ({ d with
      sec := { d.sec with
        macsec := tdel d.sec.macsec (u * 64 + a),
        txActive := if tget d.sec.txActive (u * 4 + x.sub) = some a then tdel d.sec.txActive (u * 4 + x.sub) else d.sec.txActive,
        macsecPorts := if (tdel d.sec.macsec (u * 64 + a)).any (fun e => e.1 / 64 == u && e.2.sub == x.sub) then d.sec.macsecPorts
          else d.sec.macsecPorts.filter (· != u * 4 + x.sub) } } : Dev).raise 0x2C6 (le 1 4 ++ le 6 d.now))
      (fromResp s.dev.now ++ fromResp s.dev.now))) ∧
  (∀ (s : State) (ctx k u i : Nat), s.dev.served ctx 0x0703 = true → (k = 0 ∧ (s.dev.treePresent u = false ∨ 255 < i)) ∨ (k = 1 ∧ (s.dev.uplinkCount ≤ u ∨ 63 < i)) ∨ 2 ≤ k →
    exec (.saStatus ctx k u i) s = .next (s.answered ctx .invalid [])) ∧
  (∀ (s : State) (ctx u i : Nat) (x : Option MacsecSa), s.dev.served ctx 0x0703 = true → u < s.dev.uplinkCount → i ≤ 63 → x = tget s.dev.sec.macsec (u * 64 + i) →
    exec (.saStatus ctx 1 u i) s = .next (s.answered ctx .ok (le 1 (x.elim 0 (fun y => if y.stopped then 3 else if y.tx then 2 else 1)) ++ le 1 (x.elim 0 (·.an)) ++ zeros 6 ++
      le 8 (x.elim 0 (fun y => if y.tx then y.nextPn else y.low)) ++
      le 4 (s.dev.counter 14 .macsecTag (u * 64 + i)) ++ le 4 (s.dev.counter 14 .macsecReplay (u * 64 + i)) ++ fromResp (x.elim 0 (·.installed))))) ∧
  (∀ (s : State) (ctx t i : Nat) (k : TermKeys), s.dev.served ctx 0x0703 = true → s.dev.treePresent t = true → i ≤ 255 → k = s.dev.keys (globalIndex t i) →
    exec (.saStatus ctx 0 t i) s = .next (s.answered ctx .ok (le 1 (if k.stopped.isSome then 4 else if k.rekey.isSome then 3 else if k.firstX.isSome then 2 else if k.tk.isSome then 1 else 0) ++
      le 1 (b2n k.downPhase) ++ le 1 (b2n (s.dev.kp t)) ++ zeros 5 ++ fromResp ((slotOf k.down k.downPhase).elim 0 (fun x => x.kc s.dev.now)) ++
      le 4 (s.dev.counter 3 .saTagFail (2 * globalIndex t i + 1)) ++ le 4 (s.dev.counter 3 .saStopDrop (2 * globalIndex t i)) ++ fromResp k.lastRekey)))

/-- TAMPER_POLICY_SET outside ALARMED sets the action and the limit; in SECURED a weaker one needs its signature. READ and READ_LOG answer and change
nothing. PROVISION in MANUFACTURE stores the owner key and the hash and advances; SECURE, CLEAR_ALARM, DECOMMISSION and REKEY_OWNER in their states
take effect where the signature verifies and are DENIED where it does not; DECOMMISSION in MANUFACTURE needs none. Sources that fire together raise
TAMPER each, and the strongest of their actions alarms the device or erases its keys, the events in ascending SOURCE; while main power is off VBAT
keeps the log, the alarm and the owner key so. (R376, R377, R378, R379, R380, R386, R387, R388, 15_security.md) -/
def Obligations.TamperAndLifecycle : Prop :=
  (∀ (s : State) (ctx : Nat) (r : TamperSetReq) (f : Dev → Dev), s.dev.served ctx 0x0704 = true → r.source ≤ 5 → r.action ≤ 2 → 1 ≤ r.failLimit → r.failLimit ≤ 15 →
    s.dev.sec.lifecycle ≠ .alarmed →
    f = (fun d => { d with sec := { d.sec with actions := lset d.sec.actions r.source (actionOf r.action), failLimit := r.failLimit } }) →
    ((s.dev.sec.lifecycle ≠ .secured ∨ ((lget s.dev.sec.actions r.source .log).code ≤ r.action ∧ r.failLimit ≤ s.dev.sec.failLimit)) →
      exec (.tamperPolicySet ctx r) s = .next (s.done ctx f [])) ∧
    (s.dev.sec.lifecycle = .secured → (r.action < (lget s.dev.sec.actions r.source .log).code ∨ s.dev.sec.failLimit < r.failLimit) →
      (r.auth = none → exec (.tamperPolicySet ctx r) s = .next (s.answered ctx .denied [])) ∧
      (∀ a c, r.auth = some a → c = (s.dev.begun ctx).authOk 0x0704 (le 1 0 ++ le 1 r.source ++ le 1 r.action ++ le 1 r.failLimit ++ zeros 28) a →
        exec (.tamperPolicySet ctx r) s = .next (s.withDev (if c.1 then (f c.2).complete (s.dev.refOf ctx) .ok else c.2.complete (s.dev.refOf ctx) .denied))))) ∧
  (∀ (s : State) (ctx : Nat), s.dev.served ctx 0x0704 = true →
    exec (.tamperPolicyRead ctx) s = .next (s.answered ctx .ok (s.dev.sec.actions.flatMap (fun a => le 1 a.code) ++ le 1 s.dev.sec.failLimit))) ∧
  (∀ (s : State) (ctx : Nat), s.dev.served ctx 0x0704 = true → exec (.tamperPolicyReadLog ctx) s = .next (s.answered ctx .ok (tamperLog s.dev.sec.vbat))) ∧
  (∀ (s : State) (sources : List Nat) (n x : Nat) (ss : List Nat) (a : TamperAction) (d d1 d2 : Dev), s.dev.dev.power ≠ .offVbat → ss = sources.filter (fun x => decide (x ≤ 5)) →
    a = ss.foldl (fun a x => a.max (s.dev.tamperAction x)) TamperAction.log →
    d = ss.foldl (fun (d : Dev) x => d.raise 0x2C0 (le 1 x ++ le 1 (d.tamperAction x).code)) s.dev →
    d1 = (if a = .erase then d.raise 0x2C1 (le 1 x) else d) →
    d2 = (if a = .log then d1 else ({ d1 with sec := { d1.sec with flashAlarmed := true, vbat := { d1.sec.vbat with alarmed := true } } } : Dev).setLifecycle .alarmed) →
    x = (ss.find? (fun x => (s.dev.tamperAction x).code == 2)).getD 0 →
    exec (.tamperDetect sources n) s = .next (s.withDev (if a = .erase then d2.zeroise else d2))) ∧
  (∀ (s : State) (sources : List Nat) (n : Nat) (ss : List Nat) (a : TamperAction), s.dev.dev.power = .offVbat → ss = sources.filter (fun x => x == 0 || x == 4) →
    a = ss.foldl (fun a x => a.max (s.dev.tamperAction x)) TamperAction.log →
    exec (.tamperDetect sources n) s = .next (s.withDev { s.dev with
      sec := { s.dev.sec with
        vbat := { s.dev.sec.vbat with
          log := (s.dev.sec.vbat.log ++ ss.map (fun x => (x, n))).take 16, alarmed := s.dev.sec.vbat.alarmed || decide (a ≠ .log),
          ownerKey := if a = .erase then none else s.dev.sec.vbat.ownerKey } } })) ∧
  (∀ (s : State) (ctx : Nat) (r : LifecycleReq), s.dev.served ctx 0x0705 = true → s.dev.sec.lifecycle = .manufacture → r.clear = true →
    exec (.lifecycleProvision ctx r) s = .next (s.withDev ((({ s.dev.begun ctx with sec := { s.dev.sec with authHash := some r.authHash } } : Dev).setOwner
      (BitVec.ofNat 256 (ofBE r.ownerKey))).advanced (s.dev.refOf ctx) .provisioned))) ∧
  (∀ (s : State) (ctx : Nat) (r : LifecycleReq), s.dev.served ctx 0x0705 = true → s.dev.sec.lifecycle = .provisioned →
    ∃ a, a = (s.dev.begun ctx).authOk 0x0705 (lcHead r 1) r.auth ∧ exec (.lifecycleSecure ctx r) s = .next (s.withDev
      (if a.1 then (a.2.setDebug .closed).advanced (s.dev.refOf ctx) .secured else a.2.complete (s.dev.refOf ctx) .denied))) ∧
  (∀ (s : State) (ctx : Nat) (r : LifecycleReq) (a : Bool × Dev) (d : Dev), s.dev.served ctx 0x0705 = true → s.dev.sec.lifecycle = .alarmed →
    a = (s.dev.begun ctx).authOk 0x0705 (lcHead r 2) r.auth →
    (s.dev.sec.vbat.ownerKey = none → r.clear = true ∧ d = a.2.setOwner (BitVec.ofNat 256 (ofBE r.ownerKey))) → (s.dev.sec.vbat.ownerKey ≠ none → d = a.2) →
    exec (.lifecycleClearAlarm ctx r) s = .next (s.withDev
      (if a.1 then ({ d with sec := { d.sec with flashAlarmed := false, vbat := { d.sec.vbat with alarmed := false } } } : Dev).advanced (s.dev.refOf ctx) .secured
       else a.2.complete (s.dev.refOf ctx) .denied))) ∧
  (∀ (s : State) (ctx : Nat) (r : LifecycleReq), s.dev.served ctx 0x0705 = true →
    (∀ a : Bool × Dev, s.dev.sec.lifecycle = .provisioned ∨ s.dev.sec.lifecycle = .secured ∨ s.dev.sec.lifecycle = .alarmed → a = (s.dev.begun ctx).authOk 0x0705 (lcHead r 3) r.auth →
      exec (.lifecycleDecommission ctx r) s = .next (s.withDev
        (if a.1 then a.2.zeroise.advanced (s.dev.refOf ctx) .decommissioned else a.2.complete (s.dev.refOf ctx) .denied))) ∧
    (s.dev.sec.lifecycle = .manufacture → exec (.lifecycleDecommission ctx r) s = .next (s.withDev ((s.dev.begun ctx).zeroise.advanced (s.dev.refOf ctx) .decommissioned)))) ∧
  (∀ (s : State) (ctx : Nat) (r : LifecycleReq) (a : Bool × Dev), s.dev.served ctx 0x0705 = true → s.dev.sec.lifecycle = .provisioned ∨ s.dev.sec.lifecycle = .secured →
    a = (s.dev.begun ctx).authOk 0x0705 (lcHead r 4) r.auth →
    exec (.lifecycleRekeyOwner ctx r) s = .next (s.withDev
      (if a.1 then (a.2.newOwnerKey r).elim (a.2.complete (s.dev.refOf ctx) .denied)
          (fun k => (a.2.setOwner k).complete (s.dev.refOf ctx) .ok (le 1 a.2.sec.lifecycle.code))
       else a.2.complete (s.dev.refOf ctx) .denied)))

/-- ISSUE makes a challenge from a free value, valid for 60 s, and answers it with UNIT_ID; OPEN in a state that allows it opens debug; OPEN with a
signature in SECURED opens it for its window where the signature verifies, and where it does not counts a failure, which at the limit is tamper; CLOSE
closes it; the window's end closes it; DEBUG_STATUS completes and changes nothing else. (R381, R389, R513, 15_security.md) -/
def Obligations.DebugCommands : Prop :=
  (∀ (s : State) (ctx : Nat), s.dev.served ctx 0x0706 = true →
    ∃ c, c = Config.freeNat s.dev.freeCtr % 2 ^ 256 ∧ exec (.debugChallengeIssue ctx) s = .next (s.done ctx (fun d => { d with
      freeCtr := d.freeCtr + 1,
      sec := { d.sec with challenge := some (c, d.now + 60 * Config.ticksPerSecond) } }) (le 32 c ++ le 8 s.dev.dev.unitId))) ∧
  (∀ (s : State) (ctx : Nat) (r : DebugOpenReq) (c : Bool × Dev), s.dev.served ctx 0x0706 = true → s.dev.sec.lifecycle = .secured → 1 ≤ r.window → r.window ≤ 86400 →
    c = (s.dev.begun ctx).signedOpen r.window r.auth → exec (.debugOpenSigned ctx r) s = .next (s.withDev
      (if c.1 then c.2.complete (s.dev.refOf ctx) .ok (le 1 (c.2.sec.debug).code) else c.2.complete (s.dev.refOf ctx) .denied))) ∧
  (∀ (d : Dev) (w : Nat) (a : AuthBlock) (c : Bool × Dev), c = d.authOk 0x0706 (le 1 1 ++ zeros 3 ++ le 4 w ++ zeros 24) a →
    (c.1 = true → d.signedOpen w a = (true, ({ c.2 with sec := { c.2.sec with fails := 0 } } : Dev).setDebug (.challengeOpen (c.2.now + w * Config.ticksPerSecond)))) ∧
    (∀ e : Dev, c.1 = false → e = { c.2 with sec := { c.2.sec with fails := c.2.sec.fails + 1 } } →
      d.signedOpen w a = (false, if c.2.sec.failLimit ≤ c.2.sec.fails + 1 then tamperDetect [5] 0 e else e))) ∧
  (∀ (s : State) (ctx : Nat), s.dev.served ctx 0x0706 = true → exec (.debugClose ctx) s = .next (s.done ctx (fun d => d.setDebug .closed) (le 1 0))) ∧
  (∀ (s : State) (ctx : Nat), s.dev.served ctx 0x0706 = true → debugAllowed s.dev.sec.lifecycle .opened = true →
    exec (.debugOpen ctx) s = .next (s.done ctx (fun d => d.setDebug .opened) (le 1 2))) ∧
  (∀ (s : State) (u : Nat), s.dev.sec.debug = .challengeOpen u → u ≤ s.dev.now → exec .debugWindowExpiry s = .next (s.withDev (s.dev.setDebug .closed))) ∧
  (∀ (s : State) (ctx : Nat), s.dev.served ctx 0x0E01 = true → ∃ b, exec (.debugStatus ctx) s = .next (s.answered ctx .ok b) ∧
    b.take 4 = le 1 (s.dev.sec.debug).code ++ le 1 s.dev.sec.lifecycle.code ++
      le 1 (sumOf ((List.range 4).map (fun n => if s.dev.coreHalted n then 2 ^ n else 0))) ++ le 1 s.dev.sec.fails)

/-- In range, TIME_CONFIG CLOCK, PORT and TREE and the two steps of TIME_INCREMENT_SET wait for the next boundary, at which CLOCK and PORT are taken
over and completed, a port with the stamps and, unless it is disabled or comes from DISABLED, the PTP state it had, and the counter steps, under
PPS_IN to the second given with its nanoseconds kept; INCREMENT changes the increment from the next reference period on; STATUS answers the state, the
last latched tick time and its phase. TEV_SCHEDULE MODE sets the pin and cancels its entries, ADD appends an entry under the lowest free number,
CANCEL_ALL removes them. NET_TRIGGER of named serving terminals waits with a first copy due in the next frame for each of them; with none named it
completes. (R346, R348, R349, R350, R351, R352, R353, 14_time.md) -/
def Obligations.TimeCommands : Prop :=
  (∀ (s : State) (ctx : Nat) (r : ClockReq), s.dev.served ctx 0x0801 = true → r.source ≤ 2 → r.profile ≤ 1 → 1 ≤ r.ppsWidth → r.ppsWidth ≤ 500000 → r.phi0 ≤ 124999 →
    (s.dev.clock.everAttached = true → r.aligned = s.dev.time.set.aligned ∧ r.phi0 = s.dev.time.set.phi0) →
    exec (.timeConfigClock ctx r) s = .next (s.withDev ((s.dev.begun ctx).timePend (.clock (s.dev.refOf ctx)
      { source := r.source, profile := r.profile, aligned := r.aligned, ppsOut := r.ppsOut, holdLimit := r.holdLimit, ppsWidth := r.ppsWidth,
        phaseAlarm := r.phaseAlarm, phi0 := r.phi0, stepThreshold := r.stepThreshold })))) ∧
  (∀ (d : Dev) (ref : CmdRef) (x : ClockSet) (n : Nat), n = (if x.aligned ∧ !d.time.set.aligned ∧ d.time.state = .locked then d.upNext else d.time.lockedTick) →
    d.applyTime (.clock ref x) = ({ d with time := { d.time with set := x, lockedTick := n } } : Dev).complete ref .ok) ∧
  (∀ (s : State) (ctx : Nat) (r : TimePortReq), s.dev.served ctx 0x0801 = true → s.dev.netPort r.port = true →
    exec (.timeConfigPort ctx r) s = .next (s.withDev ((s.dev.begun ctx).timePend (.port (s.dev.refOf ctx) r.port
      { enable := r.enable, oneStep := r.oneStep, rxLat := r.rxLat, txLat := r.txLat, rxStamp := none, txStamp := none })))) ∧
  (∀ (d : Dev) (ref : CmdRef) (p : Nat) (x y : PtpPort), y = tgetD d.time.ports p x → d.applyTime (.port ref p x) = (({ d with
    time := { d.time with
      ports := tset d.time.ports p { x with rxStamp := y.rxStamp, txStamp := y.txStamp, reqStamp := y.reqStamp, state := y.state } } } : Dev).ptpState p
        (if x.enable = false then 3 else if y.state = 3 then 1 else y.state)).complete ref .ok) ∧
  (∀ (s : State) (ctx : Nat) (r : TimeTreeReq), s.dev.served ctx 0x0801 = true → s.dev.treePresent r.tree = true → r.asym.natAbs ≤ 1000000 → r.fixed.natAbs ≤ 100000 →
    exec (.timeConfigTree ctx r) s = .next (s.withDev ((s.dev.begun ctx).timePend (.tree (s.dev.refOf ctx) r.tree r.asym r.fixed)))) ∧
  (∀ (s : State) (ctx : Nat), s.dev.served ctx 0x0801 = true → exec (.timeConfigStatus ctx) s = .next (s.answered ctx .ok
    (le 1 s.dev.time.state.code ++ le 1 s.dev.time.set.source ++ le 2 0 ++
      le 4 (if s.dev.time.state = .holdover ∨ s.dev.time.state = .freeRun then (s.dev.now - s.dev.time.holdSince) / Config.ticksPerSecond else 0) ++
      le 8 (s.dev.time.latchC % 2 ^ 48) ++ le 8 (secOf s.dev.time.latched) ++
      le 4 (nsOf s.dev.time.latched) ++ le 4 (fracOf s.dev.time.latched) ++ le 4 (phaseOf s.dev.time.latched / 65536) ++ le 4 s.dev.time.steps))) ∧
  (∀ (s : State) (ctx inc now : Nat), s.dev.served ctx 0x0802 = true → s.dev.time.set.source = 2 → 4995 * 2 ^ 32 ≤ inc * 1000 → inc * 1000 ≤ 5005 * 2 ^ 32 →
    exec (.timeIncrementSetIncrement ctx inc now) s = .next (s.done ctx (fun d => { d with time := d.time.setInc inc now }) (le 8 0))) ∧
  (∀ (s : State) (ctx sec ns : Nat), s.dev.served ctx 0x0802 = true → s.dev.time.set.source = 2 ∨ (s.dev.time.set.source = 1 ∧ ns = 0) → ns < 1000000000 →
    exec (.timeIncrementSetStepAbs ctx sec ns) s = .next (s.withDev ((s.dev.begun ctx).timePend (.stepAbs (some (s.dev.refOf ctx)) (sec % 2 ^ 48 * 1000000000 + ns))))) ∧
  (∀ (d : Dev) (ref : Option CmdRef) (ns : Nat),
    (d.time.set.source = 1 → d.applyTime (.stepAbs ref ns) = (d.stepTime (ns * 2 ^ 32 + d.time.base % (1000000000 * 2 ^ 32))).completeOpt ref .ok (fromResp d.now)) ∧
    (d.time.set.source ≠ 1 → d.applyTime (.stepAbs ref ns) = (d.stepTime (ns * 2 ^ 32)).completeOpt ref .ok (fromResp d.now))) ∧
  (∀ (s : State) (ctx : Nat) (x : Int), s.dev.served ctx 0x0802 = true → s.dev.time.set.source = 2 →
    exec (.timeIncrementSetStepRel ctx x) s = .next (s.withDev ((s.dev.begun ctx).timePend (.stepRel (some (s.dev.refOf ctx)) x)))) ∧
  (∀ (d : Dev) (ref : Option CmdRef) (x : Int), d.applyTime (.stepRel ref x) =
    (d.stepTime (((d.time.base : Int) + x * 2 ^ 32) % counterSpan).toNat).completeOpt ref .ok (fromResp d.now)) ∧
  (∀ (s : State) (ctx : Nat) (r : TevModeReq), s.dev.served ctx 0x0803 = true → r.pin ≤ 3 → r.mode ≤ 2 →
    exec (.tevScheduleMode ctx r) s = .next (s.done ctx (fun d => { d with time := d.time.modPin r.pin (fun p => { p with mode := r.mode, edges := r.edges % 4, entries := [] }) }) [])) ∧
  (∀ (s : State) (ctx : Nat) (r : TevAddReq) (now t n : Nat) (p : TevPin), s.dev.served ctx 0x0803 = true → r.pin ≤ 3 → p = lget s.dev.time.pins r.pin TevPin.reset → p.mode = 1 →
    p.entries.length < 16 → r.ns < 1000000000 → 10 ≤ r.width → r.width ≤ 500000000 → (r.period ≠ 0 → 2 * r.width ≤ r.period ∧ r.period ≤ 1000000000) →
    t = r.sec % 2 ^ 48 * 1000000000 + r.ns → s.dev.time.value now + 10000 * 2 ^ 32 ≤ t * 2 ^ 32 → s.dev.time.state ≠ .unset →
    n = ((List.range 16).find? (fun i => !p.entries.any (fun e => e.entry == i))).getD 0 →
    exec (.tevScheduleAdd ctx r now) s = .next (s.done ctx (fun d => { d with time := d.time.modPin r.pin (fun p => { p with entries := p.entries ++ [
      { entry := n, start := t, next := t, width := r.width, period := r.period, left := if r.count = 0 then none else some r.count }] }) }) (le 1 n))) ∧
  (∀ (s : State) (ctx pin : Nat), s.dev.served ctx 0x0803 = true → pin ≤ 3 →
    exec (.tevScheduleCancelAll ctx pin) s = .next (s.done ctx (fun d => { d with time := d.time.modPin pin (fun p => { p with entries := [] }) }) [])) ∧
  (∀ (s : State) (ctx : Nat) (r : TrigReq), s.dev.served ctx 0x0804 = true → s.dev.treeUp r.tree = true →
    ((maskIds r.mask).all (fun i => ((s.dev.tree r.tree).byId i).elim false (fun x => x.state = .inService))) = true → r.trigId ≤ 255 → r.output ≤ 7 → r.ns < 1000000000 → (r.period ≠ 0 → 1000 ≤ r.period ∧ r.period ≤ 1000000000) →
    s.dev.time.afterSteps (s.dev.time.atBoundary 0) + 4000000 * 2 ^ 32 ≤ (r.sec % 2 ^ 48 * 1000000000 + r.ns) * 2 ^ 32 → s.dev.time.state ≠ .unset →
    s.dev.time.state ≠ .freeRun →
    (maskIds r.mask ≠ [] → exec (.netTriggerSet ctx r) s = .next (s.withDev { s.dev.begun ctx with time := { s.dev.time with trigs := s.dev.time.trigs ++ [
      { ref := s.dev.refOf ctx, tree := r.tree, body := netTrigBody r false, left := (maskIds r.mask).map (fun i => (i, s.dev.now + 1, false)), queued := 0 }] } })) ∧
    (maskIds r.mask = [] → exec (.netTriggerSet ctx r) s = .next (s.answered ctx .ok (fromResp s.dev.now)))) ∧
  (∀ (s : State) (ctx : Nat) (r : TrigReq), s.dev.served ctx 0x0804 = true → s.dev.treeUp r.tree = true →
    ((maskIds r.mask).all (fun i => ((s.dev.tree r.tree).byId i).elim false (fun x => x.state = .inService))) = true → r.trigId ≤ 255 → s.dev.time.state ≠ .unset →
    s.dev.time.state ≠ .freeRun →
    (maskIds r.mask ≠ [] → exec (.netTriggerCancel ctx r) s = .next (s.withDev { s.dev.begun ctx with time := { s.dev.time with trigs := s.dev.time.trigs ++ [
      { ref := s.dev.refOf ctx, tree := r.tree, body := netTrigBody r true, left := (maskIds r.mask).map (fun i => (i, s.dev.now + 1, false)), queued := 0 }] } })) ∧
    (maskIds r.mask = [] → exec (.netTriggerCancel ctx r) s = .next (s.answered ctx .ok (fromResp s.dev.now))))

/-- A lost source puts a LOCKED counter into HOLDOVER, and lost PPS pulses are reported once; 4 samples below 100 ns lock it again; HOLDOVER_LIMIT
ends in FREE_RUN. A PPS_IN edge is noted with its distance from the whole second and ends the report. The servo counts the sample, under PPS_IN that
of the last edge, and writes INCREMENT, or, beyond STEP_THRESHOLD, steps at the next boundary; while Adesa does no work (a pause, a management
restart), under HOST and without an edge nothing happens. PPS_OUT goes high for PPS_WIDTH when TNS passes 0, a pulse already high staying so at least
as long. A due TEV entry fires and goes or moves on by its period; an edge on a CAPTURE pin is raised with the counter at the edge, counted as lost
where 64 wait, and triggers the recorder where its mask names the pin. Before the first attach one tick is lengthened, for the phase right after
LOCKED or by the tick reference's phase, and the cycle number of the reference, or without one the one given, is loaded; after it nothing happens. At
a message interval an enabled port takes the PTP state that Adesa gives it, raising the change, and a message of its type, but for a Sync or Announce
of a port that is not MASTER, waits to be sent (what IEEE 1588 leaves to Adesa in it is the model's free value, log entry 100). (R332, R333, R335,
R337, R338, R339, R346, R347, R354, R460, 14_time.md) -/
def Obligations.TimeEvents : Prop :=
  (∀ (s : State) (d : Dev), s.dev.host.idle = false → s.dev.time.set.source = 0 ∨ (s.dev.time.set.source = 1 ∧ s.dev.ppsOut = true) →
    d = (if s.dev.time.set.source = 1 ∧ s.dev.time.ppsLost = false then ({ s.dev with time := { s.dev.time with ppsLost := true } } : Dev).raise 0x307 [] 0 true else s.dev) →
    (d.time.state = .locked → exec .timeSourceLost s = .next (s.withDev (({ d with time := { d.time with holdSince := d.now, goodSamples := 0 } } : Dev).timeState .holdover))) ∧
    (d.time.state ≠ .locked → exec .timeSourceLost s = .next (s.withDev d))) ∧
  (∀ s : State, s.dev.time.state = .holdover ∨ s.dev.time.state = .freeRun → 4 ≤ s.dev.time.goodSamples → s.dev.host.idle = false →
    ¬ (s.dev.time.set.source = 1 ∧ s.dev.time.ppsLost = true) → exec .timeSourceRegained s = .next (s.withDev (s.dev.timeState .locked))) ∧
  (∀ s : State, s.dev.time.state = .holdover → s.dev.host.idle = false → s.dev.time.set.holdLimit ≠ 0 →
    s.dev.time.holdSince + s.dev.time.set.holdLimit * Config.ticksPerSecond ≤ s.dev.now → exec .holdoverLimit s = .next (s.withDev (s.dev.timeState .freeRun))) ∧
  (∀ (s : State) (now : Nat) (d : Dev), d = { s.dev with time := { s.dev.time with
      lastPps := some (s.dev.clk now), ppsLost := false, ppsOffset := some (toWholeSecond (s.dev.time.stamp now)) } } →
    exec (.ppsInEdge now) s = .next (s.withDev (if s.dev.time.ppsLost then d.raise 0x307 [] 0 false else d))) ∧
  (∀ (s : State) (o : ServoOut), (s.dev.host.idle = true ∨ s.dev.time.set.source = 2 ∨ (s.dev.time.set.source = 1 ∧ s.dev.time.ppsOffset = none)) →
    exec (.servoUpdate o) s = .next s) ∧
  (∀ (s : State) (o : ServoOut) (v : Int) (t : TimeUnit), s.dev.host.idle = false →
    (s.dev.time.set.source = 0 ∧ v = o.offset) ∨ (s.dev.time.set.source = 1 ∧ s.dev.time.ppsOffset = some v) →
    (s.dev.time.set.stepThreshold = 0 ∨ v.natAbs ≤ s.dev.time.set.stepThreshold) →
    t = { s.dev.time with goodSamples := if v.natAbs < 100 then s.dev.time.goodSamples + 1 else 0 } →
    exec (.servoUpdate o) s = .next (s.withDev { s.dev with
      time := { (o.inc.elim t (fun i => if incOk i then t.setInc i o.now else t)) with
        ppsOffset := if s.dev.time.set.source = 1 then none else s.dev.time.ppsOffset } })) ∧
  (∀ (s : State) (o : ServoOut) (v : Int), s.dev.host.idle = false →
    (s.dev.time.set.source = 0 ∧ v = o.offset) ∨ (s.dev.time.set.source = 1 ∧ s.dev.time.ppsOffset = some v) →
    s.dev.time.set.stepThreshold ≠ 0 → s.dev.time.set.stepThreshold < v.natAbs →
    ∃ t, exec (.servoUpdate o) s = .next (s.withDev { s.dev with time := t }) ∧ t.pend = s.dev.time.pend ++ [.stepRel none v]) ∧
  (∀ (s : State) (now n : Nat), s.dev.time.state ≠ .unset → s.dev.time.set.ppsOut = true → s.dev.secondPasses now = true →
    n = s.dev.clk now + s.dev.time.set.ppsWidth * Config.clocksPerMicrosecond →
    exec (.ppsOutPulse now) s = .next (s.withDev { s.dev with time := { s.dev.time with ppsHigh := some (s.dev.time.ppsHigh.elim n (Nat.max n)) } })) ∧
  (∀ (d : Dev) (now : Nat), d.time.basePeriod < periodsAt now →
    d.secondPasses now = (secOf (d.time.value now - d.time.inc) != secOf (d.time.value now))) ∧
  (∀ (s : State) (pin now : Nat) (e : TevEntry), (lget s.dev.time.pins pin TevPin.reset).mode = 1 →
    (lget s.dev.time.pins pin TevPin.reset).due (s.dev.time.ns now) = some e →
    exec (.tevFire pin now) s = .next (s.withDev { s.dev with time := s.dev.time.modPin pin (fun p => p.fire e (s.dev.clk now)) })) ∧
  (∀ (p : TevPin) (e : TevEntry) (c : Nat), (p.fire e c).fired = (c, c + ceilDiv (e.width * 5) 4) :: p.fired.filter (fun f => decide (c < f.2)) ∧
    (e.period = 0 ∨ e.left = some 1 → (p.fire e c).entries = p.entries.filter (fun x => x.entry != e.entry)) ∧
    (e.period ≠ 0 → (∀ n, e.left = some n → 2 ≤ n) → (p.fire e c).entries =
      p.entries.map (fun x => if x.entry = e.entry then { e with next := e.next + e.period, left := e.left.map (· - 1) } else x))) ∧
  (∀ (s : State) (pin now : Nat) (rising : Bool) (p : TevPin) (d d2 : Dev) (v : Nat), p = lget s.dev.time.pins pin TevPin.reset → p.mode = 2 →
    bitOf p.edges (if rising then 0 else 1) = true → p.lastEdge.elim true (fun l => decide (l * 8 + 100 ≤ s.dev.clk now * 8)) = true →
    d = { s.dev with time := s.dev.time.modPin pin (fun p => { p with lastEdge := some (s.dev.clk now) }) } → v = d.time.stamp now →
    d2 = d.raise (0x308 + pin) (le 1 (if rising then 1 else 2) ++ le 6 (secOf v) ++ le 4 (nsOf v) ++ le 2 (fracOf v / 65536)) →
    (s.dev.tevPending pin < 64 → exec (.tevCapture pin rising now) s = .next (s.withDev
      (if bitOf d2.recd.set.tevMask pin then (d2.trigger (d2.stamp now) 3 pin 0 now).2 else d2))) ∧
    (64 ≤ s.dev.tevPending pin → exec (.tevCapture pin rising now) s = .next (s.withDev (d.count 19 .timeTevCaptureLost (33 + pin))))) ∧
  (∀ (s : State) (given : Bool) (cycle : Nat) (th : Option Int),
    th = (if s.dev.tow.align then s.dev.tickRef.filter (fun x => x != s.dev.dev.devAddr) else none).bind s.dev.thetaOf → s.dev.clock.everAttached = false →
    s.dev.clock.tickLengthened = false → s.dev.time.set.aligned = true → s.dev.time.state = .locked → s.dev.time.lockedTick + 1 = s.dev.up → th = none →
    exec (.tickAlign given cycle) s = .next (s.withDev { s.dev with clock := { s.dev.clock with
      lengthenTo := some s.dev.time.alignPeriods, loadCycle := if s.dev.clock.cycleLoaded then s.dev.clock.loadCycle else if given then some cycle else none, tickLengthened := true } })) ∧
  (∀ (s : State) (given : Bool) (cycle : Nat) (th : Int),
    (if s.dev.tow.align then s.dev.tickRef.filter (fun x => x != s.dev.dev.devAddr) else none).bind s.dev.thetaOf = some th → s.dev.clock.everAttached = false →
    s.dev.clock.cycleLoaded = false →
    (s.dev.clock.tickLengthened = false → s.dev.time.set.aligned = false → exec (.tickAlign given cycle) s = .next (s.withDev { s.dev with
      clock := { s.dev.clock with
        lengthenTo := some (thetaPeriods th), loadCycle := some (cycleAt (s.dev.now + 1) (th + (thetaPeriods th : Int) * 5000)), tickLengthened := true },
      tow := { s.dev.tow with aligned := true } })) ∧
    (s.dev.clock.tickLengthened = true → s.dev.time.set.aligned = true → exec (.tickAlign given cycle) s = .next (s.withDev { s.dev with
      clock := { s.dev.clock with loadCycle := some (cycleAt (s.dev.now + 1) th) },
      tow := { s.dev.tow with aligned := true } }))) ∧
  (∀ (s : State) (given : Bool) (cycle : Nat), s.dev.clock.everAttached = true → exec (.tickAlign given cycle) s = .next s) ∧
  (∀ (s : State) (port msg st : Nat) (d : Dev), (tget s.dev.time.ports port).elim false (fun p => p.enable) = true → s.dev.host.idle = false → s.dev.upLive port = true →
    d = s.dev.ptpState port st →
    (msg ∈ [0, 2, 11, 12, 13] → (msg = 0 ∨ msg = 11 → st = 6) →
      exec (.ptpMessageInterval port { msg := msg, state := st }) s = .next (s.withDev ((d.ptpMake port msg).2.ptpQueue port (d.ptpMake port msg).1))) ∧
    (msg ∉ [0, 2, 11, 12, 13] ∨ ((msg = 0 ∨ msg = 11) ∧ st ≠ 6) → exec (.ptpMessageInterval port { msg := msg, state := st }) s = .next (s.withDev d))) ∧
  (∀ (d : Dev) (port st : Nat) (x : PtpPort), tget d.time.ports port = some x →
    (x.state ≠ st → d.ptpState port st = ({ d with time := { d.time with ports := tmod d.time.ports port (fun x => { x with state := st }) } } : Dev).raise 0x306
      (le 1 port ++ le 1 st)) ∧ (x.state = st → d.ptpState port st = d))

/-- PROT_GROUP_CREATE of a group on one device makes both ports, the one the ACTIVE record names or else PRIMARY as HOLDER and the other as STANDBY;
with a port on another device it makes its own port, a lit PRIMARY as HOLDER; DELETE removes the group's ports, a holding port's tree goes on
unprotected, another's lanes go idle; LEASE_STATUS answers all fields of PRIMARY's port; LEASE_DRILL at a holder notes a drill, a calibration or a
move for the next boundary with DWELL, or 8,000 ticks for 0; TWIN_FLOW_SET sets a pair under a new epoch or clears it with its counters. (R294, R303,
R305, R307, R313, R314, R315, R316, 12_protection.md) -/
def Obligations.ProtectionCommands : Prop :=
  (∀ (s : State) (ctx : Nat) (r : GroupReq) (p q h : Nat) (a b : Port) (x y : Dev), s.dev.served ctx 0x0901 = true → r.pgid ≤ 1023 → r.peerDev = s.dev.dev.devAddr → r.peerDev ≤ 63 →
    r.peerTree ≤ 63 → r.peerTree ≠ r.tree → s.dev.treePresent r.tree = true → s.dev.treePresent r.peerTree = true → (∀ n, r.pulse = some n → n ≤ 1) →
    (∀ e ∈ s.dev.prot.ports, e.2.pgid ≠ r.pgid) → s.dev.port r.tree = none → s.dev.port r.peerTree = none →
    (∀ e ∈ s.dev.prot.ports, r.pulse.isSome = true → e.2.pulse = r.pulse → e.2.peerDev = r.peerDev) →
    p = (if r.primary = true then r.tree else r.peerTree) → q = (if p = r.tree then r.peerTree else r.tree) →
    h = (if (s.dev.tree p).lit = false ∧ tget s.dev.prot.active r.pgid = some q then q else p) →
    a = { Port.new r.pgid r.primary r.peerDev r.peerTree r (s.dev.tree p).epoch s.dev.now with
      state := if h = r.tree then .holder else .standby, holderDev := s.dev.dev.devAddr } →
    b = { Port.new r.pgid (!r.primary) r.peerDev r.tree r (s.dev.tree p).epoch s.dev.now with
      state := if h = r.tree then .standby else .holder, holderDev := s.dev.dev.devAddr } →
    x = { s.dev.begun ctx with prot := { s.dev.prot with ports := tset (tset s.dev.prot.ports r.tree a) r.peerTree b } } →
    y = (if h = r.tree then ((x.roleHolder r.tree).addHeld r.tree).recordActive r.pgid r.tree
      else ((x.roleHolder r.peerTree).addHeld r.peerTree).recordActive r.pgid r.peerTree) →
    exec (.protGroupCreate ctx r) s = .next (s.withDev ((((y.endDozes r.tree).endDozes r.peerTree).setReserve).complete (s.dev.refOf ctx) .ok
      (le 2 (s.dev.tree p).epoch ++ le 1 (((((y.endDozes r.tree).endDozes r.peerTree).setReserve).port r.tree).elim 0 (fun p => p.state.code)))))) ∧
  (∀ (s : State) (ctx : Nat) (r : GroupReq) (st : LeaseState) (x y : Dev), s.dev.served ctx 0x0901 = true → r.pgid ≤ 1023 → r.peerDev ≠ s.dev.dev.devAddr → r.peerDev ≤ 63 →
    r.peerTree ≤ 63 → s.dev.treePresent r.tree = true → s.dev.tickLocked r.peerDev = true → (∀ n, r.pulse = some n → n ≤ 1) →
    (∀ e ∈ s.dev.prot.ports, e.2.pgid ≠ r.pgid) → s.dev.port r.tree = none →
    (∀ e ∈ s.dev.prot.ports, r.pulse.isSome = true → e.2.pulse = r.pulse → e.2.peerDev = r.peerDev) →
    st = (if r.primary = true ∧ (s.dev.tree r.tree).lit = true then .holder else .init) →
    x = { s.dev.begun ctx with prot := { s.dev.prot with ports := tset s.dev.prot.ports r.tree {
      Port.new r.pgid r.primary r.peerDev r.peerTree r (s.dev.tree r.tree).epoch s.dev.now with state := st, holderDev := s.dev.dev.devAddr } } } →
    y = (if st = .holder then ((x.roleHolder r.tree).addHeld r.tree).recordActive r.pgid r.tree else x) →
    exec (.protGroupCreate ctx r) s = .next (s.withDev (((y.endDozes r.tree).setReserve).complete (s.dev.refOf ctx) .ok
      (le 2 (s.dev.tree r.tree).epoch ++ le 1 ((((y.endDozes r.tree).setReserve).port r.tree).elim 0 (fun p => p.state.code)))))) ∧
  (∀ (s : State) (ctx pgid : Nat) (e0 : Nat × Port) (es : List (Nat × Port)), s.dev.served ctx 0x0901 = true → s.dev.prot.ports.filter (fun e => e.2.pgid == pgid) = e0 :: es →
    exec (.protGroupDelete ctx pgid) s = .next (s.withDev ((((e0 :: es).foldl (fun (d : Dev) e =>
        let d := { d with prot := { d.prot with ports := tdel d.prot.ports e.1, active := tdel d.prot.active pgid } }
        if e.2.state = .holder then d
        else d.modTree e.1 (fun x => { x with
          attach := .detached, since := d.now, epoch := e.2.epoch, lanes := { x.lanes with state := .idle, wake := none } }))
        ((e0 :: es).foldl (fun d e => d.drillEnd e.1 2) (s.dev.begun ctx))).setReserve.pulseIdle).complete
      (s.dev.refOf ctx) .ok (le 2 e0.2.epoch ++ le 1 e0.2.state.code)))) ∧
  (∀ (s : State) (ctx t : Nat) (p : Port), s.dev.served ctx 0x0901 = true → s.dev.prot.ports.filter (fun e => e.2.pgid == p.pgid) = [(t, p)] →
    s.dev.port t = some p → p.state = .holder → p.drill = none →
    exec (.protGroupDelete ctx p.pgid) s = .next (s.withDev (({ s.dev.begun ctx with
      prot := { s.dev.prot with ports := tdel s.dev.prot.ports t, active := tdel s.dev.prot.active p.pgid } } : Dev).setReserve.pulseIdle.complete
        (s.dev.refOf ctx) .ok (le 2 p.epoch ++ le 1 3)))) ∧
  (∀ (s : State) (ctx pgid t flags : Nat) (p : Port), s.dev.served ctx 0x0902 = true →
    ((s.dev.prot.ports.filter (fun e => e.2.pgid == pgid)).find? (fun e => e.2.primary)).or
      (s.dev.prot.ports.filter (fun e => e.2.pgid == pgid)).head? = some (t, p) →
    flags = b2n p.armed + 2 * b2n (p.peerFresh s.dev.now) + 4 * b2n (p.lastPulse.elim false (fun x => decide (s.dev.now < x + 16))) +
      8 * b2n (decide (p.state = .holder) || !p.expired s.dev.now) +
      16 * b2n (if p.state = .holder then p.peer.elim false (fun v => v.heard) else p.heard) +
      32 * b2n (if p.state = .holder then p.peer.elim false (fun v => v.sf) else p.witnessSf) →
    exec (.leaseStatus ctx pgid) s = .next (s.answered ctx .ok (le 1 p.state.code ++ le 1 (b2n (!p.primary)) ++ le 2 p.epoch ++ le 1 p.holderDev ++
      le 1 flags ++ le 1 p.drillResult ++ le 1 0 ++ leInt 4 p.cal ++ le 4 p.switches ++ fromResp (p.lastRenew.getD 0) ++ fromResp p.lastSwitch ++
      fromResp p.lastDrill))) ∧
  (∀ (s : State) (ctx : Nat) (r : DrillReq) (x : Drill) (ps : List (Nat × Port)), s.dev.served ctx 0x0903 = true → ps = s.dev.prot.ports.filter (fun e => e.2.pgid == r.pgid) →
    (∃ e ∈ ps, e.2.state = .holder) → (∀ e ∈ ps, e.2.state ≠ .taking ∧ e.2.drill = none ∧ e.2.move = none ∧ e.2.take = none) →
    (∀ e ∈ ps, e.2.armed = true) →
    r.dwell = 0 ∨ (64 ≤ r.dwell ∧ r.dwell ≤ 80000) →
    x = {
      op := .drill, ref := some (s.dev.refOf ctx), dwell := if r.dwell = 0 then 8000 else r.dwell, a := s.dev.now + 1, moveAt := s.dev.now + 9, ids := [],
      heard := [], maxOffset := 0, e := none, offsets := r.offsets.foldl (fun t e => tset t e.1 e.2) [], back := none } →
    exec (.leaseDrillDrill ctx r) s = .next (s.withDev (ps.foldl (fun d e =>
      if e.2.state = .holder then d.modPort e.1 (fun p => { p with drill := some x }) else d) (s.dev.begun ctx)))) ∧
  (∀ (s : State) (ctx : Nat) (r : DrillReq) (x : Drill) (ps : List (Nat × Port)), s.dev.served ctx 0x0903 = true → ps = s.dev.prot.ports.filter (fun e => e.2.pgid == r.pgid) →
    (∃ e ∈ ps, e.2.state = .holder) → (∀ e ∈ ps, e.2.state ≠ .taking ∧ e.2.drill = none ∧ e.2.move = none ∧ e.2.take = none) →
    r.dwell = 0 ∨ (64 ≤ r.dwell ∧ r.dwell ≤ 80000) →
    x = {
      op := .calibrate, ref := some (s.dev.refOf ctx), dwell := if r.dwell = 0 then 8000 else r.dwell, a := s.dev.now + 1, moveAt := s.dev.now + 9, ids := [],
      heard := [], maxOffset := 0, e := none, offsets := r.offsets.foldl (fun t e => tset t e.1 e.2) [], back := none } →
    exec (.leaseDrillCalibrate ctx r) s = .next (s.withDev (ps.foldl (fun d e =>
      if e.2.state = .holder then d.modPort e.1 (fun p => { p with drill := some x }) else d) (s.dev.begun ctx)))) ∧
  (∀ (s : State) (ctx : Nat) (r : DrillReq) (x : Drill) (ps : List (Nat × Port)), s.dev.served ctx 0x0903 = true → ps = s.dev.prot.ports.filter (fun e => e.2.pgid == r.pgid) →
    (∃ e ∈ ps, e.2.state = .holder) → (∀ e ∈ ps, e.2.state ≠ .taking ∧ e.2.drill = none ∧ e.2.move = none ∧ e.2.take = none) →
    (∀ e ∈ ps, e.2.armed = true) →
    x = {
      op := .move, ref := some (s.dev.refOf ctx), dwell := if r.dwell = 0 then 8000 else r.dwell, a := s.dev.now + 1, moveAt := s.dev.now + 9, ids := [],
      heard := [], maxOffset := 0, e := none, offsets := r.offsets.foldl (fun t e => tset t e.1 e.2) [], back := none } →
    exec (.leaseDrillMove ctx r) s = .next (s.withDev (ps.foldl (fun d e =>
      if e.2.state = .holder then d.modPort e.1 (fun p => { p with drill := some x }) else d) (s.dev.begun ctx)))) ∧
  (∀ (s : State) (ctx : Nat) (r : TwinReq) (p : Pair), s.dev.served ctx 0x0904 = true → r.devA < 64 → r.devB < 64 →
    r.seqDev < 64 → r.backupDev < 64 → r.flowA ≤ 131071 → r.flowB ≤ 131071 →
    (r.devA = s.dev.dev.devAddr → ∃ f, s.dev.flow r.flowA = some f ∧ f.dir ≤ 1) → (r.devB = s.dev.dev.devAddr → ∃ f, s.dev.flow r.flowB = some f ∧ f.dir ≤ 1) →
    p = {
      devA := r.devA, devB := r.devB, flowA := r.flowA, flowB := r.flowB, pairHere := r.pairUp, seqHere := r.seq, backupHere := r.backup, seqDev := r.seqDev,
      backupDev := r.backupDev, seq := 0, epoch := nextTwinEpoch (tget s.dev.prot.twinEpochs (pairKey r.devA r.flowA)) (r.backup && !r.seq), up := none,
      down := none } →
    (s.dev.pairTrees p).1 ≠ (s.dev.pairTrees p).2 →
    (tget s.dev.prot.pairs (pairKey r.devA r.flowA)).isSome = true ∨ s.dev.prot.pairs.length < 16384 →
    s.dev.partnersOver (tset s.dev.prot.pairs (pairKey r.devA r.flowA) p) = false →
    exec (.twinFlowSet ctx r) s = .next (s.done ctx (fun d =>
      { d with prot := { d.prot with
        pairs := tset d.prot.pairs (pairKey r.devA r.flowA) p, twinEpochs := tset d.prot.twinEpochs (pairKey r.devA r.flowA) p.epoch } }) (le 1 p.epoch))) ∧
  (∀ (s : State) (ctx devA flowA : Nat) (p : Pair), s.dev.served ctx 0x0904 = true → tget s.dev.prot.pairs (pairKey devA flowA) = some p →
    exec (.twinFlowClear ctx devA flowA) s = .next (s.done ctx (fun d => { d with
      prot := { d.prot with pairs := tdel d.prot.pairs (pairKey devA flowA) }, ctr := d.ctr.clear 15 (2 * flowA) 2 }) (le 1 p.epoch)))

/-- A good Keeper pulse is counted at its port; the expiry of a standby whose tree was silent prepares a take, as INIT_TIMEOUT of PRIMARY does, while
one whose tree is heard reports the hold and a SECONDARY becomes STANDBY; a missing heartbeat or pulse is reported once; a heartbeat of the group is
taken, and one of the holder in the epoch held renews the lease of a STANDBY; a mirror record for a standby replaces its mirror and prepares a move it
names; the end of a dwell fixes the way back; the mean of the first 64 ticks corrects C, with CAL_DRIFT beyond 8 bits. (R288, R290, R291, R292, R294,
R303, R305, R317, 12_protection.md) -/
def Obligations.ProtectionEvents : Prop :=
  (∀ (s : State) (r : PulseRx), near r.edge 0 12500 = true → near r.width 312500 25000 = true ∨ near r.width 937500 25000 = true →
    exec (.keeperPulseRx r) s = .next (s.withDev ((s.dev.prot.ports.filter (fun e => e.2.pulse == some r.pair)).foldl (fun d e =>
      (if e.2.pulseLost = true then d.protEvent e.2 0x285 else d).modPort e.1 (fun p => { p with
        goodPulses := p.goodPulses + b2n (near r.width 312500 25000), changePulse := p.changePulse || near r.width 937500 25000,
        lastPulse := some (if e.2.pulseLost = true then d.protEvent e.2 0x285 else d).now, pulseLost := false })) s.dev))) ∧
  (∀ (s : State) (t : Nat) (p : Port) (r : PulseRx), s.dev.prot.ports.filter (fun e => e.2.pulse == some r.pair) = [(t, p)] → p.pulseLost = false → near r.edge 0 12500 = true →
    near r.width 312500 25000 = true → exec (.keeperPulseRx r) s = .next (s.withDev (s.dev.modPort t (fun p =>
      { p with goodPulses := p.goodPulses + 1, lastPulse := some s.dev.now, pulseLost := false })))) ∧
  (∀ (s : State) (t : Nat) (p : Port), s.dev.port t = some p → p.state = .standby → p.expired s.dev.now = true → 3 ≤ p.silentRun →
    (∀ r, p.releaseAt = some r → r + 640 ≤ s.dev.now) →
    exec (.leaseExpiry t) s = .next (s.withDev (s.dev.modPort t (fun p => { p with take := some (.expiry, s.dev.now) })))) ∧
  (∀ (s : State) (t : Nat) (p : Port), s.dev.port t = some p → p.state = .standby → p.expired s.dev.now = true → p.silentRun < 3 → p.witness.head? = some true →
    p.holdRaised = false →
    exec (.leaseExpiry t) s = .next (s.withDev ((s.dev.modPort t (fun p => { p with holdRaised := true })).protEvent p 0x282))) ∧
  (∀ (s : State) (t : Nat) (p : Port), s.dev.port t = some p → p.state = .init → p.primary = true → p.initSince + 640 ≤ s.dev.now → 3 ≤ p.silentRun →
    exec (.leaseInitTimeout t) s = .next (s.withDev (s.dev.modPort t (fun p => { p with take := some (.create, s.dev.now) })))) ∧
  (∀ (s : State) (t : Nat) (p : Port), s.dev.port t = some p → p.state = .init → p.primary = false → p.initSince + 960 ≤ s.dev.now →
    exec (.leaseInitTimeout t) s = .next (s.withDev (s.dev.modPort t (fun p => { p with state := .standby, lastRenew := none })))) ∧
  (∀ (s : State) (t : Nat) (p : Port), s.dev.port t = some p → p.towLost = false → p.peer.elim p.initSince (fun v => v.at_) + 160 ≤ s.dev.now →
    p.pulse = none ∨ p.pulseLost = true ∨ s.dev.now < p.lastPulse.getD p.initSince + 16 →
    exec (.leasePathTimeout t) s = .next (s.withDev ((s.dev.modPort t (fun p => { p with towLost := true })).protEvent p 0x284 [] 0 true))) ∧
  (∀ (s : State) (t : Nat) (p : Port), s.dev.port t = some p → p.towLost = true ∨ s.dev.now < p.peer.elim p.initSince (fun v => v.at_) + 160 →
    p.pulse.isSome = true → p.pulseLost = false → p.lastPulse.getD p.initSince + 16 ≤ s.dev.now →
    exec (.leasePathTimeout t) s = .next (s.withDev ((s.dev.modPort t (fun p => { p with pulseLost := true })).protEvent p 0x285 [] 0 true))) ∧
  (∀ (s : State) (t : Nat) (p : Port), s.dev.port t = some p → p.towLost = false → p.peer.elim p.initSince (fun v => v.at_) + 160 ≤ s.dev.now →
    p.pulse.isSome = true → p.pulseLost = false → p.lastPulse.getD p.initSince + 16 ≤ s.dev.now →
    exec (.leasePathTimeout t) s = .next (s.withDev ((((s.dev.modPort t (fun p => { p with towLost := true })).protEvent p 0x284 [] 0 true).modPort t
      (fun p => { p with pulseLost := true })).protEvent p 0x285 [] 0 true))) ∧
  (∀ (s : State) (r : TowRx) (d : Dev) (v : PeerView) (t : Nat) (p : Port), s.dev.towAccept r 2 = (d, true) → r.payload.length = 32 →
    crc32c (r.payload.take 28) = beAt r.payload 28 4 → v = readHeartbeat r.payload d.now →
    (d.peerAnswered v).prot.ports.find? (fun e => e.2.pgid == beAt r.payload 0 2 && e.2.peerDev == v.dev && e.2.peerTree == v.tree) = some (t, p) →
    exec (.leaseHeartbeatRx r) s = .next (s.withDev ((d.peerAnswered v).takeHeartbeat t v (bitOf (beAt r.payload 5 1) 0)))) ∧
  (∀ (d : Dev) (t : Nat) (p : Port) (v : PeerView), d.port t = some p → p.state = .standby → p.towLost = false → v.role = 0 → v.epoch = p.epoch →
    ∃ q, (d.takeHeartbeat t v false).port t = some q ∧ q.state = .standby ∧ q.epoch = p.epoch ∧ q.lastRenew = some d.now ∧ q.peer = some v ∧ q.holderDev = v.dev) ∧
  (∀ (s : State) (r : TowRx) (m : MirrorRec) (d : Dev) (p : Port) (x : Mirror) (k : Tbl TermKeys), s.dev.towAccept r 6 = (d, true) → d.port m.tree = some p → p.peerDev = r.src →
    p.state = .standby ∨ p.state = .init → m.move = none →
    k = (if d.keyless then [] else m.terms.foldl (fun t y => y.id.elim t (fun id => tset t id (mirrorKeys y d.now))) []) →
    x = {
      at_ := d.now, terms := m.terms.map mirrorTerm, kp := m.kp, sched := { reach := m.reach, mode := m.mode, period := m.period, phase := m.phase }, keys := k,
      manifests := m.manifest.elim (((p.mirror.map (fun y => y.manifests)).getD []).filter (fun e => decide (d.now ≤ e.1))) (fun y =>
        tset (((p.mirror.map (fun y => y.manifests)).getD []).filter (fun e => decide (d.now ≤ e.1))) y.1 { target := y.1, missed := false, grants := y.2.map (fun g =>
          { tid := g.1, start := g.2.1, ncw := g.2.2.1, kind := g.2.2.2, flow := 0, cls := 0, shares := [] }) }) } →
    exec (.mirrorRx r m) s = .next (s.withDev (d.modPort m.tree (fun p => { p with mirror := some x })))) ∧
  (∀ (s : State) (r : TowRx) (m : MirrorRec) (d : Dev) (p : Port) (at_ epoch : Nat) (cal : Bool), s.dev.towAccept r 6 = (d, true) → d.port m.tree = some p → p.peerDev = r.src →
    p.state = .standby ∨ p.state = .init → m.move = some (at_, epoch, cal) →
    ∃ (x : Mirror) (visit : Option Drill), exec (.mirrorRx r m) s = .next (s.withDev (d.modPort m.tree (fun p => { p with
        mirror := some x, move := some { moveAt := at_, epoch, gain := true, cal }, drill := if p.drill.isSome = true then p.drill else visit }))) ∧
      x.at_ = d.now ∧ x.terms = m.terms.map mirrorTerm ∧ x.kp = m.kp ∧
      visit = m.dwell.map (fun w => {
        op := if cal = true then .calibrate else .drill, ref := none, dwell := w, a := at_ - 8, moveAt := at_, heard := [], maxOffset := 0, e := none,
        ids := (x.terms.filter (fun y => y.state = .inService)).filterMap (fun y => y.id), offsets := [], back := none })) ∧
  (∀ (s : State) (r : DwellEnd) (p : Port) (x y : Drill) (v : Nat) (b : Nat × Nat) (d : Dev), s.dev.port r.tree = some p → p.drill = some x → x.back = none → p.state = .holder →
    x.ref = none → y = { x with offsets := r.offsets } → y.verdict (s.dev.now + 1) = some v → b = (y.backAt (s.dev.now + 1) v, v) →
    d = s.dev.modPort r.tree (fun p => { p with drill := some { y with back := some b } }) →
    exec (.drillDwellExpiry r) s = .next (s.withDev (if p.isLocal d = true then d.modPort p.peerTree (fun q => { q with
      drill := q.drill.map (fun z => { z with heard := y.heard, maxOffset := y.maxOffset, back := some b }) }) else d))) ∧
  (∀ (s : State) (r : DwellEnd) (p : Port) (x y : Drill) (v : Nat) (b : Nat × Nat), s.dev.port r.tree = some p → p.drill = some x → x.back = none → p.state = .standby →
    x.ref.isSome = true → p.isLocal s.dev = false →
    y = { x with heard := r.heard, maxOffset := r.maxOffset, e := if r.heard.isEmpty = true then none else some 0 } →
    y.verdict (s.dev.now + 1) = some v → b = (y.backAt (s.dev.now + 1) v, v) →
    exec (.drillDwellExpiry r) s = .next (s.withDev (s.dev.modPort r.tree (fun p => { p with
      drill := some { y with back := some b }, move := some { moveAt := b.1, epoch := epochNext p.epoch, gain := true, cal := false } })))) ∧
  (∀ (s : State) (t u n : Nat) (x : Int) (p : Port) (d : Dev), s.dev.port t = some p → p.mean = some (u, x, n) → u ≤ s.dev.now → n ≠ 0 →
    d = (s.dev.modPort t (fun p => { p with mean := none })).modPort t (fun p => p.addCal (roundDiv x n)) → p.isLocal d = false →
    exec (.calMeanUpdate t) s = .next (s.withDev (if 8 * n < x.natAbs then d.protEvent p 0x288 (leInt 4 (roundDiv x n)) else d))) ∧
  (∀ (s : State) (t u n : Nat) (x : Int) (p q : Port) (d e : Dev), s.dev.port t = some p → p.mean = some (u, x, n) → u ≤ s.dev.now → n ≠ 0 →
    d = (s.dev.modPort t (fun p => { p with mean := none })).modPort t (fun p => p.addCal (roundDiv x n)) → p.isLocal d = true → d.port t = some q →
    e = d.modPort p.peerTree (fun y => { y with cal := q.cal }) →
    exec (.calMeanUpdate t) s = .next (s.withDev (if 8 * n < x.natAbs then e.protEvent p 0x288 (leInt 4 (roundDiv x n)) else e))) ∧
  (∀ (s : State) (t u : Nat) (x : Int) (p : Port), s.dev.port t = some p → p.mean = some (u, x, 0) → u ≤ s.dev.now →
    exec (.calMeanUpdate t) s = .next (s.withDev (s.dev.modPort t (fun p => { p with mean := none }))))

/-- A unit of the local device on an up link whose partner is not isolated is counted and accepted; one whose CRCs do not fit is counted and dropped.
A DATA unit without a flow goes through the pipeline, a TWIN unit for a downstream flow is queued with its tag, a CLAIM of a tree that is up is taken,
a BULK segment of an object that is neither void nor complete is released where its tag verifies and voids its object where not, a segment that fails
to come for 10 ms voids such an object, VOID and MGMT units are noted for their consumers. (R168, R288, R308, R309, R367, R394, R395, R406, R409,
16_towpath.md) -/
def Obligations.TowpathUnits : Prop :=
  (∀ (d x y : Dev) (r : TowRx) (typ c gap : Nat), r.link < 8 → (d.link r.link).up = true → c = linkClass typ →
    gap = (lget (d.link r.link).lseqRx c none).elim 0 (fun p => (r.lseq + 2 ^ 24 - (p + 1) % 2 ^ 24) % 2 ^ 24) →
    x = (d.count 17 .towRxUnits r.link).count 17 .towRxBytes r.link (r.payload.length + 20) →
    y = ((if gap = 0 then x else x.count 17 .towSeqGap r.link gap).modLink r.link (fun l => { l with lseqRx := lset l.lseqRx c (some r.lseq) })).towFree r.link c r.payload.length →
    typ = 3 ∨ ((d.link r.link).peerIso = false ∧ (typ = 4 ∨ (d.tow.isolated = false ∧ r.dst = d.dev.devAddr))) → d.towAccept r typ = (y, true)) ∧
  (∀ (d x y : Dev) (r : TowRx) (typ c gap : Nat), r.link < 8 → (d.link r.link).up = true → c = linkClass typ →
    gap = (lget (d.link r.link).lseqRx c none).elim 0 (fun p => (r.lseq + 2 ^ 24 - (p + 1) % 2 ^ 24) % 2 ^ 24) →
    x = (d.count 17 .towRxUnits r.link).count 17 .towRxBytes r.link (r.payload.length + 20) →
    y = ((if gap = 0 then x else x.count 17 .towSeqGap r.link gap).modLink r.link (fun l => { l with lseqRx := lset l.lseqRx c (some r.lseq) })).towFree r.link c r.payload.length →
    typ ≠ 3 → typ ≠ 4 → (d.link r.link).peerIso = false → d.tow.isolated = false → r.dst ≠ d.dev.devAddr →
    d.towAccept r typ = (if r.hops = 0 then (y.countDev .towHopDrop).raiseFirst 0x264 else
      y.routeUnit { dst := r.dst, src := r.src, typ, hops := r.hops - 1, cls := r.cls, payload := r.payload }, false)) ∧
  (∀ (s : State) (k : Nat), k < 8 → (s.dev.link k).up = true → exec (.unitCrcDrop k) s = .next (s.withDev ((s.dev.count 17 .towCrcDrop k).raiseFirst (0x242 + 4 * k)))) ∧
  (∀ (s : State) (r : TowRx) (lane : Nat) (d : Dev), s.dev.towAccept r 0 = (d, true) → r.cls = none →
    exec (.towpathDataRx r lane) s = .next (s.withDev (d.pipeline (Pkt.make r.payload 3 r.link (0x4028 + r.link) (72 + r.link) lane r.now)))) ∧
  (∀ (s : State) (r : TowRx) (lane flow cls : Nat) (d : Dev), s.dev.towAccept r 0 = (d, true) → r.cls = some (flow, cls) →
    (∀ e ∈ d.prot.pairs, e.2.seqHere = true → e.2.flowA ≠ flow) →
    exec (.towpathDataRx r lane) s = .next (s.withDev (d.enqueue
      { data := r.payload, req := 72 + r.link, version := 0, input := 3, port := r.link, twinTag := none, copies := [(flow, cls)], now := r.now }))) ∧
  (∀ (s : State) (r : TowRx) (lane flow cls k : Nat) (p : Pair) (d : Dev), s.dev.towAccept r 0 = (d, true) → r.cls = some (flow, cls) →
    d.prot.pairs.find? (fun e => e.2.seqHere && e.2.flowA == flow) = some (k, p) →
    exec (.towpathDataRx r lane) s = .next (s.withDev (d.twinCopy (Pkt.make r.payload 3 r.link (0x4028 + r.link) (72 + r.link) lane r.now) p cls))) ∧
  (∀ (s : State) (r : TowRx) (d : Dev) (flow cls : Nat), s.dev.towAccept r 1 = (d, true) → r.cls = some (flow, cls) →
    (∃ f, d.flow flow = some f ∧ f.dir = 0) ∨ (∀ e ∈ d.prot.pairs, e.2.pairHere = true → e.2.flowA ≠ flow) →
    exec (.twinUnitRx r) s = .next (s.withDev (d.enqueue
      { data := r.payload.drop 4, req := 72 + r.link, version := 0, input := 3, port := r.link, twinTag := some (beAt r.payload 0 4), copies := [(flow, cls)], now := r.now }))) ∧
  (∀ (s : State) (r : TowRx) (d y : Dev) (flow cls k : Nat) (p : Pair) (b : Bool), s.dev.towAccept r 1 = (d, true) → r.cls = some (flow, cls) →
    (∀ f, d.flow flow = some f → f.dir ≠ 0) → d.prot.pairs.find? (fun e => e.2.pairHere && e.2.flowA == flow) = some (k, p) →
    d.pairCopy k (beAt r.payload 0 4) 0 r.now = (b, y) →
    exec (.twinUnitRx r) s = .next (s.withDev (if b = true then y.enqueue
      { data := r.payload.drop 4, req := 72 + r.link, version := 0, input := 3, port := r.link, twinTag := none, copies := [(flow, cls)], now := r.now } else y))) ∧
  (∀ (s : State) (r : TowRx) (d : Dev), s.dev.towAccept r 5 = (d, true) → beAt r.payload 10 2 / 64 = s.dev.dev.devAddr → d.treeUp (beAt r.payload 10 2 % 64) = true →
    exec (.claimRx r) s = .next (s.withDev (d.takeClaim (beAt r.payload 10 2 % 64)
      { g := beAt r.payload 0 2, q := beAt r.payload 2 6, w := beAt r.payload 8 1, y := beAt r.payload 9 1 }))) ∧
  (∀ (s : State) (r : TowRx) (d x y : Dev) (key : BitVec 256) (b : BulkRx) (t : Bytes), s.dev.towAccept r 7 = (d, true) → d.sec.fabricKey = some key →
    y = d.cipherUse 2 r.link r.payload.length (d.clk r.now) true →
    b = (y.tow.bulk.find? (fun b => b.src == r.src && b.object == beAt r.payload 0 6)).getD {
      src := r.src, object := beAt r.payload 0 6, consumer := beAt r.payload 8 1, next := 0, last := 0, void := false, released := [] } →
    x = { y with tow := { y.tow with
      bulk := if (y.tow.bulk.find? (fun b => b.src == r.src && b.object == beAt r.payload 0 6)).isNone = true then y.tow.bulk ++ [b] else y.tow.bulk } } →
    b.void = false → b.complete = false → b.next = beAt r.payload 6 2 →
    gcmOpen key.toNat (bulkIv d.sec.fabricSalt r.src (beAt r.payload 0 6) (beAt r.payload 6 2)) (r.payload.take 16)
      ((r.payload.drop 16).take ((r.payload.drop 16).length - 16)) (BitVec.ofNat 128 (ofBE ((r.payload.drop 16).drop ((r.payload.drop 16).length - 16)))) = some t →
    exec (.bulkSegmentRx r) s = .next (s.withDev (x.modBulk r.src (beAt r.payload 0 6) (fun y =>
      { y with
        next := beAt r.payload 6 2 + 1, last := x.clk r.now, released := y.released ++ t,
        complete := decide (t.length < 4096 ∨ beAt r.payload 6 2 = 65535 ∨ Config.bulkLast r.src (beAt r.payload 0 6) (beAt r.payload 6 2) = true) })))) ∧
  (∀ (s : State) (r : TowRx) (d x y : Dev) (key : BitVec 256) (b : BulkRx), s.dev.towAccept r 7 = (d, true) → d.sec.fabricKey = some key →
    y = d.cipherUse 2 r.link r.payload.length (d.clk r.now) true →
    b = (y.tow.bulk.find? (fun b => b.src == r.src && b.object == beAt r.payload 0 6)).getD {
      src := r.src, object := beAt r.payload 0 6, consumer := beAt r.payload 8 1, next := 0, last := 0, void := false, released := [] } →
    x = { y with tow := { y.tow with
      bulk := if (y.tow.bulk.find? (fun b => b.src == r.src && b.object == beAt r.payload 0 6)).isNone = true then y.tow.bulk ++ [b] else y.tow.bulk } } →
    b.void = false → b.complete = false →
    gcmOpen key.toNat (bulkIv d.sec.fabricSalt r.src (beAt r.payload 0 6) (beAt r.payload 6 2)) (r.payload.take 16)
      ((r.payload.drop 16).take ((r.payload.drop 16).length - 16)) (BitVec.ofNat 128 (ofBE ((r.payload.drop 16).drop ((r.payload.drop 16).length - 16)))) = none →
    exec (.bulkSegmentRx r) s = .next (s.withDev (
      if b.released.isEmpty = true then (x.draw.2.raiseFirst 0x2C4 (le 2 (x.draw.1 % 2 ^ 16))).modBulk r.src (beAt r.payload 0 6) (fun y => { y with last := (x.draw.2.raiseFirst 0x2C4 (le 2 (x.draw.1 % 2 ^ 16))).clk r.now })
      else (x.draw.2.raiseFirst 0x2C4 (le 2 (x.draw.1 % 2 ^ 16))).voidObject b 1))) ∧
  (∀ (s : State) (b : BulkRx) (src object now : Nat), s.dev.tow.bulk.find? (fun b => b.src == src && b.object == object) = some b → b.void = false → b.complete = false →
    b.last + 10 * clocksPerMs ≤ s.dev.clk now →
    exec (.bulkSegmentTimeout src object now) s = .next (s.withDev (s.dev.voidObject b 2))) ∧
  (∀ (s : State) (r : TowRx) (d : Dev), s.dev.towAccept r 8 = (d, true) →
    exec (.voidRx r) s = .next (s.withDev { d with tow := { d.tow with voided := d.tow.voided ++ [(r.src, beAt r.payload 0 8)] } })) ∧
  (∀ (s : State) (r : TowRx) (d : Dev), s.dev.towAccept r 9 = (d, true) →
    exec (.mgmtUnitRx r) s = .next (s.withDev { d with tow := { d.tow with mgmt := d.tow.mgmt ++ [(r.src, r.payload)] } }))

/-- Training, its time-out with backoff and dormancy, loss of a link, HELLO and LSA sending and receiving, the expiry of LSAs, the recomputation of
routes, credit and the egress of a link do what their rules say; an LSA that is not newer is not sent again and marks a conflict where another unit
holds its address; a disabled link is turned on by requesting its wake; FABRIC sets ALIGN and its wait; TOPOLOGY answers. (R392, R393, R396, R397,
R398, R399, R400, R401, R404, R407, R408, R409) -/
def Obligations.TowpathLinks : Prop :=
  (∀ (s : State) (ctx : Nat) (r : TowLinkReq) (l : TowLink) (x y z : Dev) (b : Bool), s.dev.served ctx 0x0A01 = true → r.link ≤ 7 → r.cost ≤ 255 → s.dev.towEnabled r.link = true →
    l = s.dev.link r.link →
    x = (if r.cost = 0 ∨ r.cost = l.cost then s.dev.begun ctx else (s.dev.begun ctx).modLink r.link (fun l => { l with cost := r.cost })) →
    y = (if r.enable = true ∧ x.tow.enabledAt.isNone = true then { x with tow := { x.tow with enabledAt := some x.now } } else x) →
    r.enable = true → l.state = .disabled → (y.modLink r.link (fun l => { l with attempt := 1 })).wakeLink r.link ctx = (z, b) →
    exec (.towpathConfigLink ctx r) s = .next (s.withDev ((if r.cost ≠ 0 ∧ r.cost ≠ l.cost ∧ l.up = true then lsaFlood 0 z else z).complete (s.dev.refOf ctx) (if b = true then .ok else .notAdmitted)))) ∧
  (∀ (s : State) (ctx : Nat) (r : TowLinkReq) (l : TowLink) (x y z : Dev) (b : Bool), s.dev.served ctx 0x0A01 = true → r.link ≤ 7 → r.cost ≤ 255 → s.dev.towEnabled r.link = true →
    l = s.dev.link r.link →
    x = (if r.cost = 0 ∨ r.cost = l.cost then s.dev.begun ctx else (s.dev.begun ctx).modLink r.link (fun l => { l with cost := r.cost })) →
    y = (if r.enable = true ∧ x.tow.enabledAt.isNone = true then { x with tow := { x.tow with enabledAt := some x.now } } else x) →
    r.enable = true → l.state = .dormant → r.retrain = true → (y.modLink r.link (fun l => { l with attempt := 1 })).wakeLink r.link ctx = (z, b) →
    exec (.towpathConfigLink ctx r) s = .next (s.withDev ((if r.cost ≠ 0 ∧ r.cost ≠ l.cost ∧ l.up = true then lsaFlood 0 z else z).complete (s.dev.refOf ctx) (if b = true then .ok else .notAdmitted)))) ∧
  (∀ (s : State) (ctx : Nat) (r : TowLinkReq) (l : TowLink) (x y z : Dev), s.dev.served ctx 0x0A01 = true → r.link ≤ 7 → r.cost ≤ 255 → s.dev.towEnabled r.link = true →
    l = s.dev.link r.link →
    x = (if r.cost = 0 ∨ r.cost = l.cost then s.dev.begun ctx else (s.dev.begun ctx).modLink r.link (fun l => { l with cost := r.cost })) →
    y = (if r.enable = true ∧ x.tow.enabledAt.isNone = true then { x with tow := { x.tow with enabledAt := some x.now } } else x) →
    r.enable = true → l.up = true → r.retrain = true → z = y.linkLost r.link 0 →
    exec (.towpathConfigLink ctx r) s = .next (s.withDev ((if r.cost ≠ 0 ∧ r.cost ≠ l.cost ∧ l.up = true then lsaFlood 0 z else z).complete (s.dev.refOf ctx) .ok))) ∧
  (∀ (s : State) (ctx : Nat) (r : TowLinkReq) (l : TowLink) (x y z : Dev), s.dev.served ctx 0x0A01 = true → r.link ≤ 7 → r.cost ≤ 255 → s.dev.towEnabled r.link = true →
    l = s.dev.link r.link →
    x = (if r.cost = 0 ∨ r.cost = l.cost then s.dev.begun ctx else (s.dev.begun ctx).modLink r.link (fun l => { l with cost := r.cost })) →
    y = (if r.enable = true ∧ x.tow.enabledAt.isNone = true then { x with tow := { x.tow with enabledAt := some x.now } } else x) →
    r.enable = true → l.state = .training ∨ l.state = .backoff → r.retrain = true → z = y.modLink r.link (fun l => { l with state := .training, since := y.clk 0, attempt := 1, seenLanes := [], ackLanes := [], ack := false }) →
    exec (.towpathConfigLink ctx r) s = .next (s.withDev ((if r.cost ≠ 0 ∧ r.cost ≠ l.cost ∧ l.up = true then lsaFlood 0 z else z).complete (s.dev.refOf ctx) .ok))) ∧
  (∀ (s : State) (ctx : Nat) (r : TowLinkReq) (l : TowLink) (x y z : Dev), s.dev.served ctx 0x0A01 = true → r.link ≤ 7 → r.cost ≤ 255 → s.dev.towEnabled r.link = true →
    l = s.dev.link r.link →
    x = (if r.cost = 0 ∨ r.cost = l.cost then s.dev.begun ctx else (s.dev.begun ctx).modLink r.link (fun l => { l with cost := r.cost })) →
    y = (if r.enable = true ∧ x.tow.enabledAt.isNone = true then { x with tow := { x.tow with enabledAt := some x.now } } else x) →
    r.enable = true → l.state ≠ .disabled → r.retrain = false → z = y →
    exec (.towpathConfigLink ctx r) s = .next (s.withDev ((if r.cost ≠ 0 ∧ r.cost ≠ l.cost ∧ l.up = true then lsaFlood 0 z else z).complete (s.dev.refOf ctx) .ok))) ∧
  (∀ (s : State) (ctx : Nat) (r : TowLinkReq) (l : TowLink) (x y z : Dev) (v : Dev), s.dev.served ctx 0x0A01 = true → r.link ≤ 7 → r.cost ≤ 255 → s.dev.towEnabled r.link = true →
    l = s.dev.link r.link →
    x = (if r.cost = 0 ∨ r.cost = l.cost then s.dev.begun ctx else (s.dev.begun ctx).modLink r.link (fun l => { l with cost := r.cost })) →
    y = (if r.enable = true ∧ x.tow.enabledAt.isNone = true then { x with tow := { x.tow with enabledAt := some x.now } } else x) →
    r.enable = false → l.state ≠ .disabled ∨ l.wakeReq = true →
    v = ((({ y with tow := { y.tow with quieted := y.tow.quieted.filter (· != r.link) } } : Dev).withdrawOp (fun o => o = .wakeTowpath r.link)).endOp
      (fun o => o = .wakeTowpath r.link)).modLink r.link (fun l => { l with state := .disabled, wakeReq := false, attempt := 1 }) →
    z = (if l.up = true then v.linkDown r.link 0 else v) →
    exec (.towpathConfigLink ctx r) s = .next (s.withDev ((if r.cost ≠ 0 ∧ r.cost ≠ l.cost ∧ l.up = true then lsaFlood 0 z else z).complete (s.dev.refOf ctx) .ok))) ∧
  (∀ (s : State) (ctx : Nat) (r : TowFabricReq) (x : Dev), s.dev.served ctx 0x0A01 = true → r.wait ≤ 10000 → (s.dev.clock.everAttached = true → r.align = s.dev.tow.align) →
    (r.rejoin = true → tget s.dev.tow.lsas s.dev.dev.devAddr = none) →
    x = { s.dev.begun ctx with tow := { s.dev.tow with align := r.align, alignWait := r.wait } } →
    exec (.towpathConfigFabric ctx r) s = .next (s.withDev ((if r.rejoin = true ∧ x.tow.isolated = true then
      lsaFlood 0 { x with tow := { x.tow with isolated := false } } else x).complete (s.dev.refOf ctx) .ok))) ∧
  (∀ (s : State) (ctx : Nat), s.dev.served ctx 0x0A02 = true → exec (.towpathTopologyLinks ctx) s = .next (s.answered ctx .ok (s.dev.tow.links.flatMap (fun l =>
    le 1 l.state.code ++ le 1 (l.peerDev.getD 0xFF) ++ le 1 l.peerLink ++ le 1 l.attempt ++ leInt 4 l.delay ++ leInt 4 l.thetaPs ++ le 4 0)))) ∧
  (∀ (s : State) (ctx : Nat), s.dev.served ctx 0x0A02 = true → exec (.towpathTopologyRoutes ctx) s =
    .next (s.answered ctx .ok ((List.range 64).flatMap (fun x => (tget s.dev.tow.routes x).elim (le 1 0xFF ++ le 1 0xFF ++ le 1 0 ++ le 1 0)
      (fun r => le 1 r.nh0 ++ le 1 (r.nh1.getD 0xFF) ++ le 1 r.dist ++ le 1 1))))) ∧
  (∀ (s : State) (ctx : Nat), s.dev.served ctx 0x0A02 = true → exec (.towpathTopologyDevices ctx) s = .next (s.answered ctx .ok
    (le 1 s.dev.dev.devAddr ++ le 1 (s.dev.tickRef.getD 0xFF) ++ le 1 (b2n s.dev.tow.isolated + 2 * b2n s.dev.tow.aligned) ++ le 1 0 ++ le 4 0 ++
      le 8 (devMask (fun x => (tget s.dev.tow.routes x).isSome)) ++ le 8 (devMask (fun x => x != s.dev.dev.devAddr && s.dev.tickLocked x)) ++
      le 8 (devMask (fun x => s.dev.tow.conflicts.contains x))))) ∧
  (∀ (s : State) (r : TrainRx) (u : Bytes) (seen acks : List Nat) (ack : Bool) (x : Dev), r.link < 8 → (s.dev.link r.link).state = .training → r.bits.length = 128 → u = packBits r.bits →
    beAt u 0 1 = 0xA5 → beAt u 14 2 = crc16 (u.take 14) →
    seen = (if (s.dev.link r.link).seenLanes.contains r.lane = true then (s.dev.link r.link).seenLanes else r.lane :: (s.dev.link r.link).seenLanes) →
    ack = ((s.dev.link r.link).ack || (r.locked && decide (r.skew ≤ 64) && seen.contains 0 && seen.contains 1)) →
    acks = (if ack = true ∧ beAt u 4 1 = 1 ∧ (s.dev.link r.link).ackLanes.contains r.lane = false then r.lane :: (s.dev.link r.link).ackLanes
      else (s.dev.link r.link).ackLanes) →
    x = s.dev.modLink r.link (fun l => { l with
      seenLanes := seen, ack, ackLanes := acks, peerLink := beAt u 2 1, peerDev := some (beAt u 3 1), peerUnit := beAt u 6 8 }) →
    (acks.contains 0 && acks.contains 1) = false → exec (.trainUnitRx r) s = .next (s.withDev x)) ∧
  (∀ (s : State) (r : TrainRx) (u : Bytes) (seen acks : List Nat) (ack : Bool) (x y : Dev), r.link < 8 → (s.dev.link r.link).state = .training → r.bits.length = 128 → u = packBits r.bits →
    beAt u 0 1 = 0xA5 → beAt u 14 2 = crc16 (u.take 14) →
    seen = (if (s.dev.link r.link).seenLanes.contains r.lane = true then (s.dev.link r.link).seenLanes else r.lane :: (s.dev.link r.link).seenLanes) →
    ack = ((s.dev.link r.link).ack || (r.locked && decide (r.skew ≤ 64) && seen.contains 0 && seen.contains 1)) →
    acks = (if ack = true ∧ beAt u 4 1 = 1 ∧ (s.dev.link r.link).ackLanes.contains r.lane = false then r.lane :: (s.dev.link r.link).ackLanes
      else (s.dev.link r.link).ackLanes) →
    x = s.dev.modLink r.link (fun l => { l with
      seenLanes := seen, ack, ackLanes := acks, peerLink := beAt u 2 1, peerDev := some (beAt u 3 1), peerUnit := beAt u 6 8 }) →
    acks.contains 0 = true → acks.contains 1 = true →
    y = x.modLink r.link (fun l => { l with
      state := .up, profiled := false, lastHello := x.clk r.now, lseqRx := [none, none, none, none, none], echo := none, theta := [],
      limits := [0, 0, 0, 0, 0], sent := [0, 0, 0, 0, 0], freed := [0, 0, 0, 0, 0], advert := bufferBlocks,
      tx := { l.tx with odd := false, w0 := [], w1 := [] } }) →
    exec (.trainUnitRx r) s = .next (s.withDev (lsaFlood r.now ((({ y with
      tow := { y.tow with firstUp := some (y.tow.firstUp.getD (y.clk r.now)) } } : Dev).endOp (fun o => o = HeavyOp.wakeTowpath r.link)).sendOn r.link 3 [])))) ∧
  (∀ (s : State) (k now a : Nat) (st : LinkState) (x : Dev), (s.dev.link k).state = .training → (s.dev.link k).since + 100 * clocksPerMs ≤ s.dev.clk now →
    a = (s.dev.link k).attempt + 1 → st = (if a = 9 then .dormant else .backoff) →
    x = ((s.dev.modLink k (fun l => { l with state := st, attempt := a, since := s.dev.clk now, seenLanes := [], ackLanes := [], ack := false })).endOp
      (fun o => o = HeavyOp.wakeTowpath k)).raise (0x240 + 4 * k) (le 1 st.code) →
    exec (.trainingTimeout k now) s = .next (s.withDev (if a = 9 then x.raise (0x241 + 4 * k) else x))) ∧
  (∀ (s : State) (k now : Nat), (s.dev.link k).state = .backoff → (s.dev.link k).since + 2 ^ ((s.dev.link k).attempt - 2) * 1000 * clocksPerMs ≤ s.dev.clk now →
    exec (.backoffExpiry k now) s = .next (s.withDev (s.dev.modLink k (fun l => { l with state := .training, since := s.dev.clk now })))) ∧
  (∀ (s : State) (k : Nat), (s.dev.link k).state = .dormant → exec (.dormantWake k) s = .next (s.withDev (s.dev.wakeLink k 9).1)) ∧
  (∀ (d : Dev) (k i : Nat), (d.link k).wakeReq = false → d.sluice.fifo.length < 1024 →
    d.sluice.base + d.sluice.reserve + HeavyOp.cost (.wakeTowpath k) ≤ d.sluice.budget →
    d.wakeLink k i = (({ d with sluice := { d.sluice with
      fifo := d.sluice.fifo ++ [{ op := .wakeTowpath k, index := i, since := d.clock.cycle, ref := none, reported := false }] } } : Dev).modLink k
        (fun l => { l with wakeReq := true }), true)) ∧
  (∀ (s : State) (k now : Nat), (s.dev.link k).up = true → (s.dev.link k).lastHello + 4 * clocksPerMs ≤ s.dev.clk now →
    exec (.helloTimeout k now) s = .next (s.withDev (s.dev.linkLost k now))) ∧
  (∀ (s : State) (k now : Nat), (s.dev.link k).up = true → exec (.blockLockLoss k now) s = .next (s.withDev (s.dev.linkLost k now))) ∧
  (∀ s : State, exec .helloSend s = .next (s.withDev ((List.range 8).foldl (fun d k => if (d.link k).up then d.sendOn k 3 [] else d) s.dev))) ∧
  (∀ (s : State) (r : TowRx) (d x : Dev) (p : Bytes) (echoed : Bool) (t1 t2 t3 t4 delay th : Int), s.dev.towAccept r 3 = (d, true) → p = r.payload →
    echoed = decide (beAt p 36 6 ≠ 0 ∨ beAt p 42 4 ≠ 0) → t1 = psOf (beAt p 26 6) (beAt p 32 4) → t2 = psOf (beAt p 36 6) (beAt p 42 4) →
    t3 = psOf (beAt p 16 6) (beAt p 22 4) → t4 = psOf d.now r.now → delay = ((t4 - t1) - (t3 - t2)) / 2 → th = ((t2 - t1) - (t4 - t3)) / 2 →
    x = d.modLink r.link (fun l => { l with
      lastHello := d.clk r.now, peerDev := some (beAt p 0 1), peerLink := beAt p 1 1, peerIso := bitOf (beAt p 2 1) 0,
      peerFixed := bitOf (beAt p 2 1) 1, peerUnit := beAt p 4 8, peerAge := beAt p 12 4, peerCycle := beAt p 16 6,
      echo := some (beAt p 16 6, beAt p 22 4, d.now, r.now), delay := if echoed = true then delay else l.delay,
      thetaPs := if echoed = true then th else l.thetaPs, theta := if echoed = true then (th :: l.theta).take 1000 else l.theta }) →
    exec (.helloRx r) s = .next (s.withDev ((x.modLink r.link (fun l => { l with
      locked := (x.link r.link).refCommon && decide ((x.link r.link).thetaPs.natAbs ≤ 32000) })).lockCheck))) ∧
  (∀ (s : State) (now : Nat), s.dev.tow.isolated = false → s.dev.host.idle = false → s.dev.coreHalted 0 = false →
    s.dev.tow.lsaSent + 1000 * clocksPerMs ≤ s.dev.clk now →
    ∃ d : Dev, d = { s.dev with tow := { s.dev.tow with ownSeq := (s.dev.tow.ownSeq + 1) % 65536, lsaSent := s.dev.clk now } } ∧
      exec (.lsaFlood now) s = .next (s.withDev ((List.range 8).foldl (fun x k => if (x.link k).up then x.sendOn k 4 (d.lsaPayload now ((s.dev.tow.ownSeq + 1) % 65536)) else x) d))) ∧
  (∀ (s : State) (r : TowRx) (d y : Dev) (dev : Nat) (x : Lsa), s.dev.towAccept r 4 = (d, true) → dev = beAt r.payload 0 1 → dev ≠ d.dev.devAddr → d.tow.isolated = false →
    x = {
      flags := beAt r.payload 1 1, seq := beAt r.payload 2 2, unitId := beAt r.payload 4 8, ageMs := beAt r.payload 12 4,
      entries := (List.range 8).map (fun i => (beAt r.payload (16 + 2 * i) 1, beAt r.payload (17 + 2 * i) 1)), at_ := d.clk r.now } →
    (∀ o, tget d.tow.lsas dev = some o → newer x.seq o.seq = true) →
    y = { d with tow := { d.tow with
      lsas := tset d.tow.lsas dev x,
      conflicts := if (∃ o, tget d.tow.lsas dev = some o ∧ o.unitId ≠ x.unitId) ∧ d.tow.conflicts.contains dev = false then dev :: d.tow.conflicts else d.tow.conflicts } } →
    exec (.lsaRx r) s = .next (s.withDev ((List.range 8).foldl (fun d k => if k ≠ r.link ∧ (d.link k).up = true then d.putOn k
      { dst := 0, src := r.src, typ := 4, hops := r.hops - 1, cls := none, payload := r.payload } else d) y))) ∧
  (∀ (s : State) (r : TowRx) (d : Dev) (dev : Nat) (o : Lsa), s.dev.towAccept r 4 = (d, true) → dev = beAt r.payload 0 1 → dev ≠ d.dev.devAddr → d.tow.isolated = false →
    tget d.tow.lsas dev = some o → newer (beAt r.payload 2 2) o.seq = false →
    exec (.lsaRx r) s = .next (s.withDev { d with tow := { d.tow with
      conflicts := if o.unitId ≠ beAt r.payload 4 8 ∧ d.tow.conflicts.contains dev = false then dev :: d.tow.conflicts else d.tow.conflicts } })) ∧
  (∀ (s : State) (now : Nat), exec (.lsaExpiry now) s = .next (s.withDev (Dev.lockCheck ((s.dev.tow.lsas.filter (fun e =>
      decide (e.2.at_ + 3500 * clocksPerMs ≤ s.dev.clk now))).foldl (fun d e =>
        if (tget d.tow.routes e.1).isSome = true then
          Dev.raise (Dev.raise { d with tow := { d.tow with lsas := tdel d.tow.lsas e.1, routes := tdel d.tow.routes e.1, conflicts := d.tow.conflicts.filter (· != e.1) } }
            0x261) 0x262 (le 1 e.1) 0 true
        else { d with tow := { d.tow with
          lsas := tdel d.tow.lsas e.1, routes := tdel d.tow.routes e.1, conflicts := d.tow.conflicts.filter (· != e.1) } }) s.dev)))) ∧
  (∀ s : State, ∃ d : Dev, exec .routeRecompute s = .next (s.withDev (d.syncDrr 0 isTowPoint)) ∧ d.tow.routes =
    (List.range 64).filterMap (fun x => if x = s.dev.dev.devAddr then none else
      (s.dev.routeTo s.dev.edges (fun n => tgetD ((List.range 64).map (fun m => (m, distances s.dev.edges m))) n []) x).map (fun r => (x, r)))) ∧
  (∀ (s : State) (k cls limit : Nat), k < 8 → (s.dev.link k).up = true →
    exec (.creditAdvertiseRx k cls limit) s = .next (s.withDev (s.dev.modLink k (fun l => { l with limits := lset l.limits cls (limit % 65536) })
      |>.syncDrr 0 isTowPoint))) ∧
  (∀ (s : State) (k now c q : Nat) (u v : TowUnit), (s.dev.link k).up = true → (s.dev.link k).pick s.dev.now = some u → c = linkClass u.typ → q = lget (s.dev.link k).lseqTx c 0 →
    v = (if u.typ = 3 then { u with payload := s.dev.helloPayload k now } else u) →
    exec (.towpathLinkEgressSlot k now) s = .next (s.withDev ((((s.dev.count 17 .towTxUnits k).count 17 .towTxBytes k (v.payload.length + 20)).modLink k (fun l => { l with
        txq := l.txq.erase u, lseqTx := lset l.lseqTx c ((q + 1) % 2 ^ 24), sent := lset l.sent c ((lget l.sent c 0 + v.blocks) % 65536),
        wire := bytesBits (v.bytes q), tx := l.tx.slot (Config.idleBlocks k q now) (v.bytes q) })).syncDrr now isTowPoint)))

/-- A configuration in range waits for the boundary, as a software trigger does while the recorder runs and STORE_FULL does not hold; LIST answers the
entries from an id on; KEEP and UNKEEP mark an entry; DELETE removes it with its slots; READ_PILE writes the pile to host memory and completes. (R426,
R427, R428, R429, 17_recorder.md) -/
def Obligations.RecorderCommands : Prop :=
  (∀ (s : State) (ctx : Nat) (r : RecGlobalReq), s.dev.served ctx 0x0B01 = true → (s.dev.recd.set.run = true → r.ring = s.dev.recd.set.ring) → r.ring ≤ 2048 →
    r.ring % 64 = 0 → r.preMs ≤ 10000 → 1 ≤ r.postMs → r.postMs ≤ 60000 → r.postMs ≤ r.maxMs → r.maxMs ≤ 600000 →
    exec (.recorderConfigGlobal ctx r) s = .next (s.withDev ((s.dev.begun ctx).recPend (.global (s.dev.refOf ctx) r)))) ∧
  (∀ (d : Dev) (ref : CmdRef) (r : RecGlobalReq), recGlobalBad d r = none →
    d.applyRec (.global ref r) = ((d.setRun { r with tevMask := r.tevMask % 16 }).resized).complete ref .ok (recResp ((d.setRun { r with tevMask := r.tevMask % 16 }).resized))) ∧
  (∀ (s : State) (ctx : Nat) (r : RecStreamReq), s.dev.served ctx 0x0B01 = true → r.stream ≤ 255 → r.appid ≤ 65535 → r.source = 0xFFFF ∨ s.dev.sourceOk r.source = true →
    r.goose = true ∨ ((r.bounded = true → 1 ≤ r.k ∧ r.k ≤ 8) ∧ 1 ≤ r.nch ∧ r.nch ≤ 32 ∧ r.smpWrap ≤ 65535) →
    exec (.recorderConfigStream ctx r) s = .next (s.withDev ((s.dev.begun ctx).recPend (.stream (s.dev.refOf ctx) { r with k := if r.bounded = true then r.k else 1 })))) ∧
  (∀ (d : Dev) (ref : CmdRef) (r : RecStreamReq), d.applyRec (.stream ref r) =
    ((d.closeBlock r.stream 0).modRec (fun x => { x with streams := tset x.streams r.stream (Stream.fresh r) })).complete ref .ok) ∧
  (∀ (s : State) (ctx : Nat) (r : RecRuleReq), s.dev.served ctx 0x0B01 = true → r.rule ≤ 63 → r.cmp ≤ 2 → r.stream ≤ 255 → r.channel ≤ 31 → 1 ≤ r.hold → r.hold ≤ 255 →
    -2147483648 ≤ r.level → r.level ≤ 2147483647 → (s.dev.stream r.stream).elim false (fun x => x.set.goose) = false →
    exec (.recorderConfigRule ctx r) s = .next (s.withDev ((s.dev.begun ctx).recPend (.rule (s.dev.refOf ctx) r)))) ∧
  (∀ (s : State) (ctx : Nat) (r : RecStoreReq), s.dev.served ctx 0x0B01 = true → s.dev.recd.set.run = false → r.nsids ≠ [] → r.nsids.length ≤ 4 →
    (∀ n ∈ r.nsids, n ≠ 0 ∧ n < 2 ^ 32) → r.absent = false → (∀ n ∈ r.lba, n = 512 ∨ n = 4096) → r.metadata = false →
    exec (.recorderConfigStore ctx r) s = .next (s.withDev ((s.dev.begun ctx).recPend (.store (s.dev.refOf ctx) r)))) ∧
  (∀ (d x y : Dev) (ref : CmdRef) (r : RecStoreReq), recStoreBad d r = none → x = d.modRec (fun x => { x with nsids := r.nsids, storeSlots := Nat.min r.slots (2 ^ 27) }) →
    y = (if r.format = true then x.modRec (fun x => { x with
      dir := [], store := [], nvme := x.nvme ++ [.deallocate (tkeys x.store)], storeNext := 64, nextId := 1, full := false }) else x) →
    d.applyRec (.store ref r) = y.complete ref .ok (recResp y)) ∧
  (∀ (s : State) (ctx tag : Nat), s.dev.served ctx 0x0B02 = true → s.dev.recd.set.run = true → s.dev.recd.full = false →
    exec (.recorderTrigger ctx tag) s = .next (s.withDev ((s.dev.begun ctx).recPend (.trigger (s.dev.refOf ctx) tag)))) ∧
  (∀ (d : Dev) (ref : CmdRef) (tag : Nat), d.recd.set.run = true → d.recd.full = false →
    d.applyRec (.trigger ref tag) = (d.trigger (d.stamp 0) 0 0 tag 0).2.complete ref .ok (le 8 (d.trigger (d.stamp 0) 0 0 tag 0).1)) ∧
  (∀ (s : State) (ctx id count : Nat), s.dev.served ctx 0x0B03 = true → 1 ≤ count → count ≤ 32 →
    ∃ l, l = ((s.dev.recd.listing.filter (fun e => decide (id ≤ e.id))).take count) ∧
      exec (.recorderIndexList ctx id count) s = .next (s.answered ctx .ok (le 4 l.length ++ le 4 0 ++ l.flatMap DirEnt.bytes))) ∧
  (∀ (s : State) (ctx id : Nat), s.dev.served ctx 0x0B03 = true → s.dev.recd.dir.any (fun e => e.id == id) = true →
    exec (.recorderIndexKeep ctx id) s = .next (s.done ctx (fun d => d.modRec (fun r =>
      ({ r with dir := r.dir.map (fun (e : DirEnt) => if e.id = id then { e with keep := true } else e) } : Recorder).refull)) [])) ∧
  (∀ (s : State) (ctx id : Nat), s.dev.served ctx 0x0B03 = true → s.dev.recd.dir.any (fun e => e.id == id) = true →
    exec (.recorderIndexUnkeep ctx id) s = .next (s.done ctx (fun d => d.modRec (fun r =>
      ({ r with dir := r.dir.map (fun (e : DirEnt) => if e.id = id then { e with keep := false } else e) } : Recorder).refull)) [])) ∧
  (∀ (s : State) (ctx id : Nat), s.dev.served ctx 0x0B03 = true → s.dev.recd.captures.any (fun c => c.ent.id == id) = false → s.dev.recd.dir.any (fun e => e.id == id) = true →
    exec (.recorderIndexDelete ctx id) s = .next (s.done ctx (fun d => d.modRec (fun r => (r.delete id).refull)) [])) ∧
  (∀ (s : State) (ctx id pile addr slot : Nat) (e : DirEnt) (b : Bytes), s.dev.served ctx 0x0B03 = true →
    (s.dev.recd.dir ++ s.dev.recd.captures.map (·.ent)).find? (fun e => e.id == id) = some e → pile < e.piles →
    (e.slots s.dev.recd.area)[pile]? = some slot → s.dev.recd.slotBytes slot = some b →
    exec (.recorderIndexReadPile ctx id pile addr) s = .next (s.withDev ((s.dev.begun ctx).modRec (fun r => { r with nvme := r.nvme ++ [.read (s.dev.refOf ctx) addr b] }))))

/-- A block whose first ASDU is 2 ms old is closed; a pile open for 16 ms is closed; a capture whose end is reached is ended after everything gathered
is closed; a completed NVMe command advances the store of a capture from the piles over the flushes and the directory entry to its end, and a failed
one is counted, reported and retried once, after which the capture fails; in a full directory the oldest capture without KEEP makes room; a Read or
deallocate in flight leaves the queue, and a Read puts its pile into host memory and ends READ_PILE; every failed command of any kind is counted and
reported; a change of the NVMe link is reported. (R414, R418, R423, R424, R430, 17_recorder.md) -/
def Obligations.RecorderEvents : Prop :=
  (∀ (s : State) (i now : Nat) (x : Stream) (a : Asdu) (l : List Asdu), s.dev.stream i = some x → x.block = a :: l → a.st.clk + 16 * Config.clocksPerTick ≤ (s.dev.stamp now).clk →
    exec (.foldBlockTimeout i now) s = .next (s.withDev (s.dev.closeBlock i now))) ∧
  (∀ (s : State) (now : Nat) (p : OpenPile), s.dev.recd.pile = some p → p.opened + 128 * Config.clocksPerTick ≤ (s.dev.stamp now).clk →
    exec (.pileTimeout now) s = .next (s.withDev (s.dev.closePile false now))) ∧
  (∀ (s : State) (id now : Nat) (c : Capture) (d : Dev), s.dev.recd.captures.find? (fun c => c.ent.id == id && !c.ended) = some c → c.e ≤ (s.dev.stamp now).clk →
    d = (if s.dev.recd.pile = none ∧ s.dev.openBlocks = [] then s.dev else (s.dev.closePile false now).finalize false now) →
    exec (.captureEnd id now) s = .next (s.withDev (d.modRec (fun r =>
      { r with captures := d.recd.captures.map (fun (x : Capture) => if x.ent.id = id then { x with ended := true } else x) })).pump)) ∧
  (∀ (s : State) (c : Capture) (r : NvmeDone) (w : NvmeWrite) (d : Dev), r.kind = 0 → s.dev.recd.active = some c → r.ok = true → c.phase = .piles → c.writing[r.cmd]? = some w →
    d = s.dev.modRec (fun x => { (x.modActive (fun y => { y with
      pins := y.pins.filter (· != w.pin), writing := y.writing.eraseIdx r.cmd, ent := { y.ent with piles := y.ent.piles + 1 } })) with
        store := tset x.store w.slot ((s.dev.recd.ring.find? (fun p => p.slot == w.pin)).elim [] (·.bytes)) }) →
    exec (.nvmeCompletion r) s = .next (s.withDev (d.countDev .recPilesStored).pump)) ∧
  (∀ (s : State) (c : Capture) (r : NvmeDone), r.kind = 0 → s.dev.recd.active = some c → r.ok = true → c.phase = .flush1 →
    exec (.nvmeCompletion r) s = .next (s.withDev (s.dev.modRec (·.modActive (fun c =>
      { c with phase := .entry, retried := false, ent := { c.ent with endCycle := c.e / Config.clocksPerTick } }))))) ∧
  (∀ (s : State) (c : Capture) (r : NvmeDone), r.kind = 0 → s.dev.recd.active = some c → r.ok = true → c.phase = .entry →
    exec (.nvmeCompletion r) s = .next (s.withDev (s.dev.modRec (·.modActive (fun c => { c with phase := .flush2, retried := false }))))) ∧
  (∀ (s : State) (c : Capture) (r : NvmeDone), r.kind = 0 → s.dev.recd.active = some c → r.ok = true → c.phase = .flush2 → s.dev.recd.dir.length < dirEntries →
    exec (.nvmeCompletion r) s = .next (s.withDev ((((s.dev.modRec (fun x => { x with dir := x.dir ++ [c.ent], captures := x.captures.drop 1 })).raise 0x381
      (le 8 c.ent.id ++ le 4 c.ent.piles ++ le 2 c.ent.flags)).endOp (fun o => o = HeavyOp.recorderFlush c.ent.id)).pump))) ∧
  (∀ (s : State) (c : Capture) (r : NvmeDone) (e : DirEnt), r.kind = 0 → s.dev.recd.active = some c → r.ok = true → c.phase = .flush2 →
    dirEntries ≤ s.dev.recd.dir.length → s.dev.recd.dir.find? (fun e => !e.keep) = some e →
    exec (.nvmeCompletion r) s = .next (s.withDev ((((((s.dev.modRec (fun x => x.delete e.id)).countDev .recEvicted).modRec (fun x =>
      { x with dir := x.dir ++ [c.ent], captures := x.captures.drop 1 })).raise 0x381
      (le 8 c.ent.id ++ le 4 c.ent.piles ++ le 2 c.ent.flags)).endOp (fun o => o = HeavyOp.recorderFlush c.ent.id)).pump))) ∧
  (∀ (s : State) (r : NvmeDone) (ref : CmdRef) (addr : Nat) (pile : Bytes), r.kind = 1 → s.dev.host.d3 = false →
    r.cmd < Config.nvmeSlots - s.dev.recd.active.elim 0 (fun c => c.writing.length) → s.dev.recd.nvme[r.cmd]? = some (.read ref addr pile) →
    exec (.nvmeCompletion r) s = .next (if r.ok = true
      then { s with
        dev := ((s.dev.modRec (fun x => { x with nvme := x.nvme.eraseIdx r.cmd })).pump).complete ref .ok
        hostMem := memWrite s.hostMem addr pile }
      else s.withDev ((((s.dev.nvmeError r).modRec (fun x => { x with nvme := x.nvme.eraseIdx r.cmd })).pump).complete ref .invalid))) ∧
  (∀ (s : State) (r : NvmeDone) (l : List Nat), r.kind = 1 →
    r.cmd < Config.nvmeSlots - s.dev.recd.active.elim 0 (fun c => c.writing.length) → s.dev.recd.nvme[r.cmd]? = some (.deallocate l) →
    exec (.nvmeCompletion r) s = .next (s.withDev (((if r.ok = true then s.dev else s.dev.nvmeError r).modRec (fun x =>
      { x with nvme := x.nvme.eraseIdx r.cmd })).pump))) ∧
  (∀ (s : State) (r : NvmeDone), 2 ≤ r.kind →
    exec (.nvmeCompletion r) s = .next (s.withDev (if r.ok = true then s.dev else (s.dev.countDev .recNvmeErr).raise 0x386 (le 1 r.opcode ++ le 2 r.status)))) ∧
  (∀ (s : State) (c : Capture) (r : NvmeDone) (w : NvmeWrite), r.kind = 0 → s.dev.recd.active = some c → r.ok = false → c.phase = .piles → c.writing[r.cmd]? = some w → w.retried = false →
    exec (.nvmeCompletion r) s = .next (s.withDev ((s.dev.nvmeError r).modRec
      (·.modActive (fun c => if c.phase = .piles then { c with writing := c.writing.modify r.cmd (fun w => { w with retried := true }) } else { c with retried := true }))))) ∧
  (∀ (s : State) (c : Capture) (r : NvmeDone), r.kind = 0 → s.dev.recd.active = some c → r.ok = false → c.phase ≠ .piles → c.retried = true →
    exec (.nvmeCompletion r) s = .next (s.withDev ((s.dev.nvmeError r).captureFail c.ent.id))) ∧
  (∀ (s : State) (up : Bool), s.dev.recd.link ≠ up →
    exec (.nvmeLinkChange up) s = .next (s.withDev ((s.dev.modRec (fun r => { r with link := up })).raise 0x387 (le 1 (b2n up)))))

/-- Valid requests of COUNTER_DUMP_SET, PROGRAM, CLEAR and QUEUE_BLOCK wait for a boundary; WINDOW selects at once; CATALOG answers the statistics of
a group; PM_READ answers bins and defects and CONFIG sets the bin length. (R323, R328, R475, R478, R479, R480, R481, R482, 20_counters.md) -/
def Obligations.CounterCommands : Prop :=
  (∀ (s : State) (ctx : Nat) (r : DumpReq), s.dev.served ctx 0x0D01 = true → dumpReqValid r = true → exec (.counterDumpSet ctx r) s = .next (s.withDev
    { s.dev.begun ctx with ctr := { s.dev.ctr with dumpPend := s.dev.ctr.dumpPend ++ [(s.dev.refOf ctx,
      { enable := r.enable, slots := r.slots, period := r.period, base := r.base, slotSize := r.slotSize, select := r.select })] } })) ∧
  (∀ (s : State) (ctx : Nat) (r : ProgramReq), s.dev.served ctx 0x0D02 = true → programReqValid r = true → exec (.counterSelectProgram ctx r) s = .next (s.withDev
    { s.dev.begun ctx with ctr := { s.dev.ctr with reprograms := s.dev.ctr.reprograms ++ [{ ref := s.dev.refOf ctx, counter := r.counter, prog :=
      { mode := r.mode, kind := r.kind, group := r.group, stat := r.stat, first := r.first, last := r.last, value := 0, gen := 0 } }] } })) ∧
  (∀ (s : State) (ctx : Nat) (r : ClearGroupReq), s.dev.served ctx 0x0D02 = true → r.group ≤ 21 → r.first + r.count ≤ groupSize r.group →
    exec (.counterSelectClear ctx r) s = .next (s.withDev { s.dev.begun ctx with
      ctr := { s.dev.ctr with clears := s.dev.ctr.clears ++ [.clear (s.dev.refOf ctx) r.group r.first r.count] } })) ∧
  (∀ (s : State) (ctx b : Nat), s.dev.served ctx 0x0D02 = true → b ≤ 255 →
    exec (.counterSelectQueueBlock ctx { block := b, first := 0xFFFFFFFF }) s = .next (s.withDev { s.dev.begun ctx with
      ctr := { s.dev.ctr with clears := s.dev.ctr.clears ++ [.block (s.dev.refOf ctx) b none] } })) ∧
  (∀ (s : State) (ctx : Nat) (r : QueueBlockReq), s.dev.served ctx 0x0D02 = true → r.block ≤ 255 → r.first % 64 = 0 → r.first + 64 ≤ 1048576 →
    s.dev.ctr.futureBlocks.any (fun b => b.1 != r.block && b.2 == r.first) = false →
    exec (.counterSelectQueueBlock ctx r) s = .next (s.withDev { s.dev.begun ctx with
      ctr := { s.dev.ctr with clears := s.dev.ctr.clears ++ [.block (s.dev.refOf ctx) r.block (some r.first)] } })) ∧
  (∀ (s : State) (ctx : Nat) (r : WindowReq), s.dev.served ctx 0x0D02 = true → r.window ≤ 127 → r.group ≤ 21 → r.first < groupSize r.group →
    exec (.counterSelectWindow ctx r) s = .next (s.done ctx (fun d => { d with ctr := { d.ctr with windows := tset d.ctr.windows r.window (r.group, r.first) } }) [])) ∧
  (∀ (s : State) (ctx g : Nat), s.dev.served ctx 0x0D02 = true → g ≤ 21 → exec (.counterSelectCatalog ctx g) s = .next (s.answered ctx .ok
    (le 1 (nstat g) ++ le 1 (ctrWidth g) ++ le 2 0 ++ (catalog g).flatMap (fun c => ascii 32 (statName c))))) ∧
  (∀ (s : State) (ctx : Nat) (r : PmReadReq) (terminal : Bool) (e : PmEntity), s.dev.served ctx 0x0D04 = true → r.scope = b2n terminal →
    s.dev.pmEntity terminal r.tree r.id = some e → 1 ≤ r.count → r.count ≤ 8 →
    exec (.pmReadRead ctx r) s = .next (s.answered ctx .ok (le 1 (e.records r.first r.count).length ++ le 1 (b2n e.dayBins) ++ le 2 0 ++
      le 2 (s.dev.defectsOf terminal r.tree r.id) ++ le 2 0 ++ (e.records r.first r.count).flatten))) ∧
  (∀ (s : State) (ctx : Nat) (r : PmConfigReq) (terminal : Bool), s.dev.served ctx 0x0D04 = true → r.scope = b2n terminal →
    (s.dev.pmEntity terminal r.tree r.id).isSome = true → terminal = true ∨ (∀ x, r.thresholds = some x → (thrOf x).valid = true) →
    exec (.pmReadConfig ctx r) s = .next (s.done ctx (fun d =>
      if terminal = true then d.modTermLine r.tree r.id (fun l => { l with pm := l.pm.setDay r.dayBins })
      else d.modLine r.tree (fun l => { l with
        pm := l.pm.setDay r.dayBins, thrPend := if r.thresholds.isSome = true then r.thresholds.map thrOf else l.thrPend })) []))

/-- IMAGE_OPEN waits as an offer; an agent is enabled; a good block is programmed into the other slot and counted; verification ends in READY or with
the RESULT of the check that failed; IMAGE_STATUS answers; ACTIVATE begins the pause, whose end enters TRIAL in the other slot; a pause handed back
ends with SETTINGS_INCOMPATIBLE and the response of ACTIVATE; COMMIT ends trial and session, ABORT and the deadline roll back in a second pause whose
end runs the old slot; the bitmap is made persistent after a second; an in-band frame of an agent is served. (R455, R456, R457, R458, R459, R461,
R462, R467, R468, R469, R470, 19_firmware_update.md) -/
def Obligations.ImageSessions : Prop :=
  (∀ (s : State) (ctx : Nat) (r : ImageOpenReq), s.dev.served ctx 0x0C01 = true → s.dev.upd.trial = none → s.dev.upd.session = none → 2 ≤ r.blocks → r.blocks ≤ 6144 →
    s.dev.sec.lifecycle ≠ .decommissioned → exec (.imageOpen ctx r) s = .next (s.withDev ((s.dev.begun ctx).modUpd (fun u =>
      { u with offers := u.offers ++ [{ src := 0, ref := some (s.dev.refOf ctx), blocks := r.blocks, digest := r.digest }] })))) ∧
  (∀ (s : State) (ctx : Nat) (r : ImageOpenReq) (x : Session), s.dev.served ctx 0x0C01 = true → s.dev.upd.trial = none → s.dev.upd.session = some x → x.digest ≠ r.digest →
    idleLimit < x.idle → 2 ≤ r.blocks → r.blocks ≤ 6144 → s.dev.sec.lifecycle ≠ .decommissioned →
    exec (.imageOpen ctx r) s = .next (s.withDev ((s.dev.begun ctx).endSession.modUpd (fun u =>
      { u with offers := u.offers ++ [{ src := 0, ref := some (s.dev.refOf ctx), blocks := r.blocks, digest := r.digest }] })))) ∧
  (∀ (s : State) (ctx role : Nat) (r : ImageOpenReq) (x : Session) (d : Dev), s.dev.served ctx 0x0C01 = true → s.dev.upd.trial = none → s.dev.upd.session = some x →
    x.digest = r.digest → r.blocks = x.blocks → 2 ≤ r.blocks → r.blocks ≤ 6144 → s.dev.sec.lifecycle ≠ .decommissioned → role = (if 0 = x.owner then 0 else 1) →
    d = (s.dev.begun ctx).modUpd (fun u => { u with session := some { x with
      parties := if x.parties.contains 0 = true then x.parties else 0 :: x.parties, idle := 0 } }) →
    exec (.imageOpen ctx r) s = .next (s.withDev ((d.raise 0x3C0 (le 1 0 ++ le 1 role)).complete (s.dev.refOf ctx) .ok
      (openResp d.otherSlot role x.received.length)))) ∧
  (∀ (s : State) (ctx : Nat) (r : AgentReq), s.dev.served ctx 0x0C01 = true → r.agent ≤ 3 → (r.enable = true → r.replyFlow ≤ 131071) → s.dev.sec.lifecycle ≠ .decommissioned →
    exec (.imageOpenAgent ctx r) s = .next (s.done ctx (fun d => d.modUpd (fun u =>
      { u with agents := if r.enable = true then tset u.agents r.agent (r.addr, r.replyFlow) else tdel u.agents r.agent })) [])) ∧
  (∀ (s : State) (ctx : Nat) (r : ImageBlockReq) (x y : Session), s.dev.served ctx 0x0C02 = true → s.dev.host.d3 = false → s.dev.upd.session = some x → x.parties.contains 0 = true → r.index < x.blocks →
    x.received.contains r.index = false → r.flashFails ≤ 1 → y = ({ x with idle := 0 } : Session).took r.index →
    exec (.imageBlock ctx r) s = .next (s.withDev (if blockFits r.block = true then
        ((s.dev.begun ctx).modUpd (fun u => { u.setImage s.dev.otherSlot (tset (u.image s.dev.otherSlot) r.index r.block) with session := some y })).complete
          (s.dev.refOf ctx) .ok (le 4 y.received.length ++ zeros 4)
      else (((s.dev.begun ctx).modUpd (fun u => { u with session := some { x with idle := 0 } })).countDev .updBlockCrc).complete (s.dev.refOf ctx) .invalid))) ∧
  (∀ (s : State) (ctx : Nat) (r : ImageBlockReq) (x : Session), s.dev.served ctx 0x0C02 = true → s.dev.host.d3 = false → s.dev.upd.session = some x → x.parties.contains 0 = true → r.index < x.blocks →
    blockFits r.block = true → x.received.contains r.index = true →
    exec (.imageBlock ctx r) s = .next (s.withDev (((s.dev.begun ctx).modUpd (fun u => { u with session := some { x with idle := 0 } })).complete
      (s.dev.refOf ctx) .ok (le 4 x.received.length ++ le 1 1 ++ zeros 3)))) ∧
  (∀ (s : State) (ctx : Nat) (r : ImageBlockReq) (x : Session) (d : Dev), s.dev.served ctx 0x0C02 = true → s.dev.host.d3 = false → s.dev.upd.session = some x → x.parties.contains 0 = true → r.index < x.blocks →
    blockFits r.block = true → x.received.contains r.index = false → 2 ≤ r.flashFails →
    d = ((((s.dev.begun ctx).modUpd (fun u => { u with session := some { x with idle := 0 } })).modUpd (fun u => { u with result := 10 })).endSession.raise 0x3C8
      (le 4 r.index)) →
    exec (.imageBlock ctx r) s = .next (s.withDev (d.freeStatus.2.complete (s.dev.refOf ctx) d.freeStatus.1 (le 4 x.received.length ++ zeros 4)))) ∧
  (∀ (s : State) (x : Session) (v : Option Nat), s.dev.upd.session = some x → x.state = .verifying → v = s.dev.verifyImage (s.dev.upd.image s.dev.otherSlot) x →
    exec .imageVerifyDone s = .next (s.withDev (v.elim
      ((s.dev.modUpd (fun u => { u with session := some { x with state := .ready }, result := 1 })).raise 0x3C2 (le 1 1))
      (fun e => (s.dev.modUpd (fun u => { u with result := e })).endSession.raise 0x3C2 (le 1 e))))) ∧
  (∀ (s : State) (ctx : Nat) (x : Option Session), s.dev.served ctx 0x0C03 = true → x = s.dev.upd.session → exec (.imageStatus ctx) s = .next (s.answered ctx .ok
    (le 1 s.dev.upd.stateCode ++ le 1 s.dev.upd.result ++ le 1 s.dev.dev.slot ++ le 1 s.dev.upd.bootSlot ++ le 1 (x.elim 0xFF (·.owner)) ++
      le 1 (x.elim 0 (fun x => sumOf (x.parties.map (2 ^ ·)))) ++ le 2 0 ++ le 4 (x.elim 0 (·.blocks)) ++ le 4 (x.elim 0 (·.received.length)) ++
      le 4 (x.elim 0 (fun x => x.idle / (60 * Config.ticksPerSecond))) ++ le 4 (s.dev.upd.trial.elim 0 (fun p => p + trialTicks - s.dev.now)) ++
      le 4 (s.dev.slotVersion 0) ++ le 4 (s.dev.slotVersion 1) ++ be 48 (x.elim 0 (fun x => x.digest.toNat))))) ∧
  (∀ (s : State) (ctx : Nat) (x : Session), s.dev.served ctx 0x0C04 = true → s.dev.upd.trial = none → s.dev.upd.session = some x → x.state = .ready →
    (s.dev.begun ctx).activateBusy (s.dev.refOf ctx) = false →
    exec (.imageActivate ctx) s = .next (s.withDev ((s.dev.begun ctx).modUpd (fun u =>
      { u with pause := some { why := .activate (s.dev.refOf ctx), p := s.dev.now + 1, begun := false } })))) ∧
  (∀ (s : State) (ref : CmdRef) (p : Pause) (d : Dev) (now : Nat), s.dev.upd.pause = some p → p.why = .activate ref → p.begun = true →
    d = s.dev.modUpd (fun u => { u.setSettings s.dev.otherSlot (u.settings s.dev.dev.slot) with trial := some p.p }) →
    exec (.pauseEnd true now) s = s.onBoth (fun _ => takeRung (((d.runSlot s.dev.otherSlot).endPause p now).complete ref .ok
      (activateResp p.p (d.pauseUs p now) s.dev.otherSlot)))) ∧
  (∀ (s : State) (ref : CmdRef) (p : Pause) (now : Nat), s.dev.upd.pause = some p → p.why = .activate ref → p.begun = true →
    exec (.pauseEnd false now) s = s.onBoth (fun _ => takeRung ((s.dev.modUpd (fun u =>
      { u with pause := some { p with why := .handBack ref }, result := 7 })).raise 0x3C5))) ∧
  (∀ (s : State) (ctx p : Nat) (d : Dev), s.dev.served ctx 0x0C05 = true → s.dev.upd.trial = some p → s.dev.now ≤ p + trialTicks →
    d = (if s.dev.upd.session.isSome = true then
      ((s.dev.begun ctx).modUpd (fun u => { u with trial := none, bootSlot := s.dev.dev.slot, result := 1 })).endSession
      else (s.dev.begun ctx).modUpd (fun u => { u with trial := none, bootSlot := s.dev.dev.slot, result := 1 })) →
    exec (.imageCommit ctx) s = .next (s.withDev ((d.raise 0x3C6 (le 1 d.dev.slot)).complete (s.dev.refOf ctx) .ok (le 1 d.upd.bootSlot)))) ∧
  (∀ (s : State) (ctx : Nat) (x : Session), s.dev.served ctx 0x0C06 = true → s.dev.upd.session = some x →
    exec (.imageAbortSession ctx) s = .next (s.done ctx (fun d => d.endSession) [])) ∧
  (∀ (s : State) (ctx p : Nat), s.dev.served ctx 0x0C06 = true → s.dev.upd.trial = some p →
    exec (.imageAbortRollback ctx) s = .next (s.withDev ((s.dev.begun ctx).rollback 8 (some (s.dev.refOf ctx))))) ∧
  (∀ (s : State) (p : Nat), s.dev.upd.trial = some p → p + trialTicks ≤ s.dev.now → exec .trialExpiry s = .next (s.withDev (s.dev.rollback 5 none))) ∧
  (∀ (s : State) (ref : Option CmdRef) (p : Pause) (now : Nat) (d : Dev), s.dev.upd.pause = some p → p.why = .rollback ref → p.begun = true →
    d = (s.dev.runSlot s.dev.otherSlot).endPause p now →
    exec (.rollbackPauseEnd now) s = s.onBoth (fun _ => takeRung (({ d with host := { d.host with fatal := false } } : Dev).completeOpt ref .ok))) ∧
  (∀ (s : State) (ref : CmdRef) (p : Pause) (now : Nat), s.dev.upd.pause = some p → p.why = .handBack ref → p.begun = true →
    exec (.rollbackPauseEnd now) s = s.onBoth (fun _ => takeRung ((s.dev.endPause p now).answer ref .settingsIncompatible
      (activateResp p.p (s.dev.pauseUs p now) s.dev.dev.slot)))) ∧
  (∀ (s : State) (x : Session), s.dev.upd.session = some x → Config.ticksPerSecond ≤ x.idle →
    exec .bitmapPersist s = .next (s.withDev (s.dev.modUpd (fun u => { u with session := some { x with persisted := x.received } })))) ∧
  (∀ (s : State) (k : Nat) (e : Pkt) (rest : List (Nat × Pkt)) (o a fails : Nat) (v : Nat × Nat), s.dev.host.ready = true → s.dev.host.fatal = false →
    s.dev.upd.pause = none → takeFirst (fun e => e.1 == 0xFF) s.dev.cls.redirects = some ((k, e), rest) →
    afterTags e.data (e.data.length / 4 + 1) 12 = (0x88B5, o) → beAt e.data (o + 2) 2 = 0x4C01 →
    s.dev.upd.agents.find? (fun a => a.2.1 == beAt e.data 6 6) = some (a, v) → beAt e.data (o + 4) 2 ∈ [0x0C01, 0x0C02, 0x0C03, 0x0C06] →
    exec (.inbandFrameRx fails) s = .next (s.withDev (({ s.dev with cls := { s.dev.cls with redirects := rest } } : Dev).serveAgent a (beAt e.data (o + 4) 2)
      (e.data.drop (o + 6)) fails))) ∧
  (∀ (s : State) (k : Nat) (e : Pkt) (rest : List (Nat × Pkt)) (o fails : Nat), s.dev.host.ready = true → s.dev.host.fatal = false →
    s.dev.upd.pause = none → takeFirst (fun e => e.1 == 0xFF) s.dev.cls.redirects = some ((k, e), rest) →
    afterTags e.data (e.data.length / 4 + 1) 12 = (0x88B5, o) → beAt e.data (o + 2) 2 = 0x4C01 →
    (s.dev.upd.agents.find? (fun a => a.2.1 == beAt e.data 6 6) = none ∨ beAt e.data (o + 4) 2 ∉ [0x0C01, 0x0C02, 0x0C03, 0x0C06]) →
    exec (.inbandFrameRx fails) s = .next (s.withDev (({ s.dev with cls := { s.dev.cls with redirects := rest } } : Dev).raiseFirst 0x3C9
      (le 4 (beAt e.data 6 6 % 2 ^ 32))))) ∧
  (∀ (d : Dev) (a fails : Nat) (body : Bytes), 4104 ≤ body.length →
    d.serveAgent a 0x0C02 body fails = (imageBlock (a + 1) { index := leAt body 0 4, block := slice body 8 4096, flashFails := fails } d).2.2.inbandReply a 0x0C02
      (imageBlock (a + 1) { index := leAt body 0 4, block := slice body 8 4096, flashFails := fails } d).1
      (imageBlock (a + 1) { index := leAt body 0 4, block := slice body 8 4096, flashFails := fails } d).2.1) ∧
  (∀ (d : Dev) (a fails : Nat) (body : Bytes), 64 ≤ body.length → leAt body 0 1 = 0 →
    d.serveAgent a 0x0C01 body fails = imageOpen (a + 1) none { blocks := leAt body 4 4, digest := digestOf (slice body 16 48) } d) ∧
  (∀ (d : Dev) (a fails : Nat) (body : Bytes), d.serveAgent a 0x0C03 body fails = d.inbandReply a 0x0C03 .ok (imageStatusResp d)) ∧
  (∀ (d : Dev) (a fails : Nat) (body : Bytes), 1 ≤ body.length → leAt body 0 1 = 0 →
    d.serveAgent a 0x0C06 body fails = (abortSession (a + 1) d).2.inbandReply a 0x0C06 (abortSession (a + 1) d).1 []) ∧
  (∀ (d : Dev) (a fails : Nat) (body : Bytes) (x : Session), 1 ≤ body.length → leAt body 0 1 = 1 → d.upd.trial.isSome = true → d.upd.session = some x → x.owner = a + 1 →
    d.serveAgent a 0x0C06 body fails = (d.inbandReply a 0x0C06 .ok []).rollback 8 none)

/-- START of one serving target notes the push under the next PUSH_ID and queues its TSW_OFFER; STATUS answers; CANCEL tells every target, also of a
push that has ended, and ends a running push; ACTIVATE queues TSW_ACTIVATE to the complete terminals; a report of the round changes its target and
ends the push when all are complete; after the last round's time-out the push ends. (R464, R465, R471, R472, 19_firmware_update.md) -/
def Obligations.TerminalImages : Prop :=
  (∀ (s : State) (ctx : Nat) (r : PushReq) (p : Push) (d : Dev), s.dev.served ctx 0x0C07 = true → (s.dev.push r.tree).running = false → s.dev.treeUp r.tree = true → 1 ≤ r.perFrame →
    r.perFrame ≤ 8 → 1 ≤ r.rounds → r.rounds ≤ 16 → 1 ≤ r.len → r.len ≤ 65535000 →
    (∀ i ∈ pushIds r, s.dev.pushTargetOk r.tree i (lget r.reportFlows i 0) = true) →
    p = {
      id := s.dev.upd.nextPush, ref := some (s.dev.refOf ctx), state := 1, round := 1, perFrame := r.perFrame, rounds := r.rounds, len := r.len, digest := r.digest,
      image := r.image, targets := (pushIds r).map (fun i => (i, (1, List.range (ceilDiv r.len 1000)))),
      flows := (pushIds r).map (fun i => (i, lget r.reportFlows i 0)), left := List.range (ceilDiv r.len 1000), answers := [], deadline := none } →
    d = (pushIds r).foldl (fun (d : Dev) i => ((d.tree r.tree).byId i).elim d (fun x =>
        (if x.state = .dozing then d.endDoze r.tree x else d).modTree r.tree (fun y => y.queueMsg
          (lockMsg i 0x60 2 (be 2 p.id ++ be 2 (ceilDiv r.len 1000) ++ be 4 r.len ++ be 4 (lget r.reportFlows i 0) ++ be 48 r.digest.toNat) none [] .plain .other 0
            (((((if x.state = .dozing then d.endDoze r.tree x else d).tree r.tree).byId i).bind (fun y => y.doze.bind (·.endAt))).getD
              ((if x.state = .dozing then d.endDoze r.tree x else d).now + 1))))))
      ((s.dev.begun ctx).modUpd (fun u => { u with nextPush := (u.nextPush + 1) % 65536, pushes := tset u.pushes r.tree p })) →
    exec (.terminalImagePushStart ctx r) s = .next (s.withDev (if p.allDone = true then d.endPush r.tree 2 else d))) ∧
  (∀ (s : State) (ctx t : Nat), s.dev.served ctx 0x0C07 = true → s.dev.treePresent t = true → exec (.terminalImagePushStatus ctx t) s = .next (s.answered ctx .ok (s.dev.push t).resp)) ∧
  (∀ (s : State) (ctx t : Nat) (d : Dev), s.dev.served ctx 0x0C07 = true → s.dev.treePresent t = true → (s.dev.push t).running = true →
    d = ((tkeys (s.dev.push t).targets).foldl (fun (d : Dev) i => d.modTree t (fun x => x.queueMsg
      (lockMsg i 0x64 2 (be 2 (d.push t).id) none [] .plain .other 0 (d.now + 1)))) (s.dev.begun ctx)).endPush t 3 →
    exec (.terminalImagePushCancel ctx t) s = .next (s.withDev (d.complete (s.dev.refOf ctx) .ok (d.push t).resp))) ∧
  (∀ (s : State) (ctx t : Nat) (d : Dev), s.dev.served ctx 0x0C07 = true → s.dev.treePresent t = true → (s.dev.push t).running = false →
    d = (tkeys (s.dev.push t).targets).foldl (fun (d : Dev) i => d.modTree t (fun x => x.queueMsg
      (lockMsg i 0x64 2 (be 2 (d.push t).id) none [] .plain .other 0 (d.now + 1)))) (s.dev.begun ctx) →
    exec (.terminalImagePushCancel ctx t) s = .next (s.withDev (d.complete (s.dev.refOf ctx) .ok (d.push t).resp))) ∧
  (∀ (s : State) (ctx t at_ : Nat) (p : Push), s.dev.served ctx 0x0C07 = true → s.dev.treePresent t = true → p = s.dev.push t →
    exec (.terminalImagePushActivate ctx t at_) s = .next (s.withDev ((((p.targets.filter (fun x => x.2.1 == 2)).map (·.1)).foldl (fun (d : Dev) i =>
      d.modTree t (fun x => x.queueMsg (lockMsg i 0x63 2 (be 2 p.id) (some at_) [] .shared .tswActivate 0 (d.now + 1)))) (s.dev.begun ctx)).complete
        (s.dev.refOf ctx) .ok p.resp))) ∧
  (∀ (s : State) (u : PlainUnit) (rest : List PlainUnit) (p : Push) (code : Nat) (x d : Dev), takeFirst (fun u => s.dev.isReport u) s.dev.sec.released = some (u, rest) →
    s.dev.push u.tree = p → p.running = true → beAt u.frame 0 2 = p.id → beAt u.frame 2 1 = p.round → p.deadline.isSome = true → beAt u.frame 3 1 ≤ 4 →
    beAt u.frame 4 1 ≤ 64 → (tgetD p.targets u.tid (0, [])).1 ≠ 6 → code = reportCode (beAt u.frame 3 1) → x = { s.dev with sec := { s.dev.sec with released := rest } } →
    d = (x.setTarget u.tree u.tid code).modPush u.tree (fun p => { p with
      answers := u.tid :: p.answers,
      targets := tmod p.targets u.tid (fun x => (x.1, if code = 2 then [] else reportMissing u.frame p.pieces)) }) →
    exec .tswReportRx s = .next (s.withDev (if (d.push u.tree).allDone = true then d.endPush u.tree 2 else d))) ∧
  (∀ (s : State) (t x : Nat) (p : Push) (d : Dev), s.dev.push t = p → p.running = true → p.deadline = some x → x ≤ s.dev.now →
    d = ((p.targets.filter (fun x => !codeDone x.2.1 && !p.answers.contains x.1)).map (·.1)).foldl (fun (d : Dev) id => d.setTarget t id 5) s.dev →
    exec (.tswQueryTimeout t) s = .next (s.withDev (if p.rounds ≤ p.round then d.endPush t 2
      else (d.modPush t (fun p => { p with round := p.round + 1, deadline := none, left := p.lacking })).pushQuery t)))

/-- Every operation toggles TCK. DBG_AUTH without an opening issues a challenge. With debug open EXTEST drives the preload in QUIET, and is BYPASS,
the cells undriven, elsewhere; SAMPLE_PRELOAD samples the pins, a core is halted, resumed or stepped, a breakpoint that fires halts its core, and
management memory is written and read. (R500, R501, R502, 21_power_reset_debug.md) -/
def Obligations.DebugPort : Prop :=
  (∀ s : State, ∃ n, n = Config.freeNat s.dev.freeCtr ∧ exec (.tapDbgAuth { opening := none }) s = .next (s.withDev { s.dev.tck with
    freeCtr := s.dev.freeCtr + 1, sec := { s.dev.sec with challenge := some (n % 2 ^ 256, s.dev.now + 60 * Config.ticksPerSecond) } })) ∧
  (∀ (s : State) (window : Nat) (pubkey sig : Bytes), s.dev.sec.lifecycle = .secured →
    exec (.tapDbgAuth { opening := some (window, pubkey, sig) }) s = .next (s.withDev (s.dev.tck.signedOpen window { pubkey := pubkey, sig := sig }).2)) ∧
  (∀ s : State, s.dev.debugOn = true → s.dev.dev.power = .quiet →
    exec .tapExtest s = .next (s.withDev { s.dev.tck with dbg := { s.dev.dbg with scanDriven := some s.dev.dbg.scanPreload } })) ∧
  (∀ s : State, s.dev.debugOn = false ∨ s.dev.dev.power ≠ .quiet →
    exec .tapExtest s = .next (s.withDev s.dev.tck) ∧ s.dev.tck.dbg.scanDriven = none) ∧
  (∀ (s : State) (pins pre : List Bool), s.dev.debugOn = true →
    exec (.tapSamplePreload pins pre) s = .next (s.withDev { s.dev.tck with dbg := { s.dev.dbg with scanIn := pins, scanPreload := pre, scanDriven := none } })) ∧
  (∀ (s : State) (n : Nat), s.dev.debugOn = true → n ≤ 3 → s.dev.coreHalted n = false →
    exec (.coreHalt n) s = .next (s.withDev ((s.dev.tck.modCore n (fun c => { c with halted := true })).haltEvent n true))) ∧
  (∀ (s : State) (n : Nat), s.dev.debugOn = true → n ≤ 3 → (s.dev.core n).halted = true →
    exec (.coreResume n) s = .next (s.withDev ((s.dev.tck.modCore n (fun c => { c with halted := false })).haltEvent n false))) ∧
  (∀ (s : State) (n : Nat), s.dev.debugOn = true → n ≤ 3 → (s.dev.core n).halted = true →
    exec (.coreSingleStep n) s = .next (s.withDev (s.dev.tck.modCore n (fun c => { c with steps := c.steps + 1 })))) ∧
  (∀ (s : State) (r : BreakHit), s.dev.debugOn = true → r.core ≤ 3 → r.unit_ ≤ 7 → r.access = 0 → r.addr = r.first →
    exec (.breakpointHit r) s = .next (s.withDev ((s.dev.modCore r.core (fun c => { c with breakpoints := lset c.breakpoints r.unit_ (some r.first) })).haltCore r.core))) ∧
  (∀ (s : State) (r : BreakHit), s.dev.debugOn = true → r.core ≤ 3 → 8 ≤ r.unit_ → r.unit_ ≤ 11 → r.first ≤ r.addr → r.addr ≤ r.last →
    (r.access = 1 ∧ r.onRead = true) ∨ (r.access = 2 ∧ r.onWrite = true) →
    exec (.breakpointHit r) s = .next (s.withDev ((s.dev.modCore r.core (fun c => { c with
      watchpoints := lset c.watchpoints (r.unit_ - 8) (some (r.first, r.last, r.onRead, r.onWrite)) })).haltCore r.core))) ∧
  (∀ (s : State) (r : MemAccess), s.dev.debugOn = true → r.space = 0 → r.addr < Config.mgmtBytes → r.write = true →
    exec (.systemMemoryAccess r) s = .next (s.withDev { s.dev.tck with
      dbg := { s.dev.tck.dbg with mgmtMem := memPut s.dev.dbg.mgmtMem r.addr (BitVec.ofNat 8 r.value), lastError := false } })) ∧
  (∀ (s : State) (r : MemAccess) (b : Byte), s.dev.debugOn = true → r.space = 0 → r.addr < Config.mgmtBytes → r.write = false → memRead s.dev.dbg.mgmtMem r.addr = some b →
    exec (.systemMemoryAccess r) s = .next (s.withDev (s.dev.tck.answered b.toNat false))) ∧
  (∀ (s : State) (r : MemAccess), s.dev.debugOn = true → r.space = 0 → r.addr < Config.mgmtBytes → r.write = false → memRead s.dev.dbg.mgmtMem r.addr = none →
    exec (.systemMemoryAccess r) s = .next (s.withDev (s.dev.tck.draw.2.answered (s.dev.tck.draw.1 % 256) false))) ∧
  (∀ (s : State) (r : MemAccess), s.dev.debugOn = true → r.space = 1 → r.write = false →
    exec (.systemMemoryAccess r) s = .next (s.withDev ((readBar0 r.addr s.dev.tck).answered (readBar0 r.addr s.dev.tck).host.readData false))) ∧
  (∀ (s : State) (r : MemAccess), s.dev.debugOn = true → 3 ≤ r.space ∨ (r.space = 0 ∧ Config.mgmtBytes ≤ r.addr) →
    exec (.systemMemoryAccess r) s = .next (s.withDev { s.dev.tck with dbg := { s.dev.tck.dbg with lastRead := 0, lastError := true } }))

/-- The scrambler is additive with polynomial x^58 + x^39 + 1: from its 58-bit state, loaded with the seed before the first bit, each bit takes k =
s[57] xor s[38], shifts k in at the low end and sends the bit xor k. (R41) -/
def Obligations.ScramblerStep : Prop :=
  (∀ (seed : Nat) (b : Bool) (t : List Bool), scramble seed [] = ([], seed) ∧
    ∃ k, k = xor (bitOf seed 57) (bitOf seed 38) ∧
      scramble seed (b :: t) = (xor b k :: (scramble ((seed * 2 + b2n k) % 2 ^ 58) t).1, (scramble ((seed * 2 + b2n k) % 2 ^ 58) t).2))

/-- For every seed, run state, bits and rest of the line, the receiver that reads as many payload bits as were scrambled takes exactly the bits with
ballast off the line, gets the scrambled bits back, ends in the transmitter's run state with no violation counted, and descrambling gives the bits and
the same state. (R41, R42, R43, R44, 02_tree_line.md) -/
def Obligations.LineCodeRoundTrip : Prop :=
  (∀ (seed : Nat) (r : Run) (bits rest : List Bool),
    ballastRx bits.length r ((ballastTx r (scramble seed bits).1).1 ++ rest) =
      ((scramble seed bits).1, (ballastTx r (scramble seed bits).1).2, rest, (ballastTx r (scramble seed bits).1).1.length) ∧
    scramble seed (scramble seed bits).1 = (bits, (scramble seed bits).2))

/-- Of the parties that request the same resource, the one served first in tick C is the one of lowest index where bit 0 of C is 0 and of highest
index where it is 1; every party is served exactly as often as it requests. (R9) -/
def Obligations.TieRule : Prop :=
  (∀ (c : Nat) (index : Nat → Nat) (parties : List Nat),
    (∀ w, (tieOrder c index parties).head? = some w → w ∈ parties ∧ ∀ p ∈ parties, if c % 2 = 0 then index w ≤ index p else index p ≤ index w) ∧
    (parties ≠ [] → (tieOrder c index parties).head?.isSome = true) ∧ ∀ p, (tieOrder c index parties).count p = parties.count p)

/-- The first bit found for a place of a length is one at which the place lies in the tick and shares no bit with a span that can be due with it, and
at every lower first bit it would leave the tick or share a bit; where none is found there is none. (R145, R146, R149) -/
def Obligations.LowestStart : Prop :=
  (∀ (spans : List (Nat × Nat)) (len : Nat),
    (∀ c, lowestFit spans len = some c → (inTick c len = true ∧ ∀ s ∈ spans, overlaps c len s.1 s.2 = false) ∧
      ∀ b, b < c → inTick b len = true → ∃ s ∈ spans, overlaps b len s.1 s.2 = true) ∧
    (lowestFit spans len = none → ∀ b, inTick b len = true → ∃ s ∈ spans, overlaps b len s.1 s.2 = true))

/-- The entries that the collision check lets stand lie in the tick, share no bit with each other or with the unlisted spans, name every terminal at
most once, and are no more than the limit. (R144, R145, R146, R165) -/
def Obligations.CheckedGrantsAreApart : Prop :=
  (∀ (fecOf : Nat → Bool) (limit : Nat) (ok : Grant → Bool) (gs : List Grant) (spans : List (Nat × Nat)),
    let r := (checkGrants fecOf limit ok gs spans []).1
    let span := fun (g : Grant) => (g.start - 320, placeCost (fecOf g.tid) g.ncw)
    r.length ≤ limit ∧ (r.map (fun g => g.tid)).Nodup ∧
    (∀ g ∈ r, 320 ≤ g.start ∧ inTick (span g).1 (span g).2 = true ∧ ok g = true ∧ ∀ s ∈ spans, overlaps (span g).1 (span g).2 s.1 s.2 = false) ∧
    r.Pairwise (fun a b => overlaps (span b).1 (span b).2 (span a).1 (span a).2 = false))

/-- A terminal listed with a static id receives that id; one listed as dynamic without an id or a held one receives the lowest id below 256 that is
neither static for another serial, in use by another, nor held for another, and none where every id is taken. (R124, R131) -/
def Obligations.IdChoice : Prop :=
  (∀ (x : Tree) (y : Term),
    (∀ i, y.staticId = some i → x.chooseId y = some i) ∧
    (y.staticId = none → y.id = none → x.holds.find? (fun h => h.serial == y.serial) = none →
      (∀ i, x.chooseId y = some i → i < 256 ∧ x.idTaken y.serial i = false ∧ ∀ j, j < i → x.idTaken y.serial j = true) ∧
      (x.chooseId y = none → ∀ j, j < 256 → x.idTaken y.serial j = true)) ∧
    (∀ h, y.staticId = none → y.id = none → x.holds.find? (fun h => h.serial == y.serial) = some h → x.chooseId y = some h.id))

/-- Reading the 32 bytes of a heartbeat whose fields are in range gives its fields with the tick of reception, its PGID and RELEASE flag stand in
their places, and its CRC-32C fits. (R69, R290) -/
def Obligations.HeartbeatRoundTrip : Prop :=
  (∀ (v : PeerView) (pgid now : Nat) (release : Bool), pgid < 65536 → v.epoch < 65536 → v.role < 256 → v.dev < 256 → v.tree < 256 → v.cycle < 2 ^ 48 →
    -2147483648 ≤ v.cal → v.cal ≤ 2147483647 →
    ∃ b, b = heartbeatBytes v pgid release ∧ b.length = 32 ∧ readHeartbeat b now = { v with at_ := now } ∧ beAt b 0 2 = pgid ∧ bitOf (beAt b 5 1) 0 = release ∧
      crc32c (b.take 28) = beAt b 28 4)

/-- At the boundary that applies a reprogramming the counter is set to 0 under the program given, and its GEN is one more modulo 2^16; the dump record
of a counter carries GEN of its snapshot in bytes 2 and 3, and its window, where bound and permitted, as the second value of the counter's stride.
(R480) -/
def Obligations.ReprogramCounter : Prop :=
  (∀ (d : Dev) (r : ProgReq), tget (d.applyProg r).ctr.progs r.counter =
    some { r.prog with value := 0, gen := ((tget d.ctr.progs r.counter).elim 0 (fun q => q.gen) + 1) % 2 ^ 16 }) ∧
  (∀ (j : DumpJob) (i : Nat) (p : Prog), tget j.progs i = some p → leAt (j.record 21 i) 2 2 = p.gen % 2 ^ 16) ∧
  (∀ (c : CounterUnit) (w first i : Nat) (p : Prog), tget c.windows w = some (21, first) → bitOf c.permit 21 = true → i < winCount 21 first →
    tget c.snapProgs (first + i) = some p → c.bar2 w (64 + winStride 21 * i + 8) = p.gen)

/-- RECORDER_TRIGGER is DENIED while RUN is clear or STORE_FULL holds; else, at its boundary, it triggers with its TAG and answers the CAPTURE_ID
opened or extended in 8 bytes. (R428) -/
def Obligations.SoftwareTrigger : Prop :=
  (∀ (s : State) (ctx tag : Nat), s.dev.served ctx 0x0B02 = true →
    (s.dev.recd.set.run = false ∨ s.dev.recd.full = true → exec (.recorderTrigger ctx tag) s = .next (s.answered ctx .denied [])) ∧
    (s.dev.recd.set.run = true → s.dev.recd.full = false →
      exec (.recorderTrigger ctx tag) s = .next (s.withDev ((s.dev.begun ctx).recPend (.trigger (s.dev.refOf ctx) tag))) ∧
      ∀ d : Dev, d.recd.set.run = true → d.recd.full = false →
        d.applyRec (.trigger (s.dev.refOf ctx) tag) = (d.trigger (d.stamp 0) 0 0 tag 0).2.complete (s.dev.refOf ctx) .ok (le 8 (d.trigger (d.stamp 0) 0 0 tag 0).1)))

/-- After reset no command waits, host memory holds nothing written, the cycle number is 0, the block does not serve mailboxes, time is UNSET with the
default settings, every TEV pin is OFF, the Sluice has its default budget and wait limit, Towpath links are disabled with ALIGN and its wait at their
defaults. (Reset values that the manual does not give are the model's choice: log entries name them.). (R20, R332, R345, R350, R407, R432, R493, R507,
21_power_reset_debug.md) -/
def Obligations.ResetState : Prop :=
  (State.reset.pending = [] ∧ memWf State.reset.hostMem = true ∧ (∀ a, memRead State.reset.hostMem a = none) ∧ State.reset.dev.clock.cycle = 0 ∧
    State.reset.dev.host.ready = false ∧ State.reset.dev.time.state = .unset ∧ State.reset.dev.time.set.ppsWidth = 100000 ∧
    State.reset.dev.time.set.phaseAlarm = 1000 ∧ State.reset.dev.time.set.stepThreshold = 10000 ∧ (State.reset.dev.time.pins.all (fun p => p.mode == 0)) = true ∧
    State.reset.dev.sluice.budget = 448 ∧ State.reset.dev.sluice.waitLimit = 10 ∧ (State.reset.dev.tow.links.all (fun l => l.state == .disabled)) = true ∧
    State.reset.dev.tow.align = true ∧ State.reset.dev.tow.alignWait = 3000)

/-- The value that the decoder takes for a sample differs from it by at most 2^k − 1 in bounded mode with k from 1 to 8, is the sample in lossless
mode (d = 0), and is the sample where the escape is used, under every parameter and after every run. (R416) -/
def Obligations.FoldBound : Prop :=
  (∀ (p : Nat) (r : ChanRun) (x : Int),
    (∀ k, 1 ≤ k → k ≤ 8 → (x - (foldSample (2 ^ k - 1) p r x).2.y1).natAbs ≤ 2 ^ k - 1) ∧ (foldSample 0 p r x).2.y1 = x ∧
    ∀ d, (quantise d r.predict x).2 < -2147483648 ∨ 2147483647 < (quantise d r.predict x).2 ∨ rice p (zigzag (quantise d r.predict x).1) = none →
      (foldSample d p r x).1 = escape x ∧ (foldSample d p r x).2.y1 = x)

/-- In a table whose entries stand in the order of their indices, a lookup answers an entry of the key in one of its two candidate buckets, of lowest
index among those, and nothing exactly where there is none; setting, changing and removing an entry keep the order. (R251, R254, 10_forwarding_cam.md)
-/
def Obligations.FdbLookup : Prop :=
  (∀ (f : Fdb) (fid mac : Nat), tsorted f.entries = true →
    let cand := fun (i : Nat) (e : FdbEnt) => (i, e) ∈ f.entries ∧ (i / 4 = (fdbBuckets f.salt fid mac).1 ∨ i / 4 = (fdbBuckets f.salt fid mac).2) ∧ e.fid = fid ∧ e.mac = mac
    (∀ i e, f.lookup fid mac = some (i, e) → cand i e ∧ ∀ j g, cand j g → i ≤ j) ∧ (f.lookup fid mac = none ↔ ∀ i e, ¬ cand i e)) ∧
  (∀ (t : Tbl FdbEnt) (i : Nat) (e : FdbEnt) (g : FdbEnt → FdbEnt), tsorted t = true →
    tsorted (tset t i e) = true ∧ tsorted (tdel t i) = true ∧ tsorted (tmod t i g) = true)

/-- The ranked entries of a lookup are exactly the entries of the table whose rows equal the lookup word, each as often as it is stored, higher
priority first and the lower index first among equals; verification answers the first of them whose copy equals the word, names every entry it passed
over, and answers none only where no copy fits. (R262, R263, 10_forwarding_cam.md) -/
def Obligations.CamRanking : Prop :=
  (∀ (c : Cam) (t : Nat) (w : Bytes), tsorted c.entries = true →
    (∀ e, (c.ranked t w).count e = if e.1 / 65536 = t ∧ e.2.rows = w then c.entries.count e else 0) ∧
    (c.ranked t w).Pairwise (fun a b => b.2.priority < a.2.priority ∨ b.2.priority = a.2.priority ∧ a.1 < b.1)) ∧
  (∀ (w : Bytes) (l : List (Nat × CamEnt)),
    ((camVerify w l).1 = none ↔ ∀ x ∈ l, x.2.copy ≠ w) ∧
    ∀ e, (camVerify w l).1 = some e → e.copy = w ∧ ∃ pre i post, l = pre ++ (i, e) :: post ∧ (∀ x ∈ pre, x.2.copy ≠ w) ∧ (camVerify w l).2 = pre.map (fun x => x.1))

/-- At reset every source is routed to ring 0. A record raised by a masked source is discarded and counted in EVT.MASKED; one routed to a disabled
ring is discarded and counted in its LOST; a record that a ring takes with no coalescing in force signals vector 16 + r. (R444) -/
def Obligations.EventRouting : Prop :=
  (∀ (d : Dev) (cycle src cause : Nat) (flag : Bool) (index : Nat) (data : Bytes),
    tgetD State.reset.dev.ev.routes src 0 = 0 ∧
    (tgetD d.ev.routes src 0 = 255 → d.raiseAt cycle src cause flag index data = d.countDev .evtMasked) ∧
    (∀ r, tgetD d.ev.routes src 0 = r → r ≠ 255 → (d.ring r).enable = false → d.raiseAt cycle src cause flag index data = d.modRing r Ring.drop) ∧
    (∀ r : Ring, r.drop = { r with lost := (r.lost + 1) % 2 ^ 32, drops := r.drops + 1 })) ∧
  (∀ (d : Dev) (mem : List Host.Cell) (now : Nat) (e : EvRec) (rest : List EvRec), d.host.idle = false → d.host.d3 = false →
    d.ev.staging = e :: rest → (d.ring e.ring).enable = true →
    ((d.ring e.ring).head + 1) % (d.ring e.ring).entries ≠ (d.ring e.ring).tail % (d.ring e.ring).entries → (d.ring e.ring).lastMsg = none →
    (eventRaise now d mem).1 = (({ d with ev := { d.ev with staging := rest } } : Dev).modRing e.ring (fun r =>
      { r with head := (r.head + 1) % r.entries, phase := if (r.head + 1) % r.entries = 0 then !r.phase else r.phase, drops := 0,
               msgDue := false, lastMsg := some (d.clk now) })).signal (16 + e.ring))

/-- After reset the budget is 448, the wait limit 10 s and the priorities those of R493. A request with its fields in range waits for the next
boundary, which sets the three and answers OK with an empty response (and raises BUDGET_SHORT where the new budget is short); one out of range is
INVALID. (R507) -/
def Obligations.SluiceBudgetSet : Prop :=
  (∀ (s : State) (ctx : Nat) (r : BudgetReq),
    State.reset.dev.sluice.budget = 448 ∧ State.reset.dev.sluice.waitLimit = 10 ∧ State.reset.dev.sluice.prio = [0, 1, 1, 2, 2, 2, 3] ∧
    (s.dev.served ctx 0x0105 = true →
      (80 ≤ r.budget ∧ r.budget ≤ 480 ∧ 1 ≤ r.waitLimit ∧ r.waitLimit ≤ 3600 ∧ r.prio.length = 7 ∧ r.prio.all (fun p => decide (p ≤ 3)) = true →
        exec (.sluiceBudgetSet ctx r) s = .next (s.withDev { s.dev.begun ctx with sluice := { s.dev.sluice with
          pend := s.dev.sluice.pend ++ [(s.dev.refOf ctx, r.budget, r.waitLimit, r.prio)] } })) ∧
      (¬ (80 ≤ r.budget ∧ r.budget ≤ 480 ∧ 1 ≤ r.waitLimit ∧ r.waitLimit ≤ 3600 ∧ r.prio.length = 7 ∧ r.prio.all (fun p => decide (p ≤ 3)) = true) →
        exec (.sluiceBudgetSet ctx r) s = .next (s.answered ctx .invalid []))) ∧
    ∀ (d : Dev) (ref : CmdRef), d.sluice.pend = [(ref, r.budget, r.waitLimit, r.prio)] →
      d.applyBudgets = (let x : Dev := ({ d with sluice := { d.sluice with pend := [], budget := r.budget, waitLimit := r.waitLimit, prio := r.prio } } : Dev).complete ref .ok
        if r.budget < x.sluice.base + x.sluice.heldTokens + x.sluice.reserve then
          x.raise 0x3A3 (le 2 r.budget ++ le 2 (x.sluice.base + x.sluice.heldTokens + x.sluice.reserve)) else x))
end

