-- ==== Sys2Proof/Laws/State.lean ====
section
/-!
SUPPORT. The fields that each shared operation leaves as they were, and what the accessors read after an update: one small lemma each, so that no proof
unfolds a record update.
-/
namespace Sys2Proof.Machine
open Sys2Proof

variable (d : Dev)

/-! ### modTree -/

@[simp] theorem Dev.modTree_clock (t : Nat) (f : Tree → Tree) : (d.modTree t f).clock = d.clock := rfl
@[simp] theorem Dev.modTree_dev (t : Nat) (f : Tree → Tree) : (d.modTree t f).dev = d.dev := rfl
@[simp] theorem Dev.modTree_host (t : Nat) (f : Tree → Tree) : (d.modTree t f).host = d.host := rfl
@[simp] theorem Dev.modTree_ev (t : Nat) (f : Tree → Tree) : (d.modTree t f).ev = d.ev := rfl
@[simp] theorem Dev.modTree_ctr (t : Nat) (f : Tree → Tree) : (d.modTree t f).ctr = d.ctr := rfl
@[simp] theorem Dev.modTree_sluice (t : Nat) (f : Tree → Tree) : (d.modTree t f).sluice = d.sluice := rfl
@[simp] theorem Dev.modTree_dbg (t : Nat) (f : Tree → Tree) : (d.modTree t f).dbg = d.dbg := rfl
@[simp] theorem Dev.modTree_profile (t : Nat) (f : Tree → Tree) : (d.modTree t f).profile = d.profile := rfl
@[simp] theorem Dev.modTree_flash (t : Nat) (f : Tree → Tree) : (d.modTree t f).flash = d.flash := rfl
@[simp] theorem Dev.modTree_ref (t : Nat) (f : Tree → Tree) : (d.modTree t f).ref = d.ref := rfl
@[simp] theorem Dev.modTree_lines (t : Nat) (f : Tree → Tree) : (d.modTree t f).lines = d.lines := rfl
@[simp] theorem Dev.modTree_sec (t : Nat) (f : Tree → Tree) : (d.modTree t f).sec = d.sec := rfl
@[simp] theorem Dev.modTree_pool (t : Nat) (f : Tree → Tree) : (d.modTree t f).pool = d.pool := rfl
@[simp] theorem Dev.modTree_sched (t : Nat) (f : Tree → Tree) : (d.modTree t f).sched = d.sched := rfl
@[simp] theorem Dev.modTree_cfg (t : Nat) (f : Tree → Tree) : (d.modTree t f).cfg = d.cfg := rfl
@[simp] theorem Dev.modTree_prot (t : Nat) (f : Tree → Tree) : (d.modTree t f).prot = d.prot := rfl
@[simp] theorem Dev.modTree_time (t : Nat) (f : Tree → Tree) : (d.modTree t f).time = d.time := rfl
@[simp] theorem Dev.modTree_tow (t : Nat) (f : Tree → Tree) : (d.modTree t f).tow = d.tow := rfl
@[simp] theorem Dev.modTree_cls (t : Nat) (f : Tree → Tree) : (d.modTree t f).cls = d.cls := rfl
@[simp] theorem Dev.modTree_fdb (t : Nat) (f : Tree → Tree) : (d.modTree t f).fdb = d.fdb := rfl
@[simp] theorem Dev.modTree_cam (t : Nat) (f : Tree → Tree) : (d.modTree t f).cam = d.cam := rfl
@[simp] theorem Dev.modTree_upl (t : Nat) (f : Tree → Tree) : (d.modTree t f).upl = d.upl := rfl
@[simp] theorem Dev.modTree_recd (t : Nat) (f : Tree → Tree) : (d.modTree t f).recd = d.recd := rfl
@[simp] theorem Dev.modTree_upd (t : Nat) (f : Tree → Tree) : (d.modTree t f).upd = d.upd := rfl
@[simp] theorem Dev.modTree_freeCtr (t : Nat) (f : Tree → Tree) : (d.modTree t f).freeCtr = d.freeCtr := rfl

/-! ### modLine -/

@[simp] theorem Dev.modLine_clock (t : Nat) (f : TreeLine → TreeLine) : (d.modLine t f).clock = d.clock := rfl
@[simp] theorem Dev.modLine_dev (t : Nat) (f : TreeLine → TreeLine) : (d.modLine t f).dev = d.dev := rfl
@[simp] theorem Dev.modLine_host (t : Nat) (f : TreeLine → TreeLine) : (d.modLine t f).host = d.host := rfl
@[simp] theorem Dev.modLine_ev (t : Nat) (f : TreeLine → TreeLine) : (d.modLine t f).ev = d.ev := rfl
@[simp] theorem Dev.modLine_ctr (t : Nat) (f : TreeLine → TreeLine) : (d.modLine t f).ctr = d.ctr := rfl
@[simp] theorem Dev.modLine_sluice (t : Nat) (f : TreeLine → TreeLine) : (d.modLine t f).sluice = d.sluice := rfl
@[simp] theorem Dev.modLine_dbg (t : Nat) (f : TreeLine → TreeLine) : (d.modLine t f).dbg = d.dbg := rfl
@[simp] theorem Dev.modLine_profile (t : Nat) (f : TreeLine → TreeLine) : (d.modLine t f).profile = d.profile := rfl
@[simp] theorem Dev.modLine_flash (t : Nat) (f : TreeLine → TreeLine) : (d.modLine t f).flash = d.flash := rfl
@[simp] theorem Dev.modLine_ref (t : Nat) (f : TreeLine → TreeLine) : (d.modLine t f).ref = d.ref := rfl
@[simp] theorem Dev.modLine_trees (t : Nat) (f : TreeLine → TreeLine) : (d.modLine t f).trees = d.trees := rfl
@[simp] theorem Dev.modLine_sec (t : Nat) (f : TreeLine → TreeLine) : (d.modLine t f).sec = d.sec := rfl
@[simp] theorem Dev.modLine_pool (t : Nat) (f : TreeLine → TreeLine) : (d.modLine t f).pool = d.pool := rfl
@[simp] theorem Dev.modLine_sched (t : Nat) (f : TreeLine → TreeLine) : (d.modLine t f).sched = d.sched := rfl
@[simp] theorem Dev.modLine_cfg (t : Nat) (f : TreeLine → TreeLine) : (d.modLine t f).cfg = d.cfg := rfl
@[simp] theorem Dev.modLine_prot (t : Nat) (f : TreeLine → TreeLine) : (d.modLine t f).prot = d.prot := rfl
@[simp] theorem Dev.modLine_time (t : Nat) (f : TreeLine → TreeLine) : (d.modLine t f).time = d.time := rfl
@[simp] theorem Dev.modLine_tow (t : Nat) (f : TreeLine → TreeLine) : (d.modLine t f).tow = d.tow := rfl
@[simp] theorem Dev.modLine_cls (t : Nat) (f : TreeLine → TreeLine) : (d.modLine t f).cls = d.cls := rfl
@[simp] theorem Dev.modLine_fdb (t : Nat) (f : TreeLine → TreeLine) : (d.modLine t f).fdb = d.fdb := rfl
@[simp] theorem Dev.modLine_cam (t : Nat) (f : TreeLine → TreeLine) : (d.modLine t f).cam = d.cam := rfl
@[simp] theorem Dev.modLine_upl (t : Nat) (f : TreeLine → TreeLine) : (d.modLine t f).upl = d.upl := rfl
@[simp] theorem Dev.modLine_recd (t : Nat) (f : TreeLine → TreeLine) : (d.modLine t f).recd = d.recd := rfl
@[simp] theorem Dev.modLine_upd (t : Nat) (f : TreeLine → TreeLine) : (d.modLine t f).upd = d.upd := rfl
@[simp] theorem Dev.modLine_freeCtr (t : Nat) (f : TreeLine → TreeLine) : (d.modLine t f).freeCtr = d.freeCtr := rfl

/-! ### modTerm -/

@[simp] theorem Dev.modTerm_clock (t n : Nat) (f : Term → Term) : (d.modTerm t n f).clock = d.clock := rfl
@[simp] theorem Dev.modTerm_dev (t n : Nat) (f : Term → Term) : (d.modTerm t n f).dev = d.dev := rfl
@[simp] theorem Dev.modTerm_host (t n : Nat) (f : Term → Term) : (d.modTerm t n f).host = d.host := rfl
@[simp] theorem Dev.modTerm_ev (t n : Nat) (f : Term → Term) : (d.modTerm t n f).ev = d.ev := rfl
@[simp] theorem Dev.modTerm_ctr (t n : Nat) (f : Term → Term) : (d.modTerm t n f).ctr = d.ctr := rfl
@[simp] theorem Dev.modTerm_sluice (t n : Nat) (f : Term → Term) : (d.modTerm t n f).sluice = d.sluice := rfl
@[simp] theorem Dev.modTerm_dbg (t n : Nat) (f : Term → Term) : (d.modTerm t n f).dbg = d.dbg := rfl
@[simp] theorem Dev.modTerm_profile (t n : Nat) (f : Term → Term) : (d.modTerm t n f).profile = d.profile := rfl
@[simp] theorem Dev.modTerm_flash (t n : Nat) (f : Term → Term) : (d.modTerm t n f).flash = d.flash := rfl
@[simp] theorem Dev.modTerm_ref (t n : Nat) (f : Term → Term) : (d.modTerm t n f).ref = d.ref := rfl
@[simp] theorem Dev.modTerm_lines (t n : Nat) (f : Term → Term) : (d.modTerm t n f).lines = d.lines := rfl
@[simp] theorem Dev.modTerm_sec (t n : Nat) (f : Term → Term) : (d.modTerm t n f).sec = d.sec := rfl
@[simp] theorem Dev.modTerm_pool (t n : Nat) (f : Term → Term) : (d.modTerm t n f).pool = d.pool := rfl
@[simp] theorem Dev.modTerm_sched (t n : Nat) (f : Term → Term) : (d.modTerm t n f).sched = d.sched := rfl
@[simp] theorem Dev.modTerm_cfg (t n : Nat) (f : Term → Term) : (d.modTerm t n f).cfg = d.cfg := rfl
@[simp] theorem Dev.modTerm_prot (t n : Nat) (f : Term → Term) : (d.modTerm t n f).prot = d.prot := rfl
@[simp] theorem Dev.modTerm_time (t n : Nat) (f : Term → Term) : (d.modTerm t n f).time = d.time := rfl
@[simp] theorem Dev.modTerm_tow (t n : Nat) (f : Term → Term) : (d.modTerm t n f).tow = d.tow := rfl
@[simp] theorem Dev.modTerm_cls (t n : Nat) (f : Term → Term) : (d.modTerm t n f).cls = d.cls := rfl
@[simp] theorem Dev.modTerm_fdb (t n : Nat) (f : Term → Term) : (d.modTerm t n f).fdb = d.fdb := rfl
@[simp] theorem Dev.modTerm_cam (t n : Nat) (f : Term → Term) : (d.modTerm t n f).cam = d.cam := rfl
@[simp] theorem Dev.modTerm_upl (t n : Nat) (f : Term → Term) : (d.modTerm t n f).upl = d.upl := rfl
@[simp] theorem Dev.modTerm_recd (t n : Nat) (f : Term → Term) : (d.modTerm t n f).recd = d.recd := rfl
@[simp] theorem Dev.modTerm_upd (t n : Nat) (f : Term → Term) : (d.modTerm t n f).upd = d.upd := rfl
@[simp] theorem Dev.modTerm_freeCtr (t n : Nat) (f : Term → Term) : (d.modTerm t n f).freeCtr = d.freeCtr := rfl

/-! ### modKeys -/

@[simp] theorem Dev.modKeys_clock (g : Nat) (f : TermKeys → TermKeys) : (d.modKeys g f).clock = d.clock := rfl
@[simp] theorem Dev.modKeys_dev (g : Nat) (f : TermKeys → TermKeys) : (d.modKeys g f).dev = d.dev := rfl
@[simp] theorem Dev.modKeys_host (g : Nat) (f : TermKeys → TermKeys) : (d.modKeys g f).host = d.host := rfl
@[simp] theorem Dev.modKeys_ev (g : Nat) (f : TermKeys → TermKeys) : (d.modKeys g f).ev = d.ev := rfl
@[simp] theorem Dev.modKeys_ctr (g : Nat) (f : TermKeys → TermKeys) : (d.modKeys g f).ctr = d.ctr := rfl
@[simp] theorem Dev.modKeys_sluice (g : Nat) (f : TermKeys → TermKeys) : (d.modKeys g f).sluice = d.sluice := rfl
@[simp] theorem Dev.modKeys_dbg (g : Nat) (f : TermKeys → TermKeys) : (d.modKeys g f).dbg = d.dbg := rfl
@[simp] theorem Dev.modKeys_profile (g : Nat) (f : TermKeys → TermKeys) : (d.modKeys g f).profile = d.profile := rfl
@[simp] theorem Dev.modKeys_flash (g : Nat) (f : TermKeys → TermKeys) : (d.modKeys g f).flash = d.flash := rfl
@[simp] theorem Dev.modKeys_ref (g : Nat) (f : TermKeys → TermKeys) : (d.modKeys g f).ref = d.ref := rfl
@[simp] theorem Dev.modKeys_trees (g : Nat) (f : TermKeys → TermKeys) : (d.modKeys g f).trees = d.trees := rfl
@[simp] theorem Dev.modKeys_lines (g : Nat) (f : TermKeys → TermKeys) : (d.modKeys g f).lines = d.lines := rfl
@[simp] theorem Dev.modKeys_pool (g : Nat) (f : TermKeys → TermKeys) : (d.modKeys g f).pool = d.pool := rfl
@[simp] theorem Dev.modKeys_sched (g : Nat) (f : TermKeys → TermKeys) : (d.modKeys g f).sched = d.sched := rfl
@[simp] theorem Dev.modKeys_cfg (g : Nat) (f : TermKeys → TermKeys) : (d.modKeys g f).cfg = d.cfg := rfl
@[simp] theorem Dev.modKeys_prot (g : Nat) (f : TermKeys → TermKeys) : (d.modKeys g f).prot = d.prot := rfl
@[simp] theorem Dev.modKeys_time (g : Nat) (f : TermKeys → TermKeys) : (d.modKeys g f).time = d.time := rfl
@[simp] theorem Dev.modKeys_tow (g : Nat) (f : TermKeys → TermKeys) : (d.modKeys g f).tow = d.tow := rfl
@[simp] theorem Dev.modKeys_cls (g : Nat) (f : TermKeys → TermKeys) : (d.modKeys g f).cls = d.cls := rfl
@[simp] theorem Dev.modKeys_fdb (g : Nat) (f : TermKeys → TermKeys) : (d.modKeys g f).fdb = d.fdb := rfl
@[simp] theorem Dev.modKeys_cam (g : Nat) (f : TermKeys → TermKeys) : (d.modKeys g f).cam = d.cam := rfl
@[simp] theorem Dev.modKeys_upl (g : Nat) (f : TermKeys → TermKeys) : (d.modKeys g f).upl = d.upl := rfl
@[simp] theorem Dev.modKeys_recd (g : Nat) (f : TermKeys → TermKeys) : (d.modKeys g f).recd = d.recd := rfl
@[simp] theorem Dev.modKeys_upd (g : Nat) (f : TermKeys → TermKeys) : (d.modKeys g f).upd = d.upd := rfl
@[simp] theorem Dev.modKeys_freeCtr (g : Nat) (f : TermKeys → TermKeys) : (d.modKeys g f).freeCtr = d.freeCtr := rfl

/-! ### modRing -/

@[simp] theorem Dev.modRing_clock (r : Nat) (f : Ring → Ring) : (d.modRing r f).clock = d.clock := rfl
@[simp] theorem Dev.modRing_dev (r : Nat) (f : Ring → Ring) : (d.modRing r f).dev = d.dev := rfl
@[simp] theorem Dev.modRing_ev (r : Nat) (f : Ring → Ring) : (d.modRing r f).ev = d.ev := rfl
@[simp] theorem Dev.modRing_ctr (r : Nat) (f : Ring → Ring) : (d.modRing r f).ctr = d.ctr := rfl
@[simp] theorem Dev.modRing_sluice (r : Nat) (f : Ring → Ring) : (d.modRing r f).sluice = d.sluice := rfl
@[simp] theorem Dev.modRing_dbg (r : Nat) (f : Ring → Ring) : (d.modRing r f).dbg = d.dbg := rfl
@[simp] theorem Dev.modRing_profile (r : Nat) (f : Ring → Ring) : (d.modRing r f).profile = d.profile := rfl
@[simp] theorem Dev.modRing_flash (r : Nat) (f : Ring → Ring) : (d.modRing r f).flash = d.flash := rfl
@[simp] theorem Dev.modRing_ref (r : Nat) (f : Ring → Ring) : (d.modRing r f).ref = d.ref := rfl
@[simp] theorem Dev.modRing_trees (r : Nat) (f : Ring → Ring) : (d.modRing r f).trees = d.trees := rfl
@[simp] theorem Dev.modRing_lines (r : Nat) (f : Ring → Ring) : (d.modRing r f).lines = d.lines := rfl
@[simp] theorem Dev.modRing_sec (r : Nat) (f : Ring → Ring) : (d.modRing r f).sec = d.sec := rfl
@[simp] theorem Dev.modRing_pool (r : Nat) (f : Ring → Ring) : (d.modRing r f).pool = d.pool := rfl
@[simp] theorem Dev.modRing_sched (r : Nat) (f : Ring → Ring) : (d.modRing r f).sched = d.sched := rfl
@[simp] theorem Dev.modRing_cfg (r : Nat) (f : Ring → Ring) : (d.modRing r f).cfg = d.cfg := rfl
@[simp] theorem Dev.modRing_prot (r : Nat) (f : Ring → Ring) : (d.modRing r f).prot = d.prot := rfl
@[simp] theorem Dev.modRing_time (r : Nat) (f : Ring → Ring) : (d.modRing r f).time = d.time := rfl
@[simp] theorem Dev.modRing_tow (r : Nat) (f : Ring → Ring) : (d.modRing r f).tow = d.tow := rfl
@[simp] theorem Dev.modRing_cls (r : Nat) (f : Ring → Ring) : (d.modRing r f).cls = d.cls := rfl
@[simp] theorem Dev.modRing_fdb (r : Nat) (f : Ring → Ring) : (d.modRing r f).fdb = d.fdb := rfl
@[simp] theorem Dev.modRing_cam (r : Nat) (f : Ring → Ring) : (d.modRing r f).cam = d.cam := rfl
@[simp] theorem Dev.modRing_upl (r : Nat) (f : Ring → Ring) : (d.modRing r f).upl = d.upl := rfl
@[simp] theorem Dev.modRing_recd (r : Nat) (f : Ring → Ring) : (d.modRing r f).recd = d.recd := rfl
@[simp] theorem Dev.modRing_upd (r : Nat) (f : Ring → Ring) : (d.modRing r f).upd = d.upd := rfl
@[simp] theorem Dev.modRing_freeCtr (r : Nat) (f : Ring → Ring) : (d.modRing r f).freeCtr = d.freeCtr := rfl

/-! ### modCtx -/

@[simp] theorem Dev.modCtx_clock (c : Nat) (f : MbCtx → MbCtx) : (d.modCtx c f).clock = d.clock := rfl
@[simp] theorem Dev.modCtx_dev (c : Nat) (f : MbCtx → MbCtx) : (d.modCtx c f).dev = d.dev := rfl
@[simp] theorem Dev.modCtx_ev (c : Nat) (f : MbCtx → MbCtx) : (d.modCtx c f).ev = d.ev := rfl
@[simp] theorem Dev.modCtx_ctr (c : Nat) (f : MbCtx → MbCtx) : (d.modCtx c f).ctr = d.ctr := rfl
@[simp] theorem Dev.modCtx_sluice (c : Nat) (f : MbCtx → MbCtx) : (d.modCtx c f).sluice = d.sluice := rfl
@[simp] theorem Dev.modCtx_dbg (c : Nat) (f : MbCtx → MbCtx) : (d.modCtx c f).dbg = d.dbg := rfl
@[simp] theorem Dev.modCtx_profile (c : Nat) (f : MbCtx → MbCtx) : (d.modCtx c f).profile = d.profile := rfl
@[simp] theorem Dev.modCtx_flash (c : Nat) (f : MbCtx → MbCtx) : (d.modCtx c f).flash = d.flash := rfl
@[simp] theorem Dev.modCtx_ref (c : Nat) (f : MbCtx → MbCtx) : (d.modCtx c f).ref = d.ref := rfl
@[simp] theorem Dev.modCtx_trees (c : Nat) (f : MbCtx → MbCtx) : (d.modCtx c f).trees = d.trees := rfl
@[simp] theorem Dev.modCtx_lines (c : Nat) (f : MbCtx → MbCtx) : (d.modCtx c f).lines = d.lines := rfl
@[simp] theorem Dev.modCtx_sec (c : Nat) (f : MbCtx → MbCtx) : (d.modCtx c f).sec = d.sec := rfl
@[simp] theorem Dev.modCtx_pool (c : Nat) (f : MbCtx → MbCtx) : (d.modCtx c f).pool = d.pool := rfl
@[simp] theorem Dev.modCtx_sched (c : Nat) (f : MbCtx → MbCtx) : (d.modCtx c f).sched = d.sched := rfl
@[simp] theorem Dev.modCtx_cfg (c : Nat) (f : MbCtx → MbCtx) : (d.modCtx c f).cfg = d.cfg := rfl
@[simp] theorem Dev.modCtx_prot (c : Nat) (f : MbCtx → MbCtx) : (d.modCtx c f).prot = d.prot := rfl
@[simp] theorem Dev.modCtx_time (c : Nat) (f : MbCtx → MbCtx) : (d.modCtx c f).time = d.time := rfl
@[simp] theorem Dev.modCtx_tow (c : Nat) (f : MbCtx → MbCtx) : (d.modCtx c f).tow = d.tow := rfl
@[simp] theorem Dev.modCtx_cls (c : Nat) (f : MbCtx → MbCtx) : (d.modCtx c f).cls = d.cls := rfl
@[simp] theorem Dev.modCtx_fdb (c : Nat) (f : MbCtx → MbCtx) : (d.modCtx c f).fdb = d.fdb := rfl
@[simp] theorem Dev.modCtx_cam (c : Nat) (f : MbCtx → MbCtx) : (d.modCtx c f).cam = d.cam := rfl
@[simp] theorem Dev.modCtx_upl (c : Nat) (f : MbCtx → MbCtx) : (d.modCtx c f).upl = d.upl := rfl
@[simp] theorem Dev.modCtx_recd (c : Nat) (f : MbCtx → MbCtx) : (d.modCtx c f).recd = d.recd := rfl
@[simp] theorem Dev.modCtx_upd (c : Nat) (f : MbCtx → MbCtx) : (d.modCtx c f).upd = d.upd := rfl
@[simp] theorem Dev.modCtx_freeCtr (c : Nat) (f : MbCtx → MbCtx) : (d.modCtx c f).freeCtr = d.freeCtr := rfl

/-! ### count -/

@[simp] theorem Dev.count_clock (g : Nat) (st : Stat) (i n : Nat) : (d.count g st i n).clock = d.clock := rfl
@[simp] theorem Dev.count_dev (g : Nat) (st : Stat) (i n : Nat) : (d.count g st i n).dev = d.dev := rfl
@[simp] theorem Dev.count_host (g : Nat) (st : Stat) (i n : Nat) : (d.count g st i n).host = d.host := rfl
@[simp] theorem Dev.count_ev (g : Nat) (st : Stat) (i n : Nat) : (d.count g st i n).ev = d.ev := rfl
@[simp] theorem Dev.count_sluice (g : Nat) (st : Stat) (i n : Nat) : (d.count g st i n).sluice = d.sluice := rfl
@[simp] theorem Dev.count_dbg (g : Nat) (st : Stat) (i n : Nat) : (d.count g st i n).dbg = d.dbg := rfl
@[simp] theorem Dev.count_profile (g : Nat) (st : Stat) (i n : Nat) : (d.count g st i n).profile = d.profile := rfl
@[simp] theorem Dev.count_flash (g : Nat) (st : Stat) (i n : Nat) : (d.count g st i n).flash = d.flash := rfl
@[simp] theorem Dev.count_ref (g : Nat) (st : Stat) (i n : Nat) : (d.count g st i n).ref = d.ref := rfl
@[simp] theorem Dev.count_trees (g : Nat) (st : Stat) (i n : Nat) : (d.count g st i n).trees = d.trees := rfl
@[simp] theorem Dev.count_lines (g : Nat) (st : Stat) (i n : Nat) : (d.count g st i n).lines = d.lines := rfl
@[simp] theorem Dev.count_sec (g : Nat) (st : Stat) (i n : Nat) : (d.count g st i n).sec = d.sec := rfl
@[simp] theorem Dev.count_pool (g : Nat) (st : Stat) (i n : Nat) : (d.count g st i n).pool = d.pool := rfl
@[simp] theorem Dev.count_sched (g : Nat) (st : Stat) (i n : Nat) : (d.count g st i n).sched = d.sched := rfl
@[simp] theorem Dev.count_cfg (g : Nat) (st : Stat) (i n : Nat) : (d.count g st i n).cfg = d.cfg := rfl
@[simp] theorem Dev.count_prot (g : Nat) (st : Stat) (i n : Nat) : (d.count g st i n).prot = d.prot := rfl
@[simp] theorem Dev.count_time (g : Nat) (st : Stat) (i n : Nat) : (d.count g st i n).time = d.time := rfl
@[simp] theorem Dev.count_tow (g : Nat) (st : Stat) (i n : Nat) : (d.count g st i n).tow = d.tow := rfl
@[simp] theorem Dev.count_cls (g : Nat) (st : Stat) (i n : Nat) : (d.count g st i n).cls = d.cls := rfl
@[simp] theorem Dev.count_fdb (g : Nat) (st : Stat) (i n : Nat) : (d.count g st i n).fdb = d.fdb := rfl
@[simp] theorem Dev.count_cam (g : Nat) (st : Stat) (i n : Nat) : (d.count g st i n).cam = d.cam := rfl
@[simp] theorem Dev.count_upl (g : Nat) (st : Stat) (i n : Nat) : (d.count g st i n).upl = d.upl := rfl
@[simp] theorem Dev.count_recd (g : Nat) (st : Stat) (i n : Nat) : (d.count g st i n).recd = d.recd := rfl
@[simp] theorem Dev.count_upd (g : Nat) (st : Stat) (i n : Nat) : (d.count g st i n).upd = d.upd := rfl
@[simp] theorem Dev.count_freeCtr (g : Nat) (st : Stat) (i n : Nat) : (d.count g st i n).freeCtr = d.freeCtr := rfl

/-! ### countDev -/

@[simp] theorem Dev.countDev_clock (st : Stat) (n : Nat) : (d.countDev st n).clock = d.clock := rfl
@[simp] theorem Dev.countDev_dev (st : Stat) (n : Nat) : (d.countDev st n).dev = d.dev := rfl
@[simp] theorem Dev.countDev_host (st : Stat) (n : Nat) : (d.countDev st n).host = d.host := rfl
@[simp] theorem Dev.countDev_ev (st : Stat) (n : Nat) : (d.countDev st n).ev = d.ev := rfl
@[simp] theorem Dev.countDev_sluice (st : Stat) (n : Nat) : (d.countDev st n).sluice = d.sluice := rfl
@[simp] theorem Dev.countDev_dbg (st : Stat) (n : Nat) : (d.countDev st n).dbg = d.dbg := rfl
@[simp] theorem Dev.countDev_profile (st : Stat) (n : Nat) : (d.countDev st n).profile = d.profile := rfl
@[simp] theorem Dev.countDev_flash (st : Stat) (n : Nat) : (d.countDev st n).flash = d.flash := rfl
@[simp] theorem Dev.countDev_ref (st : Stat) (n : Nat) : (d.countDev st n).ref = d.ref := rfl
@[simp] theorem Dev.countDev_trees (st : Stat) (n : Nat) : (d.countDev st n).trees = d.trees := rfl
@[simp] theorem Dev.countDev_lines (st : Stat) (n : Nat) : (d.countDev st n).lines = d.lines := rfl
@[simp] theorem Dev.countDev_sec (st : Stat) (n : Nat) : (d.countDev st n).sec = d.sec := rfl
@[simp] theorem Dev.countDev_pool (st : Stat) (n : Nat) : (d.countDev st n).pool = d.pool := rfl
@[simp] theorem Dev.countDev_sched (st : Stat) (n : Nat) : (d.countDev st n).sched = d.sched := rfl
@[simp] theorem Dev.countDev_cfg (st : Stat) (n : Nat) : (d.countDev st n).cfg = d.cfg := rfl
@[simp] theorem Dev.countDev_prot (st : Stat) (n : Nat) : (d.countDev st n).prot = d.prot := rfl
@[simp] theorem Dev.countDev_time (st : Stat) (n : Nat) : (d.countDev st n).time = d.time := rfl
@[simp] theorem Dev.countDev_tow (st : Stat) (n : Nat) : (d.countDev st n).tow = d.tow := rfl
@[simp] theorem Dev.countDev_cls (st : Stat) (n : Nat) : (d.countDev st n).cls = d.cls := rfl
@[simp] theorem Dev.countDev_fdb (st : Stat) (n : Nat) : (d.countDev st n).fdb = d.fdb := rfl
@[simp] theorem Dev.countDev_cam (st : Stat) (n : Nat) : (d.countDev st n).cam = d.cam := rfl
@[simp] theorem Dev.countDev_upl (st : Stat) (n : Nat) : (d.countDev st n).upl = d.upl := rfl
@[simp] theorem Dev.countDev_recd (st : Stat) (n : Nat) : (d.countDev st n).recd = d.recd := rfl
@[simp] theorem Dev.countDev_upd (st : Stat) (n : Nat) : (d.countDev st n).upd = d.upd := rfl
@[simp] theorem Dev.countDev_freeCtr (st : Stat) (n : Nat) : (d.countDev st n).freeCtr = d.freeCtr := rfl

/-! ### countTree -/

@[simp] theorem Dev.countTree_clock (t : Nat) (st : Stat) (n : Nat) : (d.countTree t st n).clock = d.clock := rfl
@[simp] theorem Dev.countTree_dev (t : Nat) (st : Stat) (n : Nat) : (d.countTree t st n).dev = d.dev := rfl
@[simp] theorem Dev.countTree_host (t : Nat) (st : Stat) (n : Nat) : (d.countTree t st n).host = d.host := rfl
@[simp] theorem Dev.countTree_ev (t : Nat) (st : Stat) (n : Nat) : (d.countTree t st n).ev = d.ev := rfl
@[simp] theorem Dev.countTree_sluice (t : Nat) (st : Stat) (n : Nat) : (d.countTree t st n).sluice = d.sluice := rfl
@[simp] theorem Dev.countTree_dbg (t : Nat) (st : Stat) (n : Nat) : (d.countTree t st n).dbg = d.dbg := rfl
@[simp] theorem Dev.countTree_profile (t : Nat) (st : Stat) (n : Nat) : (d.countTree t st n).profile = d.profile := rfl
@[simp] theorem Dev.countTree_flash (t : Nat) (st : Stat) (n : Nat) : (d.countTree t st n).flash = d.flash := rfl
@[simp] theorem Dev.countTree_ref (t : Nat) (st : Stat) (n : Nat) : (d.countTree t st n).ref = d.ref := rfl
@[simp] theorem Dev.countTree_trees (t : Nat) (st : Stat) (n : Nat) : (d.countTree t st n).trees = d.trees := rfl
@[simp] theorem Dev.countTree_lines (t : Nat) (st : Stat) (n : Nat) : (d.countTree t st n).lines = d.lines := rfl
@[simp] theorem Dev.countTree_sec (t : Nat) (st : Stat) (n : Nat) : (d.countTree t st n).sec = d.sec := rfl
@[simp] theorem Dev.countTree_pool (t : Nat) (st : Stat) (n : Nat) : (d.countTree t st n).pool = d.pool := rfl
@[simp] theorem Dev.countTree_sched (t : Nat) (st : Stat) (n : Nat) : (d.countTree t st n).sched = d.sched := rfl
@[simp] theorem Dev.countTree_cfg (t : Nat) (st : Stat) (n : Nat) : (d.countTree t st n).cfg = d.cfg := rfl
@[simp] theorem Dev.countTree_prot (t : Nat) (st : Stat) (n : Nat) : (d.countTree t st n).prot = d.prot := rfl
@[simp] theorem Dev.countTree_time (t : Nat) (st : Stat) (n : Nat) : (d.countTree t st n).time = d.time := rfl
@[simp] theorem Dev.countTree_tow (t : Nat) (st : Stat) (n : Nat) : (d.countTree t st n).tow = d.tow := rfl
@[simp] theorem Dev.countTree_cls (t : Nat) (st : Stat) (n : Nat) : (d.countTree t st n).cls = d.cls := rfl
@[simp] theorem Dev.countTree_fdb (t : Nat) (st : Stat) (n : Nat) : (d.countTree t st n).fdb = d.fdb := rfl
@[simp] theorem Dev.countTree_cam (t : Nat) (st : Stat) (n : Nat) : (d.countTree t st n).cam = d.cam := rfl
@[simp] theorem Dev.countTree_upl (t : Nat) (st : Stat) (n : Nat) : (d.countTree t st n).upl = d.upl := rfl
@[simp] theorem Dev.countTree_recd (t : Nat) (st : Stat) (n : Nat) : (d.countTree t st n).recd = d.recd := rfl
@[simp] theorem Dev.countTree_upd (t : Nat) (st : Stat) (n : Nat) : (d.countTree t st n).upd = d.upd := rfl
@[simp] theorem Dev.countTree_freeCtr (t : Nat) (st : Stat) (n : Nat) : (d.countTree t st n).freeCtr = d.freeCtr := rfl

/-! ### later -/

@[simp] theorem Dev.later_clock (c : CfgChange) : (d.later c).clock = d.clock := rfl
@[simp] theorem Dev.later_dev (c : CfgChange) : (d.later c).dev = d.dev := rfl
@[simp] theorem Dev.later_host (c : CfgChange) : (d.later c).host = d.host := rfl
@[simp] theorem Dev.later_ev (c : CfgChange) : (d.later c).ev = d.ev := rfl
@[simp] theorem Dev.later_ctr (c : CfgChange) : (d.later c).ctr = d.ctr := rfl
@[simp] theorem Dev.later_sluice (c : CfgChange) : (d.later c).sluice = d.sluice := rfl
@[simp] theorem Dev.later_dbg (c : CfgChange) : (d.later c).dbg = d.dbg := rfl
@[simp] theorem Dev.later_profile (c : CfgChange) : (d.later c).profile = d.profile := rfl
@[simp] theorem Dev.later_flash (c : CfgChange) : (d.later c).flash = d.flash := rfl
@[simp] theorem Dev.later_ref (c : CfgChange) : (d.later c).ref = d.ref := rfl
@[simp] theorem Dev.later_trees (c : CfgChange) : (d.later c).trees = d.trees := rfl
@[simp] theorem Dev.later_lines (c : CfgChange) : (d.later c).lines = d.lines := rfl
@[simp] theorem Dev.later_sec (c : CfgChange) : (d.later c).sec = d.sec := rfl
@[simp] theorem Dev.later_pool (c : CfgChange) : (d.later c).pool = d.pool := rfl
@[simp] theorem Dev.later_sched (c : CfgChange) : (d.later c).sched = d.sched := rfl
@[simp] theorem Dev.later_prot (c : CfgChange) : (d.later c).prot = d.prot := rfl
@[simp] theorem Dev.later_time (c : CfgChange) : (d.later c).time = d.time := rfl
@[simp] theorem Dev.later_tow (c : CfgChange) : (d.later c).tow = d.tow := rfl
@[simp] theorem Dev.later_cls (c : CfgChange) : (d.later c).cls = d.cls := rfl
@[simp] theorem Dev.later_fdb (c : CfgChange) : (d.later c).fdb = d.fdb := rfl
@[simp] theorem Dev.later_cam (c : CfgChange) : (d.later c).cam = d.cam := rfl
@[simp] theorem Dev.later_upl (c : CfgChange) : (d.later c).upl = d.upl := rfl
@[simp] theorem Dev.later_recd (c : CfgChange) : (d.later c).recd = d.recd := rfl
@[simp] theorem Dev.later_upd (c : CfgChange) : (d.later c).upd = d.upd := rfl
@[simp] theorem Dev.later_freeCtr (c : CfgChange) : (d.later c).freeCtr = d.freeCtr := rfl

/-! ### begin -/

@[simp] theorem Dev.begin_clock (r : CmdRef) : (d.begin r).clock = d.clock := rfl
@[simp] theorem Dev.begin_dev (r : CmdRef) : (d.begin r).dev = d.dev := rfl
@[simp] theorem Dev.begin_ev (r : CmdRef) : (d.begin r).ev = d.ev := rfl
@[simp] theorem Dev.begin_ctr (r : CmdRef) : (d.begin r).ctr = d.ctr := rfl
@[simp] theorem Dev.begin_sluice (r : CmdRef) : (d.begin r).sluice = d.sluice := rfl
@[simp] theorem Dev.begin_dbg (r : CmdRef) : (d.begin r).dbg = d.dbg := rfl
@[simp] theorem Dev.begin_profile (r : CmdRef) : (d.begin r).profile = d.profile := rfl
@[simp] theorem Dev.begin_flash (r : CmdRef) : (d.begin r).flash = d.flash := rfl
@[simp] theorem Dev.begin_ref (r : CmdRef) : (d.begin r).ref = d.ref := rfl
@[simp] theorem Dev.begin_trees (r : CmdRef) : (d.begin r).trees = d.trees := rfl
@[simp] theorem Dev.begin_lines (r : CmdRef) : (d.begin r).lines = d.lines := rfl
@[simp] theorem Dev.begin_sec (r : CmdRef) : (d.begin r).sec = d.sec := rfl
@[simp] theorem Dev.begin_pool (r : CmdRef) : (d.begin r).pool = d.pool := rfl
@[simp] theorem Dev.begin_sched (r : CmdRef) : (d.begin r).sched = d.sched := rfl
@[simp] theorem Dev.begin_cfg (r : CmdRef) : (d.begin r).cfg = d.cfg := rfl
@[simp] theorem Dev.begin_prot (r : CmdRef) : (d.begin r).prot = d.prot := rfl
@[simp] theorem Dev.begin_time (r : CmdRef) : (d.begin r).time = d.time := rfl
@[simp] theorem Dev.begin_tow (r : CmdRef) : (d.begin r).tow = d.tow := rfl
@[simp] theorem Dev.begin_cls (r : CmdRef) : (d.begin r).cls = d.cls := rfl
@[simp] theorem Dev.begin_fdb (r : CmdRef) : (d.begin r).fdb = d.fdb := rfl
@[simp] theorem Dev.begin_cam (r : CmdRef) : (d.begin r).cam = d.cam := rfl
@[simp] theorem Dev.begin_upl (r : CmdRef) : (d.begin r).upl = d.upl := rfl
@[simp] theorem Dev.begin_recd (r : CmdRef) : (d.begin r).recd = d.recd := rfl
@[simp] theorem Dev.begin_upd (r : CmdRef) : (d.begin r).upd = d.upd := rfl
@[simp] theorem Dev.begin_freeCtr (r : CmdRef) : (d.begin r).freeCtr = d.freeCtr := rfl

/-! ### begun -/

@[simp] theorem Dev.begun_clock (c : Nat) : (d.begun c).clock = d.clock := rfl
@[simp] theorem Dev.begun_dev (c : Nat) : (d.begun c).dev = d.dev := rfl
@[simp] theorem Dev.begun_ev (c : Nat) : (d.begun c).ev = d.ev := rfl
@[simp] theorem Dev.begun_ctr (c : Nat) : (d.begun c).ctr = d.ctr := rfl
@[simp] theorem Dev.begun_sluice (c : Nat) : (d.begun c).sluice = d.sluice := rfl
@[simp] theorem Dev.begun_dbg (c : Nat) : (d.begun c).dbg = d.dbg := rfl
@[simp] theorem Dev.begun_profile (c : Nat) : (d.begun c).profile = d.profile := rfl
@[simp] theorem Dev.begun_flash (c : Nat) : (d.begun c).flash = d.flash := rfl
@[simp] theorem Dev.begun_ref (c : Nat) : (d.begun c).ref = d.ref := rfl
@[simp] theorem Dev.begun_trees (c : Nat) : (d.begun c).trees = d.trees := rfl
@[simp] theorem Dev.begun_lines (c : Nat) : (d.begun c).lines = d.lines := rfl
@[simp] theorem Dev.begun_sec (c : Nat) : (d.begun c).sec = d.sec := rfl
@[simp] theorem Dev.begun_pool (c : Nat) : (d.begun c).pool = d.pool := rfl
@[simp] theorem Dev.begun_sched (c : Nat) : (d.begun c).sched = d.sched := rfl
@[simp] theorem Dev.begun_cfg (c : Nat) : (d.begun c).cfg = d.cfg := rfl
@[simp] theorem Dev.begun_prot (c : Nat) : (d.begun c).prot = d.prot := rfl
@[simp] theorem Dev.begun_time (c : Nat) : (d.begun c).time = d.time := rfl
@[simp] theorem Dev.begun_tow (c : Nat) : (d.begun c).tow = d.tow := rfl
@[simp] theorem Dev.begun_cls (c : Nat) : (d.begun c).cls = d.cls := rfl
@[simp] theorem Dev.begun_fdb (c : Nat) : (d.begun c).fdb = d.fdb := rfl
@[simp] theorem Dev.begun_cam (c : Nat) : (d.begun c).cam = d.cam := rfl
@[simp] theorem Dev.begun_upl (c : Nat) : (d.begun c).upl = d.upl := rfl
@[simp] theorem Dev.begun_recd (c : Nat) : (d.begun c).recd = d.recd := rfl
@[simp] theorem Dev.begun_upd (c : Nat) : (d.begun c).upd = d.upd := rfl
@[simp] theorem Dev.begun_freeCtr (c : Nat) : (d.begun c).freeCtr = d.freeCtr := rfl

/-! ### complete -/

@[simp] theorem Dev.complete_clock (r : CmdRef) (st : Status) (b : Bytes) : (d.complete r st b).clock = d.clock := rfl
@[simp] theorem Dev.complete_dev (r : CmdRef) (st : Status) (b : Bytes) : (d.complete r st b).dev = d.dev := rfl
@[simp] theorem Dev.complete_ev (r : CmdRef) (st : Status) (b : Bytes) : (d.complete r st b).ev = d.ev := rfl
@[simp] theorem Dev.complete_ctr (r : CmdRef) (st : Status) (b : Bytes) : (d.complete r st b).ctr = d.ctr := rfl
@[simp] theorem Dev.complete_sluice (r : CmdRef) (st : Status) (b : Bytes) : (d.complete r st b).sluice = d.sluice := rfl
@[simp] theorem Dev.complete_dbg (r : CmdRef) (st : Status) (b : Bytes) : (d.complete r st b).dbg = d.dbg := rfl
@[simp] theorem Dev.complete_profile (r : CmdRef) (st : Status) (b : Bytes) : (d.complete r st b).profile = d.profile := rfl
@[simp] theorem Dev.complete_flash (r : CmdRef) (st : Status) (b : Bytes) : (d.complete r st b).flash = d.flash := rfl
@[simp] theorem Dev.complete_ref (r : CmdRef) (st : Status) (b : Bytes) : (d.complete r st b).ref = d.ref := rfl
@[simp] theorem Dev.complete_trees (r : CmdRef) (st : Status) (b : Bytes) : (d.complete r st b).trees = d.trees := rfl
@[simp] theorem Dev.complete_lines (r : CmdRef) (st : Status) (b : Bytes) : (d.complete r st b).lines = d.lines := rfl
@[simp] theorem Dev.complete_sec (r : CmdRef) (st : Status) (b : Bytes) : (d.complete r st b).sec = d.sec := rfl
@[simp] theorem Dev.complete_pool (r : CmdRef) (st : Status) (b : Bytes) : (d.complete r st b).pool = d.pool := rfl
@[simp] theorem Dev.complete_sched (r : CmdRef) (st : Status) (b : Bytes) : (d.complete r st b).sched = d.sched := rfl
@[simp] theorem Dev.complete_cfg (r : CmdRef) (st : Status) (b : Bytes) : (d.complete r st b).cfg = d.cfg := rfl
@[simp] theorem Dev.complete_prot (r : CmdRef) (st : Status) (b : Bytes) : (d.complete r st b).prot = d.prot := rfl
@[simp] theorem Dev.complete_time (r : CmdRef) (st : Status) (b : Bytes) : (d.complete r st b).time = d.time := rfl
@[simp] theorem Dev.complete_tow (r : CmdRef) (st : Status) (b : Bytes) : (d.complete r st b).tow = d.tow := rfl
@[simp] theorem Dev.complete_cls (r : CmdRef) (st : Status) (b : Bytes) : (d.complete r st b).cls = d.cls := rfl
@[simp] theorem Dev.complete_fdb (r : CmdRef) (st : Status) (b : Bytes) : (d.complete r st b).fdb = d.fdb := rfl
@[simp] theorem Dev.complete_cam (r : CmdRef) (st : Status) (b : Bytes) : (d.complete r st b).cam = d.cam := rfl
@[simp] theorem Dev.complete_upl (r : CmdRef) (st : Status) (b : Bytes) : (d.complete r st b).upl = d.upl := rfl
@[simp] theorem Dev.complete_recd (r : CmdRef) (st : Status) (b : Bytes) : (d.complete r st b).recd = d.recd := rfl
@[simp] theorem Dev.complete_upd (r : CmdRef) (st : Status) (b : Bytes) : (d.complete r st b).upd = d.upd := rfl
@[simp] theorem Dev.complete_freeCtr (r : CmdRef) (st : Status) (b : Bytes) : (d.complete r st b).freeCtr = d.freeCtr := rfl

/-! ### signal -/

@[simp] theorem Dev.signal_clock (v : Nat) : (d.signal v).clock = d.clock := rfl
@[simp] theorem Dev.signal_dev (v : Nat) : (d.signal v).dev = d.dev := rfl
@[simp] theorem Dev.signal_ev (v : Nat) : (d.signal v).ev = d.ev := rfl
@[simp] theorem Dev.signal_ctr (v : Nat) : (d.signal v).ctr = d.ctr := rfl
@[simp] theorem Dev.signal_sluice (v : Nat) : (d.signal v).sluice = d.sluice := rfl
@[simp] theorem Dev.signal_dbg (v : Nat) : (d.signal v).dbg = d.dbg := rfl
@[simp] theorem Dev.signal_profile (v : Nat) : (d.signal v).profile = d.profile := rfl
@[simp] theorem Dev.signal_flash (v : Nat) : (d.signal v).flash = d.flash := rfl
@[simp] theorem Dev.signal_ref (v : Nat) : (d.signal v).ref = d.ref := rfl
@[simp] theorem Dev.signal_trees (v : Nat) : (d.signal v).trees = d.trees := rfl
@[simp] theorem Dev.signal_lines (v : Nat) : (d.signal v).lines = d.lines := rfl
@[simp] theorem Dev.signal_sec (v : Nat) : (d.signal v).sec = d.sec := rfl
@[simp] theorem Dev.signal_pool (v : Nat) : (d.signal v).pool = d.pool := rfl
@[simp] theorem Dev.signal_sched (v : Nat) : (d.signal v).sched = d.sched := rfl
@[simp] theorem Dev.signal_cfg (v : Nat) : (d.signal v).cfg = d.cfg := rfl
@[simp] theorem Dev.signal_prot (v : Nat) : (d.signal v).prot = d.prot := rfl
@[simp] theorem Dev.signal_time (v : Nat) : (d.signal v).time = d.time := rfl
@[simp] theorem Dev.signal_tow (v : Nat) : (d.signal v).tow = d.tow := rfl
@[simp] theorem Dev.signal_cls (v : Nat) : (d.signal v).cls = d.cls := rfl
@[simp] theorem Dev.signal_fdb (v : Nat) : (d.signal v).fdb = d.fdb := rfl
@[simp] theorem Dev.signal_cam (v : Nat) : (d.signal v).cam = d.cam := rfl
@[simp] theorem Dev.signal_upl (v : Nat) : (d.signal v).upl = d.upl := rfl
@[simp] theorem Dev.signal_recd (v : Nat) : (d.signal v).recd = d.recd := rfl
@[simp] theorem Dev.signal_upd (v : Nat) : (d.signal v).upd = d.upd := rfl
@[simp] theorem Dev.signal_freeCtr (v : Nat) : (d.signal v).freeCtr = d.freeCtr := rfl

/-! ### withdrawOp -/

@[simp] theorem Dev.withdrawOp_clock (p : HeavyOp → Bool) : (d.withdrawOp p).clock = d.clock := rfl
@[simp] theorem Dev.withdrawOp_dev (p : HeavyOp → Bool) : (d.withdrawOp p).dev = d.dev := rfl
@[simp] theorem Dev.withdrawOp_host (p : HeavyOp → Bool) : (d.withdrawOp p).host = d.host := rfl
@[simp] theorem Dev.withdrawOp_ev (p : HeavyOp → Bool) : (d.withdrawOp p).ev = d.ev := rfl
@[simp] theorem Dev.withdrawOp_ctr (p : HeavyOp → Bool) : (d.withdrawOp p).ctr = d.ctr := rfl
@[simp] theorem Dev.withdrawOp_dbg (p : HeavyOp → Bool) : (d.withdrawOp p).dbg = d.dbg := rfl
@[simp] theorem Dev.withdrawOp_profile (p : HeavyOp → Bool) : (d.withdrawOp p).profile = d.profile := rfl
@[simp] theorem Dev.withdrawOp_flash (p : HeavyOp → Bool) : (d.withdrawOp p).flash = d.flash := rfl
@[simp] theorem Dev.withdrawOp_ref (p : HeavyOp → Bool) : (d.withdrawOp p).ref = d.ref := rfl
@[simp] theorem Dev.withdrawOp_trees (p : HeavyOp → Bool) : (d.withdrawOp p).trees = d.trees := rfl
@[simp] theorem Dev.withdrawOp_lines (p : HeavyOp → Bool) : (d.withdrawOp p).lines = d.lines := rfl
@[simp] theorem Dev.withdrawOp_sec (p : HeavyOp → Bool) : (d.withdrawOp p).sec = d.sec := rfl
@[simp] theorem Dev.withdrawOp_pool (p : HeavyOp → Bool) : (d.withdrawOp p).pool = d.pool := rfl
@[simp] theorem Dev.withdrawOp_sched (p : HeavyOp → Bool) : (d.withdrawOp p).sched = d.sched := rfl
@[simp] theorem Dev.withdrawOp_cfg (p : HeavyOp → Bool) : (d.withdrawOp p).cfg = d.cfg := rfl
@[simp] theorem Dev.withdrawOp_prot (p : HeavyOp → Bool) : (d.withdrawOp p).prot = d.prot := rfl
@[simp] theorem Dev.withdrawOp_time (p : HeavyOp → Bool) : (d.withdrawOp p).time = d.time := rfl
@[simp] theorem Dev.withdrawOp_tow (p : HeavyOp → Bool) : (d.withdrawOp p).tow = d.tow := rfl
@[simp] theorem Dev.withdrawOp_cls (p : HeavyOp → Bool) : (d.withdrawOp p).cls = d.cls := rfl
@[simp] theorem Dev.withdrawOp_fdb (p : HeavyOp → Bool) : (d.withdrawOp p).fdb = d.fdb := rfl
@[simp] theorem Dev.withdrawOp_cam (p : HeavyOp → Bool) : (d.withdrawOp p).cam = d.cam := rfl
@[simp] theorem Dev.withdrawOp_upl (p : HeavyOp → Bool) : (d.withdrawOp p).upl = d.upl := rfl
@[simp] theorem Dev.withdrawOp_recd (p : HeavyOp → Bool) : (d.withdrawOp p).recd = d.recd := rfl
@[simp] theorem Dev.withdrawOp_upd (p : HeavyOp → Bool) : (d.withdrawOp p).upd = d.upd := rfl
@[simp] theorem Dev.withdrawOp_freeCtr (p : HeavyOp → Bool) : (d.withdrawOp p).freeCtr = d.freeCtr := rfl

/-! ### endOp -/

@[simp] theorem Dev.endOp_clock (p : HeavyOp → Bool) : (d.endOp p).clock = d.clock := rfl
@[simp] theorem Dev.endOp_dev (p : HeavyOp → Bool) : (d.endOp p).dev = d.dev := rfl
@[simp] theorem Dev.endOp_host (p : HeavyOp → Bool) : (d.endOp p).host = d.host := rfl
@[simp] theorem Dev.endOp_ev (p : HeavyOp → Bool) : (d.endOp p).ev = d.ev := rfl
@[simp] theorem Dev.endOp_ctr (p : HeavyOp → Bool) : (d.endOp p).ctr = d.ctr := rfl
@[simp] theorem Dev.endOp_dbg (p : HeavyOp → Bool) : (d.endOp p).dbg = d.dbg := rfl
@[simp] theorem Dev.endOp_profile (p : HeavyOp → Bool) : (d.endOp p).profile = d.profile := rfl
@[simp] theorem Dev.endOp_flash (p : HeavyOp → Bool) : (d.endOp p).flash = d.flash := rfl
@[simp] theorem Dev.endOp_ref (p : HeavyOp → Bool) : (d.endOp p).ref = d.ref := rfl
@[simp] theorem Dev.endOp_trees (p : HeavyOp → Bool) : (d.endOp p).trees = d.trees := rfl
@[simp] theorem Dev.endOp_lines (p : HeavyOp → Bool) : (d.endOp p).lines = d.lines := rfl
@[simp] theorem Dev.endOp_sec (p : HeavyOp → Bool) : (d.endOp p).sec = d.sec := rfl
@[simp] theorem Dev.endOp_pool (p : HeavyOp → Bool) : (d.endOp p).pool = d.pool := rfl
@[simp] theorem Dev.endOp_sched (p : HeavyOp → Bool) : (d.endOp p).sched = d.sched := rfl
@[simp] theorem Dev.endOp_cfg (p : HeavyOp → Bool) : (d.endOp p).cfg = d.cfg := rfl
@[simp] theorem Dev.endOp_prot (p : HeavyOp → Bool) : (d.endOp p).prot = d.prot := rfl
@[simp] theorem Dev.endOp_time (p : HeavyOp → Bool) : (d.endOp p).time = d.time := rfl
@[simp] theorem Dev.endOp_tow (p : HeavyOp → Bool) : (d.endOp p).tow = d.tow := rfl
@[simp] theorem Dev.endOp_cls (p : HeavyOp → Bool) : (d.endOp p).cls = d.cls := rfl
@[simp] theorem Dev.endOp_fdb (p : HeavyOp → Bool) : (d.endOp p).fdb = d.fdb := rfl
@[simp] theorem Dev.endOp_cam (p : HeavyOp → Bool) : (d.endOp p).cam = d.cam := rfl
@[simp] theorem Dev.endOp_upl (p : HeavyOp → Bool) : (d.endOp p).upl = d.upl := rfl
@[simp] theorem Dev.endOp_recd (p : HeavyOp → Bool) : (d.endOp p).recd = d.recd := rfl
@[simp] theorem Dev.endOp_upd (p : HeavyOp → Bool) : (d.endOp p).upd = d.upd := rfl
@[simp] theorem Dev.endOp_freeCtr (p : HeavyOp → Bool) : (d.endOp p).freeCtr = d.freeCtr := rfl

/-! ### countTerm -/

@[simp] theorem Dev.countTerm_clock (t : Nat) (id : Option Nat) (st : Stat) (n : Nat) : (d.countTerm t id st n).clock = d.clock := by cases id <;> rfl
@[simp] theorem Dev.countTerm_dev (t : Nat) (id : Option Nat) (st : Stat) (n : Nat) : (d.countTerm t id st n).dev = d.dev := by cases id <;> rfl
@[simp] theorem Dev.countTerm_host (t : Nat) (id : Option Nat) (st : Stat) (n : Nat) : (d.countTerm t id st n).host = d.host := by cases id <;> rfl
@[simp] theorem Dev.countTerm_ev (t : Nat) (id : Option Nat) (st : Stat) (n : Nat) : (d.countTerm t id st n).ev = d.ev := by cases id <;> rfl
@[simp] theorem Dev.countTerm_sluice (t : Nat) (id : Option Nat) (st : Stat) (n : Nat) : (d.countTerm t id st n).sluice = d.sluice := by cases id <;> rfl
@[simp] theorem Dev.countTerm_dbg (t : Nat) (id : Option Nat) (st : Stat) (n : Nat) : (d.countTerm t id st n).dbg = d.dbg := by cases id <;> rfl
@[simp] theorem Dev.countTerm_profile (t : Nat) (id : Option Nat) (st : Stat) (n : Nat) : (d.countTerm t id st n).profile = d.profile := by cases id <;> rfl
@[simp] theorem Dev.countTerm_flash (t : Nat) (id : Option Nat) (st : Stat) (n : Nat) : (d.countTerm t id st n).flash = d.flash := by cases id <;> rfl
@[simp] theorem Dev.countTerm_ref (t : Nat) (id : Option Nat) (st : Stat) (n : Nat) : (d.countTerm t id st n).ref = d.ref := by cases id <;> rfl
@[simp] theorem Dev.countTerm_trees (t : Nat) (id : Option Nat) (st : Stat) (n : Nat) : (d.countTerm t id st n).trees = d.trees := by cases id <;> rfl
@[simp] theorem Dev.countTerm_lines (t : Nat) (id : Option Nat) (st : Stat) (n : Nat) : (d.countTerm t id st n).lines = d.lines := by cases id <;> rfl
@[simp] theorem Dev.countTerm_sec (t : Nat) (id : Option Nat) (st : Stat) (n : Nat) : (d.countTerm t id st n).sec = d.sec := by cases id <;> rfl
@[simp] theorem Dev.countTerm_pool (t : Nat) (id : Option Nat) (st : Stat) (n : Nat) : (d.countTerm t id st n).pool = d.pool := by cases id <;> rfl
@[simp] theorem Dev.countTerm_sched (t : Nat) (id : Option Nat) (st : Stat) (n : Nat) : (d.countTerm t id st n).sched = d.sched := by cases id <;> rfl
@[simp] theorem Dev.countTerm_cfg (t : Nat) (id : Option Nat) (st : Stat) (n : Nat) : (d.countTerm t id st n).cfg = d.cfg := by cases id <;> rfl
@[simp] theorem Dev.countTerm_prot (t : Nat) (id : Option Nat) (st : Stat) (n : Nat) : (d.countTerm t id st n).prot = d.prot := by cases id <;> rfl
@[simp] theorem Dev.countTerm_time (t : Nat) (id : Option Nat) (st : Stat) (n : Nat) : (d.countTerm t id st n).time = d.time := by cases id <;> rfl
@[simp] theorem Dev.countTerm_tow (t : Nat) (id : Option Nat) (st : Stat) (n : Nat) : (d.countTerm t id st n).tow = d.tow := by cases id <;> rfl
@[simp] theorem Dev.countTerm_cls (t : Nat) (id : Option Nat) (st : Stat) (n : Nat) : (d.countTerm t id st n).cls = d.cls := by cases id <;> rfl
@[simp] theorem Dev.countTerm_fdb (t : Nat) (id : Option Nat) (st : Stat) (n : Nat) : (d.countTerm t id st n).fdb = d.fdb := by cases id <;> rfl
@[simp] theorem Dev.countTerm_cam (t : Nat) (id : Option Nat) (st : Stat) (n : Nat) : (d.countTerm t id st n).cam = d.cam := by cases id <;> rfl
@[simp] theorem Dev.countTerm_upl (t : Nat) (id : Option Nat) (st : Stat) (n : Nat) : (d.countTerm t id st n).upl = d.upl := by cases id <;> rfl
@[simp] theorem Dev.countTerm_recd (t : Nat) (id : Option Nat) (st : Stat) (n : Nat) : (d.countTerm t id st n).recd = d.recd := by cases id <;> rfl
@[simp] theorem Dev.countTerm_upd (t : Nat) (id : Option Nat) (st : Stat) (n : Nat) : (d.countTerm t id st n).upd = d.upd := by cases id <;> rfl
@[simp] theorem Dev.countTerm_freeCtr (t : Nat) (id : Option Nat) (st : Stat) (n : Nat) : (d.countTerm t id st n).freeCtr = d.freeCtr := by cases id <;> rfl

/-! ### completeOpt -/

@[simp] theorem Dev.completeOpt_clock (r : Option CmdRef) (st : Status) (b : Bytes) : (d.completeOpt r st b).clock = d.clock := by cases r <;> rfl
@[simp] theorem Dev.completeOpt_dev (r : Option CmdRef) (st : Status) (b : Bytes) : (d.completeOpt r st b).dev = d.dev := by cases r <;> rfl
@[simp] theorem Dev.completeOpt_ev (r : Option CmdRef) (st : Status) (b : Bytes) : (d.completeOpt r st b).ev = d.ev := by cases r <;> rfl
@[simp] theorem Dev.completeOpt_ctr (r : Option CmdRef) (st : Status) (b : Bytes) : (d.completeOpt r st b).ctr = d.ctr := by cases r <;> rfl
@[simp] theorem Dev.completeOpt_sluice (r : Option CmdRef) (st : Status) (b : Bytes) : (d.completeOpt r st b).sluice = d.sluice := by cases r <;> rfl
@[simp] theorem Dev.completeOpt_dbg (r : Option CmdRef) (st : Status) (b : Bytes) : (d.completeOpt r st b).dbg = d.dbg := by cases r <;> rfl
@[simp] theorem Dev.completeOpt_profile (r : Option CmdRef) (st : Status) (b : Bytes) : (d.completeOpt r st b).profile = d.profile := by cases r <;> rfl
@[simp] theorem Dev.completeOpt_flash (r : Option CmdRef) (st : Status) (b : Bytes) : (d.completeOpt r st b).flash = d.flash := by cases r <;> rfl
@[simp] theorem Dev.completeOpt_ref (r : Option CmdRef) (st : Status) (b : Bytes) : (d.completeOpt r st b).ref = d.ref := by cases r <;> rfl
@[simp] theorem Dev.completeOpt_trees (r : Option CmdRef) (st : Status) (b : Bytes) : (d.completeOpt r st b).trees = d.trees := by cases r <;> rfl
@[simp] theorem Dev.completeOpt_lines (r : Option CmdRef) (st : Status) (b : Bytes) : (d.completeOpt r st b).lines = d.lines := by cases r <;> rfl
@[simp] theorem Dev.completeOpt_sec (r : Option CmdRef) (st : Status) (b : Bytes) : (d.completeOpt r st b).sec = d.sec := by cases r <;> rfl
@[simp] theorem Dev.completeOpt_pool (r : Option CmdRef) (st : Status) (b : Bytes) : (d.completeOpt r st b).pool = d.pool := by cases r <;> rfl
@[simp] theorem Dev.completeOpt_sched (r : Option CmdRef) (st : Status) (b : Bytes) : (d.completeOpt r st b).sched = d.sched := by cases r <;> rfl
@[simp] theorem Dev.completeOpt_cfg (r : Option CmdRef) (st : Status) (b : Bytes) : (d.completeOpt r st b).cfg = d.cfg := by cases r <;> rfl
@[simp] theorem Dev.completeOpt_prot (r : Option CmdRef) (st : Status) (b : Bytes) : (d.completeOpt r st b).prot = d.prot := by cases r <;> rfl
@[simp] theorem Dev.completeOpt_time (r : Option CmdRef) (st : Status) (b : Bytes) : (d.completeOpt r st b).time = d.time := by cases r <;> rfl
@[simp] theorem Dev.completeOpt_tow (r : Option CmdRef) (st : Status) (b : Bytes) : (d.completeOpt r st b).tow = d.tow := by cases r <;> rfl
@[simp] theorem Dev.completeOpt_cls (r : Option CmdRef) (st : Status) (b : Bytes) : (d.completeOpt r st b).cls = d.cls := by cases r <;> rfl
@[simp] theorem Dev.completeOpt_fdb (r : Option CmdRef) (st : Status) (b : Bytes) : (d.completeOpt r st b).fdb = d.fdb := by cases r <;> rfl
@[simp] theorem Dev.completeOpt_cam (r : Option CmdRef) (st : Status) (b : Bytes) : (d.completeOpt r st b).cam = d.cam := by cases r <;> rfl
@[simp] theorem Dev.completeOpt_upl (r : Option CmdRef) (st : Status) (b : Bytes) : (d.completeOpt r st b).upl = d.upl := by cases r <;> rfl
@[simp] theorem Dev.completeOpt_recd (r : Option CmdRef) (st : Status) (b : Bytes) : (d.completeOpt r st b).recd = d.recd := by cases r <;> rfl
@[simp] theorem Dev.completeOpt_upd (r : Option CmdRef) (st : Status) (b : Bytes) : (d.completeOpt r st b).upd = d.upd := by cases r <;> rfl
@[simp] theorem Dev.completeOpt_freeCtr (r : Option CmdRef) (st : Status) (b : Bytes) : (d.completeOpt r st b).freeCtr = d.freeCtr := by cases r <;> rfl

/-! ### raiseAt -/

@[simp] theorem Dev.raiseAt_clock (c src k : Nat) (fl : Bool) (i : Nat) (b : Bytes) : (d.raiseAt c src k fl i b).clock = d.clock := by unfold Dev.raiseAt; dsimp only; (repeat' split) <;> rfl
@[simp] theorem Dev.raiseAt_dev (c src k : Nat) (fl : Bool) (i : Nat) (b : Bytes) : (d.raiseAt c src k fl i b).dev = d.dev := by unfold Dev.raiseAt; dsimp only; (repeat' split) <;> rfl
@[simp] theorem Dev.raiseAt_sluice (c src k : Nat) (fl : Bool) (i : Nat) (b : Bytes) : (d.raiseAt c src k fl i b).sluice = d.sluice := by unfold Dev.raiseAt; dsimp only; (repeat' split) <;> rfl
@[simp] theorem Dev.raiseAt_dbg (c src k : Nat) (fl : Bool) (i : Nat) (b : Bytes) : (d.raiseAt c src k fl i b).dbg = d.dbg := by unfold Dev.raiseAt; dsimp only; (repeat' split) <;> rfl
@[simp] theorem Dev.raiseAt_profile (c src k : Nat) (fl : Bool) (i : Nat) (b : Bytes) : (d.raiseAt c src k fl i b).profile = d.profile := by unfold Dev.raiseAt; dsimp only; (repeat' split) <;> rfl
@[simp] theorem Dev.raiseAt_flash (c src k : Nat) (fl : Bool) (i : Nat) (b : Bytes) : (d.raiseAt c src k fl i b).flash = d.flash := by unfold Dev.raiseAt; dsimp only; (repeat' split) <;> rfl
@[simp] theorem Dev.raiseAt_ref (c src k : Nat) (fl : Bool) (i : Nat) (b : Bytes) : (d.raiseAt c src k fl i b).ref = d.ref := by unfold Dev.raiseAt; dsimp only; (repeat' split) <;> rfl
@[simp] theorem Dev.raiseAt_trees (c src k : Nat) (fl : Bool) (i : Nat) (b : Bytes) : (d.raiseAt c src k fl i b).trees = d.trees := by unfold Dev.raiseAt; dsimp only; (repeat' split) <;> rfl
@[simp] theorem Dev.raiseAt_lines (c src k : Nat) (fl : Bool) (i : Nat) (b : Bytes) : (d.raiseAt c src k fl i b).lines = d.lines := by unfold Dev.raiseAt; dsimp only; (repeat' split) <;> rfl
@[simp] theorem Dev.raiseAt_sec (c src k : Nat) (fl : Bool) (i : Nat) (b : Bytes) : (d.raiseAt c src k fl i b).sec = d.sec := by unfold Dev.raiseAt; dsimp only; (repeat' split) <;> rfl
@[simp] theorem Dev.raiseAt_pool (c src k : Nat) (fl : Bool) (i : Nat) (b : Bytes) : (d.raiseAt c src k fl i b).pool = d.pool := by unfold Dev.raiseAt; dsimp only; (repeat' split) <;> rfl
@[simp] theorem Dev.raiseAt_sched (c src k : Nat) (fl : Bool) (i : Nat) (b : Bytes) : (d.raiseAt c src k fl i b).sched = d.sched := by unfold Dev.raiseAt; dsimp only; (repeat' split) <;> rfl
@[simp] theorem Dev.raiseAt_cfg (c src k : Nat) (fl : Bool) (i : Nat) (b : Bytes) : (d.raiseAt c src k fl i b).cfg = d.cfg := by unfold Dev.raiseAt; dsimp only; (repeat' split) <;> rfl
@[simp] theorem Dev.raiseAt_prot (c src k : Nat) (fl : Bool) (i : Nat) (b : Bytes) : (d.raiseAt c src k fl i b).prot = d.prot := by unfold Dev.raiseAt; dsimp only; (repeat' split) <;> rfl
@[simp] theorem Dev.raiseAt_time (c src k : Nat) (fl : Bool) (i : Nat) (b : Bytes) : (d.raiseAt c src k fl i b).time = d.time := by unfold Dev.raiseAt; dsimp only; (repeat' split) <;> rfl
@[simp] theorem Dev.raiseAt_tow (c src k : Nat) (fl : Bool) (i : Nat) (b : Bytes) : (d.raiseAt c src k fl i b).tow = d.tow := by unfold Dev.raiseAt; dsimp only; (repeat' split) <;> rfl
@[simp] theorem Dev.raiseAt_cls (c src k : Nat) (fl : Bool) (i : Nat) (b : Bytes) : (d.raiseAt c src k fl i b).cls = d.cls := by unfold Dev.raiseAt; dsimp only; (repeat' split) <;> rfl
@[simp] theorem Dev.raiseAt_fdb (c src k : Nat) (fl : Bool) (i : Nat) (b : Bytes) : (d.raiseAt c src k fl i b).fdb = d.fdb := by unfold Dev.raiseAt; dsimp only; (repeat' split) <;> rfl
@[simp] theorem Dev.raiseAt_cam (c src k : Nat) (fl : Bool) (i : Nat) (b : Bytes) : (d.raiseAt c src k fl i b).cam = d.cam := by unfold Dev.raiseAt; dsimp only; (repeat' split) <;> rfl
@[simp] theorem Dev.raiseAt_upl (c src k : Nat) (fl : Bool) (i : Nat) (b : Bytes) : (d.raiseAt c src k fl i b).upl = d.upl := by unfold Dev.raiseAt; dsimp only; (repeat' split) <;> rfl
@[simp] theorem Dev.raiseAt_recd (c src k : Nat) (fl : Bool) (i : Nat) (b : Bytes) : (d.raiseAt c src k fl i b).recd = d.recd := by unfold Dev.raiseAt; dsimp only; (repeat' split) <;> rfl
@[simp] theorem Dev.raiseAt_upd (c src k : Nat) (fl : Bool) (i : Nat) (b : Bytes) : (d.raiseAt c src k fl i b).upd = d.upd := by unfold Dev.raiseAt; dsimp only; (repeat' split) <;> rfl
@[simp] theorem Dev.raiseAt_freeCtr (c src k : Nat) (fl : Bool) (i : Nat) (b : Bytes) : (d.raiseAt c src k fl i b).freeCtr = d.freeCtr := by unfold Dev.raiseAt; dsimp only; (repeat' split) <;> rfl

/-! ### raise -/

@[simp] theorem Dev.raise_clock (src : Nat) (b : Bytes) (k : Nat) (fl : Bool) (i : Nat) : (d.raise src b k fl i).clock = d.clock := by simp [Dev.raise]
@[simp] theorem Dev.raise_dev (src : Nat) (b : Bytes) (k : Nat) (fl : Bool) (i : Nat) : (d.raise src b k fl i).dev = d.dev := by simp [Dev.raise]
@[simp] theorem Dev.raise_sluice (src : Nat) (b : Bytes) (k : Nat) (fl : Bool) (i : Nat) : (d.raise src b k fl i).sluice = d.sluice := by simp [Dev.raise]
@[simp] theorem Dev.raise_dbg (src : Nat) (b : Bytes) (k : Nat) (fl : Bool) (i : Nat) : (d.raise src b k fl i).dbg = d.dbg := by simp [Dev.raise]
@[simp] theorem Dev.raise_profile (src : Nat) (b : Bytes) (k : Nat) (fl : Bool) (i : Nat) : (d.raise src b k fl i).profile = d.profile := by simp [Dev.raise]
@[simp] theorem Dev.raise_flash (src : Nat) (b : Bytes) (k : Nat) (fl : Bool) (i : Nat) : (d.raise src b k fl i).flash = d.flash := by simp [Dev.raise]
@[simp] theorem Dev.raise_ref (src : Nat) (b : Bytes) (k : Nat) (fl : Bool) (i : Nat) : (d.raise src b k fl i).ref = d.ref := by simp [Dev.raise]
@[simp] theorem Dev.raise_trees (src : Nat) (b : Bytes) (k : Nat) (fl : Bool) (i : Nat) : (d.raise src b k fl i).trees = d.trees := by simp [Dev.raise]
@[simp] theorem Dev.raise_lines (src : Nat) (b : Bytes) (k : Nat) (fl : Bool) (i : Nat) : (d.raise src b k fl i).lines = d.lines := by simp [Dev.raise]
@[simp] theorem Dev.raise_sec (src : Nat) (b : Bytes) (k : Nat) (fl : Bool) (i : Nat) : (d.raise src b k fl i).sec = d.sec := by simp [Dev.raise]
@[simp] theorem Dev.raise_pool (src : Nat) (b : Bytes) (k : Nat) (fl : Bool) (i : Nat) : (d.raise src b k fl i).pool = d.pool := by simp [Dev.raise]
@[simp] theorem Dev.raise_sched (src : Nat) (b : Bytes) (k : Nat) (fl : Bool) (i : Nat) : (d.raise src b k fl i).sched = d.sched := by simp [Dev.raise]
@[simp] theorem Dev.raise_cfg (src : Nat) (b : Bytes) (k : Nat) (fl : Bool) (i : Nat) : (d.raise src b k fl i).cfg = d.cfg := by simp [Dev.raise]
@[simp] theorem Dev.raise_prot (src : Nat) (b : Bytes) (k : Nat) (fl : Bool) (i : Nat) : (d.raise src b k fl i).prot = d.prot := by simp [Dev.raise]
@[simp] theorem Dev.raise_time (src : Nat) (b : Bytes) (k : Nat) (fl : Bool) (i : Nat) : (d.raise src b k fl i).time = d.time := by simp [Dev.raise]
@[simp] theorem Dev.raise_tow (src : Nat) (b : Bytes) (k : Nat) (fl : Bool) (i : Nat) : (d.raise src b k fl i).tow = d.tow := by simp [Dev.raise]
@[simp] theorem Dev.raise_cls (src : Nat) (b : Bytes) (k : Nat) (fl : Bool) (i : Nat) : (d.raise src b k fl i).cls = d.cls := by simp [Dev.raise]
@[simp] theorem Dev.raise_fdb (src : Nat) (b : Bytes) (k : Nat) (fl : Bool) (i : Nat) : (d.raise src b k fl i).fdb = d.fdb := by simp [Dev.raise]
@[simp] theorem Dev.raise_cam (src : Nat) (b : Bytes) (k : Nat) (fl : Bool) (i : Nat) : (d.raise src b k fl i).cam = d.cam := by simp [Dev.raise]
@[simp] theorem Dev.raise_upl (src : Nat) (b : Bytes) (k : Nat) (fl : Bool) (i : Nat) : (d.raise src b k fl i).upl = d.upl := by simp [Dev.raise]
@[simp] theorem Dev.raise_recd (src : Nat) (b : Bytes) (k : Nat) (fl : Bool) (i : Nat) : (d.raise src b k fl i).recd = d.recd := by simp [Dev.raise]
@[simp] theorem Dev.raise_upd (src : Nat) (b : Bytes) (k : Nat) (fl : Bool) (i : Nat) : (d.raise src b k fl i).upd = d.upd := by simp [Dev.raise]
@[simp] theorem Dev.raise_freeCtr (src : Nat) (b : Bytes) (k : Nat) (fl : Bool) (i : Nat) : (d.raise src b k fl i).freeCtr = d.freeCtr := by simp [Dev.raise]

/-! ### lineEvent -/

@[simp] theorem Dev.lineEvent_clock (t k : Nat) (i : Option Nat) : (d.lineEvent t k i).clock = d.clock := by simp [Dev.lineEvent]
@[simp] theorem Dev.lineEvent_dev (t k : Nat) (i : Option Nat) : (d.lineEvent t k i).dev = d.dev := by simp [Dev.lineEvent]
@[simp] theorem Dev.lineEvent_sluice (t k : Nat) (i : Option Nat) : (d.lineEvent t k i).sluice = d.sluice := by simp [Dev.lineEvent]
@[simp] theorem Dev.lineEvent_dbg (t k : Nat) (i : Option Nat) : (d.lineEvent t k i).dbg = d.dbg := by simp [Dev.lineEvent]
@[simp] theorem Dev.lineEvent_profile (t k : Nat) (i : Option Nat) : (d.lineEvent t k i).profile = d.profile := by simp [Dev.lineEvent]
@[simp] theorem Dev.lineEvent_flash (t k : Nat) (i : Option Nat) : (d.lineEvent t k i).flash = d.flash := by simp [Dev.lineEvent]
@[simp] theorem Dev.lineEvent_ref (t k : Nat) (i : Option Nat) : (d.lineEvent t k i).ref = d.ref := by simp [Dev.lineEvent]
@[simp] theorem Dev.lineEvent_trees (t k : Nat) (i : Option Nat) : (d.lineEvent t k i).trees = d.trees := by simp [Dev.lineEvent]
@[simp] theorem Dev.lineEvent_lines (t k : Nat) (i : Option Nat) : (d.lineEvent t k i).lines = d.lines := by simp [Dev.lineEvent]
@[simp] theorem Dev.lineEvent_sec (t k : Nat) (i : Option Nat) : (d.lineEvent t k i).sec = d.sec := by simp [Dev.lineEvent]
@[simp] theorem Dev.lineEvent_pool (t k : Nat) (i : Option Nat) : (d.lineEvent t k i).pool = d.pool := by simp [Dev.lineEvent]
@[simp] theorem Dev.lineEvent_sched (t k : Nat) (i : Option Nat) : (d.lineEvent t k i).sched = d.sched := by simp [Dev.lineEvent]
@[simp] theorem Dev.lineEvent_cfg (t k : Nat) (i : Option Nat) : (d.lineEvent t k i).cfg = d.cfg := by simp [Dev.lineEvent]
@[simp] theorem Dev.lineEvent_prot (t k : Nat) (i : Option Nat) : (d.lineEvent t k i).prot = d.prot := by simp [Dev.lineEvent]
@[simp] theorem Dev.lineEvent_time (t k : Nat) (i : Option Nat) : (d.lineEvent t k i).time = d.time := by simp [Dev.lineEvent]
@[simp] theorem Dev.lineEvent_tow (t k : Nat) (i : Option Nat) : (d.lineEvent t k i).tow = d.tow := by simp [Dev.lineEvent]
@[simp] theorem Dev.lineEvent_cls (t k : Nat) (i : Option Nat) : (d.lineEvent t k i).cls = d.cls := by simp [Dev.lineEvent]
@[simp] theorem Dev.lineEvent_fdb (t k : Nat) (i : Option Nat) : (d.lineEvent t k i).fdb = d.fdb := by simp [Dev.lineEvent]
@[simp] theorem Dev.lineEvent_cam (t k : Nat) (i : Option Nat) : (d.lineEvent t k i).cam = d.cam := by simp [Dev.lineEvent]
@[simp] theorem Dev.lineEvent_upl (t k : Nat) (i : Option Nat) : (d.lineEvent t k i).upl = d.upl := by simp [Dev.lineEvent]
@[simp] theorem Dev.lineEvent_recd (t k : Nat) (i : Option Nat) : (d.lineEvent t k i).recd = d.recd := by simp [Dev.lineEvent]
@[simp] theorem Dev.lineEvent_upd (t k : Nat) (i : Option Nat) : (d.lineEvent t k i).upd = d.upd := by simp [Dev.lineEvent]
@[simp] theorem Dev.lineEvent_freeCtr (t k : Nat) (i : Option Nat) : (d.lineEvent t k i).freeCtr = d.freeCtr := by simp [Dev.lineEvent]

/-! ### discEvent -/

@[simp] theorem Dev.discEvent_clock (t k : Nat) (i : Option Nat) (b : Bytes) : (d.discEvent t k i b).clock = d.clock := by simp [Dev.discEvent]
@[simp] theorem Dev.discEvent_dev (t k : Nat) (i : Option Nat) (b : Bytes) : (d.discEvent t k i b).dev = d.dev := by simp [Dev.discEvent]
@[simp] theorem Dev.discEvent_sluice (t k : Nat) (i : Option Nat) (b : Bytes) : (d.discEvent t k i b).sluice = d.sluice := by simp [Dev.discEvent]
@[simp] theorem Dev.discEvent_dbg (t k : Nat) (i : Option Nat) (b : Bytes) : (d.discEvent t k i b).dbg = d.dbg := by simp [Dev.discEvent]
@[simp] theorem Dev.discEvent_profile (t k : Nat) (i : Option Nat) (b : Bytes) : (d.discEvent t k i b).profile = d.profile := by simp [Dev.discEvent]
@[simp] theorem Dev.discEvent_flash (t k : Nat) (i : Option Nat) (b : Bytes) : (d.discEvent t k i b).flash = d.flash := by simp [Dev.discEvent]
@[simp] theorem Dev.discEvent_ref (t k : Nat) (i : Option Nat) (b : Bytes) : (d.discEvent t k i b).ref = d.ref := by simp [Dev.discEvent]
@[simp] theorem Dev.discEvent_trees (t k : Nat) (i : Option Nat) (b : Bytes) : (d.discEvent t k i b).trees = d.trees := by simp [Dev.discEvent]
@[simp] theorem Dev.discEvent_lines (t k : Nat) (i : Option Nat) (b : Bytes) : (d.discEvent t k i b).lines = d.lines := by simp [Dev.discEvent]
@[simp] theorem Dev.discEvent_sec (t k : Nat) (i : Option Nat) (b : Bytes) : (d.discEvent t k i b).sec = d.sec := by simp [Dev.discEvent]
@[simp] theorem Dev.discEvent_pool (t k : Nat) (i : Option Nat) (b : Bytes) : (d.discEvent t k i b).pool = d.pool := by simp [Dev.discEvent]
@[simp] theorem Dev.discEvent_sched (t k : Nat) (i : Option Nat) (b : Bytes) : (d.discEvent t k i b).sched = d.sched := by simp [Dev.discEvent]
@[simp] theorem Dev.discEvent_cfg (t k : Nat) (i : Option Nat) (b : Bytes) : (d.discEvent t k i b).cfg = d.cfg := by simp [Dev.discEvent]
@[simp] theorem Dev.discEvent_prot (t k : Nat) (i : Option Nat) (b : Bytes) : (d.discEvent t k i b).prot = d.prot := by simp [Dev.discEvent]
@[simp] theorem Dev.discEvent_time (t k : Nat) (i : Option Nat) (b : Bytes) : (d.discEvent t k i b).time = d.time := by simp [Dev.discEvent]
@[simp] theorem Dev.discEvent_tow (t k : Nat) (i : Option Nat) (b : Bytes) : (d.discEvent t k i b).tow = d.tow := by simp [Dev.discEvent]
@[simp] theorem Dev.discEvent_cls (t k : Nat) (i : Option Nat) (b : Bytes) : (d.discEvent t k i b).cls = d.cls := by simp [Dev.discEvent]
@[simp] theorem Dev.discEvent_fdb (t k : Nat) (i : Option Nat) (b : Bytes) : (d.discEvent t k i b).fdb = d.fdb := by simp [Dev.discEvent]
@[simp] theorem Dev.discEvent_cam (t k : Nat) (i : Option Nat) (b : Bytes) : (d.discEvent t k i b).cam = d.cam := by simp [Dev.discEvent]
@[simp] theorem Dev.discEvent_upl (t k : Nat) (i : Option Nat) (b : Bytes) : (d.discEvent t k i b).upl = d.upl := by simp [Dev.discEvent]
@[simp] theorem Dev.discEvent_recd (t k : Nat) (i : Option Nat) (b : Bytes) : (d.discEvent t k i b).recd = d.recd := by simp [Dev.discEvent]
@[simp] theorem Dev.discEvent_upd (t k : Nat) (i : Option Nat) (b : Bytes) : (d.discEvent t k i b).upd = d.upd := by simp [Dev.discEvent]
@[simp] theorem Dev.discEvent_freeCtr (t k : Nat) (i : Option Nat) (b : Bytes) : (d.discEvent t k i b).freeCtr = d.freeCtr := by simp [Dev.discEvent]

/-! ### schedEvent -/

@[simp] theorem Dev.schedEvent_clock (t k : Nat) (i : Option Nat) (b : Bytes) : (d.schedEvent t k i b).clock = d.clock := by simp [Dev.schedEvent]
@[simp] theorem Dev.schedEvent_dev (t k : Nat) (i : Option Nat) (b : Bytes) : (d.schedEvent t k i b).dev = d.dev := by simp [Dev.schedEvent]
@[simp] theorem Dev.schedEvent_sluice (t k : Nat) (i : Option Nat) (b : Bytes) : (d.schedEvent t k i b).sluice = d.sluice := by simp [Dev.schedEvent]
@[simp] theorem Dev.schedEvent_dbg (t k : Nat) (i : Option Nat) (b : Bytes) : (d.schedEvent t k i b).dbg = d.dbg := by simp [Dev.schedEvent]
@[simp] theorem Dev.schedEvent_profile (t k : Nat) (i : Option Nat) (b : Bytes) : (d.schedEvent t k i b).profile = d.profile := by simp [Dev.schedEvent]
@[simp] theorem Dev.schedEvent_flash (t k : Nat) (i : Option Nat) (b : Bytes) : (d.schedEvent t k i b).flash = d.flash := by simp [Dev.schedEvent]
@[simp] theorem Dev.schedEvent_ref (t k : Nat) (i : Option Nat) (b : Bytes) : (d.schedEvent t k i b).ref = d.ref := by simp [Dev.schedEvent]
@[simp] theorem Dev.schedEvent_trees (t k : Nat) (i : Option Nat) (b : Bytes) : (d.schedEvent t k i b).trees = d.trees := by simp [Dev.schedEvent]
@[simp] theorem Dev.schedEvent_lines (t k : Nat) (i : Option Nat) (b : Bytes) : (d.schedEvent t k i b).lines = d.lines := by simp [Dev.schedEvent]
@[simp] theorem Dev.schedEvent_sec (t k : Nat) (i : Option Nat) (b : Bytes) : (d.schedEvent t k i b).sec = d.sec := by simp [Dev.schedEvent]
@[simp] theorem Dev.schedEvent_pool (t k : Nat) (i : Option Nat) (b : Bytes) : (d.schedEvent t k i b).pool = d.pool := by simp [Dev.schedEvent]
@[simp] theorem Dev.schedEvent_sched (t k : Nat) (i : Option Nat) (b : Bytes) : (d.schedEvent t k i b).sched = d.sched := by simp [Dev.schedEvent]
@[simp] theorem Dev.schedEvent_cfg (t k : Nat) (i : Option Nat) (b : Bytes) : (d.schedEvent t k i b).cfg = d.cfg := by simp [Dev.schedEvent]
@[simp] theorem Dev.schedEvent_prot (t k : Nat) (i : Option Nat) (b : Bytes) : (d.schedEvent t k i b).prot = d.prot := by simp [Dev.schedEvent]
@[simp] theorem Dev.schedEvent_time (t k : Nat) (i : Option Nat) (b : Bytes) : (d.schedEvent t k i b).time = d.time := by simp [Dev.schedEvent]
@[simp] theorem Dev.schedEvent_tow (t k : Nat) (i : Option Nat) (b : Bytes) : (d.schedEvent t k i b).tow = d.tow := by simp [Dev.schedEvent]
@[simp] theorem Dev.schedEvent_cls (t k : Nat) (i : Option Nat) (b : Bytes) : (d.schedEvent t k i b).cls = d.cls := by simp [Dev.schedEvent]
@[simp] theorem Dev.schedEvent_fdb (t k : Nat) (i : Option Nat) (b : Bytes) : (d.schedEvent t k i b).fdb = d.fdb := by simp [Dev.schedEvent]
@[simp] theorem Dev.schedEvent_cam (t k : Nat) (i : Option Nat) (b : Bytes) : (d.schedEvent t k i b).cam = d.cam := by simp [Dev.schedEvent]
@[simp] theorem Dev.schedEvent_upl (t k : Nat) (i : Option Nat) (b : Bytes) : (d.schedEvent t k i b).upl = d.upl := by simp [Dev.schedEvent]
@[simp] theorem Dev.schedEvent_recd (t k : Nat) (i : Option Nat) (b : Bytes) : (d.schedEvent t k i b).recd = d.recd := by simp [Dev.schedEvent]
@[simp] theorem Dev.schedEvent_upd (t k : Nat) (i : Option Nat) (b : Bytes) : (d.schedEvent t k i b).upd = d.upd := by simp [Dev.schedEvent]
@[simp] theorem Dev.schedEvent_freeCtr (t k : Nat) (i : Option Nat) (b : Bytes) : (d.schedEvent t k i b).freeCtr = d.freeCtr := by simp [Dev.schedEvent]

/-! ### States -/

@[simp] theorem State.withDev_dev (s : State) (d : Dev) : (s.withDev d).dev = d := rfl
@[simp] theorem State.withDev_pending (s : State) (d : Dev) : (s.withDev d).pending = s.pending := rfl
@[simp] theorem State.withDev_hostMem (s : State) (d : Dev) : (s.withDev d).hostMem = s.hostMem := rfl
@[simp] theorem State.answered_pending (s : State) (c : Nat) (st : Status) (b : Bytes) : (s.answered c st b).pending = s.pending := rfl
@[simp] theorem State.answered_hostMem (s : State) (c : Nat) (st : Status) (b : Bytes) : (s.answered c st b).hostMem = s.hostMem := rfl
@[simp] theorem State.done_pending (s : State) (c : Nat) (f : Dev → Dev) (b : Bytes) : (s.done c f b).pending = s.pending := rfl
@[simp] theorem State.done_hostMem (s : State) (c : Nat) (f : Dev → Dev) (b : Bytes) : (s.done c f b).hostMem = s.hostMem := rfl
@[simp] theorem State.waiting_pending (s : State) (c : Nat) (x : CfgChange) : (s.waiting c x).pending = s.pending := rfl
@[simp] theorem State.waiting_hostMem (s : State) (c : Nat) (x : CfgChange) : (s.waiting c x).hostMem = s.hostMem := rfl

/-! ### Accessors -/

@[simp] theorem Dev.now_def : d.now = d.clock.cycle := rfl

end Sys2Proof.Machine
end

