-- ==== Sys2Proof/Laws/Ops.lean ====
section
/-!
SUPPORT. What the shared operations can do, said once: host memory (the canonical form, read after write), an event (R444), a mailbox command (R439, R440), a
request to Sluice (R494).
-/
namespace Sys2Proof.Machine
open Sys2Proof

/-! ### Host memory -/

/-- What a list of cells must meet for a cell at `a` in front of it. -/
theorem memWf_cons (a : Nat) (v : Byte) (m : List Host.Cell) :
    memWf ((a, v) :: m) = true ↔ (∀ c ∈ m.head?, a < c.1) ∧ memWf m = true := by
  cases m with
  | nil => simp [memWf]
  | cons c t => simp [memWf]

/-- The address at the head of memory after a write. -/
theorem memPut_head (m : List Host.Cell) (a : Nat) (b : Byte) :
    (∀ k, k < a → (∀ c ∈ m.head?, k < c.1) → ∀ c ∈ (memPut m a b).head?, k < c.1) := by
  intro k hk hm c hc
  cases m with
  | nil => simp [memPut] at hc; subst hc; simpa using hk
  | cons e t =>
    simp only [memPut] at hc
    split at hc
    · simp at hc; subst hc; exact hk
    · split at hc
      · simp at hc; subst hc; exact hk
      · simp at hc; subst hc; exact hm _ (by simp)

/-- Writing one byte keeps the canonical form. -/
theorem memWf_put (m : List Host.Cell) (a : Nat) (b : Byte) (h : memWf m = true) : memWf (memPut m a b) = true := by
  induction m with
  | nil => rfl
  | cons e t ih =>
    obtain ⟨k, v⟩ := e
    rw [memWf_cons] at h
    simp only [memPut]
    split
    · rw [memWf_cons]; exact ⟨by simpa using ‹a < k›, (memWf_cons _ _ _).2 h⟩
    · split
      · subst_vars; exact (memWf_cons _ _ _).2 h
      · exact (memWf_cons _ _ _).2 ⟨memPut_head t a b k (by omega) h.1, ih h.2⟩

/-- Writing bytes keeps the canonical form. -/
theorem memWf_write (bs : Bytes) (m : List Host.Cell) (a : Nat) (h : memWf m = true) : memWf (memWrite m a bs) = true := by
  induction bs generalizing m a with
  | nil => exact h
  | cons b t ih => exact ih _ _ (memWf_put m a b h)

/-- A byte reads as it was written. -/
theorem memRead_put_same (m : List Host.Cell) (a : Nat) (b : Byte) : memRead (memPut m a b) a = some b := by
  induction m with
  | nil => simp [memPut, memRead]
  | cons e t ih =>
    obtain ⟨k, v⟩ := e
    simp only [memPut]
    split
    · simp [memRead]
    · split
      · simp [memRead]
      · simp [memRead, *]

/-- A write leaves every other byte. -/
theorem memRead_put_other (m : List Host.Cell) (a x : Nat) (b : Byte) (h : x ≠ a) : memRead (memPut m a b) x = memRead m x := by
  induction m with
  | nil => simp [memPut, memRead, h]
  | cons e t ih =>
    obtain ⟨k, v⟩ := e
    simp only [memPut]
    split
    · simp [memRead, h]
    · split
      · subst_vars; simp [memRead, h]
      · simp [memRead, ih]

/-- A write of several bytes leaves every byte outside them. -/
theorem memRead_write_outside (bs : Bytes) (m : List Host.Cell) (a x : Nat) (h : x < a ∨ a + bs.length ≤ x) :
    memRead (memWrite m a bs) x = memRead m x := by
  induction bs generalizing m a with
  | nil => rfl
  | cons b t ih =>
    have hl : (b :: t).length = t.length + 1 := rfl
    rw [memWrite, ih _ _ (by omega), memRead_put_other _ _ _ _ (by omega)]

/-! ### Tables -/

/-- The entry changed reads as changed. -/
theorem tget_tmod_same {α : Type} (l : Tbl α) (n : Nat) (f : α → α) : tget (tmod l n f) n = (tget l n).map f := by
  induction l with
  | nil => rfl
  | cons e t ih =>
    obtain ⟨k, v⟩ := e
    by_cases h : k = n
    · subst h; simp [tmod, tget]
    · have h' : ¬ n = k := fun e => h e.symm
      have ih' : tget (List.map (fun p => if p.1 = n then (p.1, f p.2) else p) t) n = Option.map f (tget t n) := ih
      simp [tmod, tget, h, h', ih']

/-- Another entry is left. -/
theorem tget_tmod_other {α : Type} (l : Tbl α) (n m : Nat) (f : α → α) (h : m ≠ n) : tget (tmod l n f) m = tget l m := by
  induction l with
  | nil => rfl
  | cons e t ih =>
    obtain ⟨k, v⟩ := e
    have ih' : tget (List.map (fun p => if p.1 = n then (p.1, f p.2) else p) t) m = tget t m := ih
    by_cases hk : k = n
    · subst hk; simp [tmod, tget, h, ih']
    · simp [tmod, tget, hk, ih']

/-- A tree that the device has reads as changed. -/
theorem tree_modTree (d : Dev) (t : Nat) (x : Tree) (f : Tree → Tree) (h : tget d.trees t = some x) :
    (d.modTree t f).tree t = f x := by
  simp [Dev.tree, Dev.modTree, tgetD, tget_tmod_same, h]

/-- The tree that the device has. -/
theorem tree_eq (d : Dev) (t : Nat) (x : Tree) (h : tget d.trees t = some x) : d.tree t = x := by simp [Dev.tree, tgetD, h]

/-- A change of one tree leaves the others. -/
theorem tree_modTree_other (d : Dev) (t u : Nat) (f : Tree → Tree) (h : u ≠ t) : (d.modTree t f).tree u = d.tree u := by
  simp [Dev.tree, Dev.modTree, tgetD, tget_tmod_other _ _ _ _ h]

theorem tget_tset_same {α : Type} (l : Tbl α) (n : Nat) (x : α) : tget (tset l n x) n = some x := by
  induction l with
  | nil => simp [tset, tget]
  | cons e t ih =>
    obtain ⟨k, v⟩ := e
    unfold tset
    split
    · simp [tget]
    · split
      · simp [tget]
      · rename_i h; simp [tget, h, ih]

theorem tget_tset_other {α : Type} (l : Tbl α) (n m : Nat) (x : α) (h : m ≠ n) : tget (tset l n x) m = tget l m := by
  induction l with
  | nil => simp [tset, tget, h]
  | cons e t ih =>
    obtain ⟨k, v⟩ := e
    unfold tset
    split
    · simp [tget, h]
    · split
      · rename_i hk; subst hk; simp [tget, h]
      · simp [tget, ih]

theorem tget_tdel_same {α : Type} (l : Tbl α) (n : Nat) : tget (tdel l n) n = none := by
  induction l with
  | nil => rfl
  | cons e t ih =>
    obtain ⟨k, v⟩ := e
    unfold tdel at *
    by_cases h : k = n
    · simp [h, ih]
    · simp [h, tget, ih, Ne.symm h]

/-- What a write to a table in canonical form leaves at its key. -/
theorem tgetD_tput_same {α : Type} [DecidableEq α] (l : Tbl α) (n : Nat) (x v : α) : tgetD (tput l n x v) n x = v := by
  unfold tput tgetD
  split
  · rename_i h; rw [tget_tdel_same, h]; rfl
  · rw [tget_tset_same]; rfl

theorem queue_modQueue (d : Dev) (q : Nat) (f : Queue → Queue) : (d.modQueue q f).queue q = f (d.queue q) :=
  tgetD_tput_same _ _ _ _

/-- Reading back what was set in a list. -/
theorem lget_lset_same {α : Type} (l : List α) (n : Nat) (x v : α) (h : n < l.length) : lget (lset l n x) n v = x := by
  induction l generalizing n with
  | nil => simp at h
  | cons a t ih =>
    cases n with
    | zero => rfl
    | succ m => exact ih m (by simpa using h)

/-- A changed Towpath link of the device reads as changed. -/
theorem link_modLink (d : Dev) (k : Nat) (f : TowLink → TowLink) (h : k < d.tow.links.length) : (d.modLink k f).link k = f (d.link k) :=
  lget_lset_same d.tow.links k (f (d.link k)) TowLink.reset h

theorem bucket_modBucket (d : Dev) (b : Nat) (f : Bucket → Bucket) : (d.modBucket b f).bucket b = f (d.bucket b) :=
  tgetD_tput_same _ _ _ _

/-! ### Events -/

/-- What raising an event can do (R444, R447): a masked source counts in EVT.MASKED; a ring that is disabled, or full staging, counts a loss of the ring; else
the record goes to staging. -/
theorem raiseAt_cases (d : Dev) (cycle src cause : Nat) (flag : Bool) (index : Nat) (data : Bytes) :
    d.raiseAt cycle src cause flag index data = d.countDev .evtMasked ∨
    d.raiseAt cycle src cause flag index data = d.modRing (tgetD d.ev.routes src 0) Ring.drop ∨
    ∃ l, d.raiseAt cycle src cause flag index data = { d with ev := { d.ev with staging := l } } := by
  unfold Dev.raiseAt
  dsimp only
  split
  · exact .inl rfl
  · split
    · exact .inr (.inl rfl)
    · split
      · exact .inr (.inl rfl)
      · exact .inr (.inr ⟨_, rfl⟩)

/-- Raising an event leaves Towpath alone. -/
@[simp] theorem raiseAt_tow (d : Dev) (cycle src cause : Nat) (flag : Bool) (index : Nat) (data : Bytes) :
    (d.raiseAt cycle src cause flag index data).tow = d.tow := by
  rcases raiseAt_cases d cycle src cause flag index data with h | h | ⟨l, h⟩ <;> rw [h] <;> rfl

/-- Raising an event leaves the recorder alone. -/
@[simp] theorem raiseAt_recd (d : Dev) (cycle src cause : Nat) (flag : Bool) (index : Nat) (data : Bytes) :
    (d.raiseAt cycle src cause flag index data).recd = d.recd := by
  rcases raiseAt_cases d cycle src cause flag index data with h | h | ⟨l, h⟩ <;> rw [h] <;> rfl

/-! ### Mailbox commands -/

/-- A served context begins its command and runs its body. -/
theorem mailbox_served {op : Nat} (d : Dev) (ctx : Nat) (body : CmdRef → Dev → Dev) (h : d.served ctx op = true) :
    d.mailbox ctx op body = body (d.refOf ctx) (d.begun ctx) := by
  unfold Dev.mailbox; rw [if_pos h]; rfl

/-- A context that is not served leaves the device as it was. -/
theorem mailbox_unserved {op : Nat} (d : Dev) (ctx : Nat) (body : CmdRef → Dev → Dev) (h : d.served ctx op = false) :
    d.mailbox ctx op body = d := by
  unfold Dev.mailbox; rw [if_neg (by simp [h])]

/-- A command that reads the host's data is served as the others outside D3hot (R431). -/
theorem mailboxDma_served {op : Nat} (d : Dev) (ctx : Nat) (body : CmdRef → Dev → Dev) (h : d.served ctx op = true) (h3 : d.host.d3 = false) :
    d.mailboxDma ctx op body = body (d.refOf ctx) (d.begun ctx) := by
  unfold Dev.mailboxDma; rw [if_neg (by simp [h3])]; exact mailbox_served d ctx body h

/-- In D3hot it waits (R431). -/
theorem mailboxDma_d3hot {op : Nat} (d : Dev) (ctx : Nat) (body : CmdRef → Dev → Dev) (h3 : d.host.d3 = true) : d.mailboxDma ctx op body = d := by
  unfold Dev.mailboxDma; rw [if_pos h3]

/-! ### Sluice -/

/-- What a request to Sluice can do (R494): refused and reported, or put at the end of the FIFO. -/
theorem request_cases (d : Dev) (op : HeavyOp) (index : Nat) (ref : Option CmdRef) :
    d.request op index ref = (d.notAdmitted index op.code, false) ∨
    ∃ r : SluiceReq, r.op = op ∧ r.ref = ref ∧
      d.request op index ref = ({ d with sluice := { d.sluice with fifo := d.sluice.fifo ++ [r] } }, true) := by
  unfold Dev.request
  split
  · exact .inl rfl
  · exact .inr ⟨_, rfl, rfl, rfl⟩

/-- A request with room in the FIFO and a cost that can ever fit waits. -/
theorem request_waits (d : Dev) (op : HeavyOp) (index : Nat) (ref : Option CmdRef) (h1 : d.sluice.fifo.length < 1024)
    (h2 : d.sluice.base + d.sluice.reserve + op.cost ≤ d.sluice.budget) :
    d.request op index ref =
      ({ d with sluice := { d.sluice with fifo := d.sluice.fifo ++ [{ op, index, since := d.clock.cycle, ref, reported := false }] } }, true) := by
  unfold Dev.request
  rw [if_neg (by omega)]

/-! ### DRR rings -/

/-- Changing queues one after another changes the pool's queues alone. -/
theorem modQueue_foldl (l : List Nat) (f : Queue → Queue) (d : Dev) :
    ∃ q, l.foldl (fun (d : Dev) n => d.modQueue n f) d = { d with pool := { d.pool with queues := q } } := by
  induction l generalizing d with
  | nil => exact ⟨_, rfl⟩
  | cons n t ih =>
    obtain ⟨v, e⟩ := ih (d.modQueue n f)
    exact ⟨v, by rw [List.foldl_cons, e]; rfl⟩

/-- Renewing the ring of a point changes the points and the queues alone. -/
theorem refreshDrr_cases (d : Dev) (p : Nat) (elig : List Nat) :
    ∃ a q, d.refreshDrr p elig = { d with sched := { d.sched with points := a }, pool := { d.pool with queues := q } } := by
  unfold Dev.refreshDrr
  dsimp only
  obtain ⟨q, h⟩ := modQueue_foldl ((d.point p).active.filter (fun q => !(elig.filter (fun q => decide (4 ≤ q % 8))).contains q)) (fun y => { y with credited := false }) d
  rw [h]
  exact ⟨_, _, rfl⟩

/-- What a change of the DRR levels can do (R208, R209): rings of points and marks of queues. -/
theorem syncDrr_cases (d : Dev) (now : Nat) (mine : Nat → Bool) :
    ∃ a q, d.syncDrr now mine = { d with sched := { d.sched with points := a }, pool := { d.pool with queues := q } } := by
  unfold Dev.syncDrr
  generalize d.drrPoints mine = l
  induction l generalizing d with
  | nil => exact ⟨_, _, rfl⟩
  | cons p t ih =>
    obtain ⟨a, q, h⟩ := refreshDrr_cases d p ((d.linked p).filter (fun q => d.eligible p now q))
    obtain ⟨a', q', e⟩ := ih (d.refreshDrr p ((d.linked p).filter (fun q => d.eligible p now q)))
    exact ⟨a', q', by rw [List.foldl_cons, e, h]⟩

/-! ### Profile entries -/

/-- Bringing entries of the uplink section into force changes the uplink state alone. -/
theorem applyEntry_foldl (l : List Nat) (d : Dev) : ∃ u, l.foldl Dev.applyEntry d = { d with upl := u } := by
  induction l generalizing d with
  | nil => exact ⟨_, rfl⟩
  | cons i t ih =>
    obtain ⟨u, h⟩ : ∃ u, d.applyEntry i = { d with upl := u } := by
      unfold Dev.applyEntry; dsimp only
      by_cases h : i < 8 ∧ d.uplinkCount ≤ i
      · exact ⟨d.upl, by rw [if_pos h]⟩
      · exact ⟨_, by rw [if_neg h]⟩
    obtain ⟨v, e⟩ := ih (d.applyEntry i)
    exact ⟨v, by rw [List.foldl_cons, e, h]⟩

end Sys2Proof.Machine
end

