-- ==== Sys2Proof/Laws/Begun.lean ====
section
/-!
SUPPORT. The device of a mailbox command that has begun: everything but the host interface is as before, so everything read from it is too.
-/
namespace Sys2Proof.Machine
open Sys2Proof

@[simp] theorem Dev.begun_flowOf' (d : Dev) (c : Nat) (t : Nat) (x : Term) (flow : Nat) : (d.begun c).flowOf t x flow = d.flowOf t x flow := rfl
@[simp] theorem Dev.begun_epochOk' (d : Dev) (c : Nat) (t epoch : Nat) : (d.begun c).epochOk t epoch = d.epochOk t epoch := rfl
@[simp] theorem Dev.begun_mirrorTree' (d : Dev) (c : Nat) (p : Port) : (d.begun c).mirrorTree p = d.mirrorTree p := rfl
@[simp] theorem Dev.begun_calPlace' (d : Dev) (c : Nat) (t : Nat) : (d.begun c).calPlace t = d.calPlace t := rfl
@[simp] theorem Dev.begun_slot' (d : Dev) (c : Nat) (i : Nat) : (d.begun c).slot i = d.slot i := rfl
@[simp] theorem Dev.begun_evalsTree' (d : Dev) (c : Nat) (t : Nat) : (d.begun c).evalsTree t = d.evalsTree t := rfl
@[simp] theorem Dev.begun_todSec' (d : Dev) (c : Nat) : (d.begun c).todSec  = d.todSec  := rfl
@[simp] theorem Dev.begun_pmEntity' (d : Dev) (c : Nat) (terminal : Bool) (t id : Nat) : (d.begun c).pmEntity terminal t id = d.pmEntity terminal t id := rfl
@[simp] theorem Dev.begun_defectsOf' (d : Dev) (c : Nat) (terminal : Bool) (t id : Nat) : (d.begun c).defectsOf terminal t id = d.defectsOf terminal t id := rfl
@[simp] theorem Dev.begun_headOf' (d : Dev) (c : Nat) (q : Nat) : (d.begun c).headOf q = d.headOf q := rfl
@[simp] theorem Dev.begun_firstLen' (d : Dev) (c : Nat) (p q : Nat) (f : Frm) : (d.begun c).firstLen p q f = d.firstLen p q f := rfl
@[simp] theorem Dev.begun_chargeHead' (d : Dev) (c : Nat) (p q : Nat) (f : Frm) : (d.begun c).chargeHead p q f = d.chargeHead p q f := rfl
@[simp] theorem Dev.begun_treeElig' (d : Dev) (c : Nat) (q : Nat) : (d.begun c).treeElig q = d.treeElig q := rfl
@[simp] theorem Dev.begun_txSa' (d : Dev) (c : Nat) (p : Nat) : (d.begun c).txSa p = d.txSa p := rfl
@[simp] theorem Dev.begun_gateFits' (d : Dev) (c : Nat) (p q now : Nat) (f : Frm) : (d.begun c).gateFits p q now f = d.gateFits p q now f := rfl
@[simp] theorem Dev.begun_upElig' (d : Dev) (c : Nat) (p q now : Nat) (f : Frm) : (d.begun c).upElig p q now f = d.upElig p q now f := rfl
@[simp] theorem Dev.begun_towElig' (d : Dev) (c : Nat) (p q : Nat) (f : Frm) : (d.begun c).towElig p q f = d.towElig p q f := rfl
@[simp] theorem Dev.begun_ringElig' (d : Dev) (c : Nat) (k : Nat) : (d.begun c).ringElig k = d.ringElig k := rfl
@[simp] theorem Dev.begun_eligible' (d : Dev) (c : Nat) (p now q : Nat) : (d.begun c).eligible p now q = d.eligible p now q := rfl
@[simp] theorem Dev.begun_linked' (d : Dev) (c : Nat) (p : Nat) : (d.begun c).linked p = d.linked p := rfl
@[simp] theorem Dev.begun_ownDue' (d : Dev) (c : Nat) (p now : Nat) : (d.begun c).ownDue p now = d.ownDue p now := rfl
@[simp] theorem Dev.begun_scopeOk' (d : Dev) (c : Nat) (s : Nat) : (d.begun c).scopeOk s = d.scopeOk s := rfl
@[simp] theorem Dev.begun_sourceOk' (d : Dev) (c : Nat) (s : Nat) : (d.begun c).sourceOk s = d.sourceOk s := rfl
@[simp] theorem Dev.begun_domainBad' (d : Dev) (c : Nat) (r : FdbDomainReq) : (d.begun c).domainBad r = d.domainBad r := rfl
@[simp] theorem Dev.begun_memberBad' (d : Dev) (c : Nat) (r : FdbMemberReq) : (d.begun c).memberBad r = d.memberBad r := rfl
@[simp] theorem Dev.begun_fdbKeyOk' (d : Dev) (c : Nat) (fid mac : Nat) : (d.begun c).fdbKeyOk fid mac = d.fdbKeyOk fid mac := rfl
@[simp] theorem Dev.begun_layoutBad' (d : Dev) (c : Nat) (r : CamLayoutReq) : (d.begun c).layoutBad r = d.layoutBad r := rfl
@[simp] theorem Dev.begun_camAt' (d : Dev) (c : Nat) (t i : Nat) : (d.begun c).camAt t i = d.camAt t i := rfl
@[simp] theorem Dev.begun_concerns' (d : Dev) (c : Nat) (x : Term) (k : LockMsg) : (d.begun c).concerns x k = d.concerns x k := rfl
@[simp] theorem Dev.begun_weirQueues' (d : Dev) (c : Nat) (t tid : Nat) : (d.begun c).weirQueues t tid = d.weirQueues t tid := rfl
@[simp] theorem Dev.begun_frameFlags' (d : Dev) (c : Nat) (t : Nat) : (d.begun c).frameFlags t = d.frameFlags t := rfl
@[simp] theorem Dev.begun_todBytes' (d : Dev) (c : Nat) : (d.begun c).todBytes  = d.todBytes  := rfl
@[simp] theorem Dev.begun_frameHeader' (d : Dev) (c : Nat) (t : Nat) (bmap man lm : Nat) (ordFirst : Option Nat) : (d.begun c).frameHeader t bmap man lm ordFirst = d.frameHeader t bmap man lm ordFirst := rfl
@[simp] theorem Dev.begun_boardId' (d : Dev) (c : Nat) : (d.begun c).boardId  = d.boardId  := rfl
@[simp] theorem Dev.begun_origin' (d : Dev) (c : Nat) (t : Nat) : (d.begun c).origin t = d.origin t := rfl
@[simp] theorem Dev.begun_kp' (d : Dev) (c : Nat) (t : Nat) : (d.begun c).kp t = d.kp t := rfl
@[simp] theorem Dev.begun_isStandby' (d : Dev) (c : Nat) (t : Nat) : (d.begun c).isStandby t = d.isStandby t := rfl
@[simp] theorem Dev.begun_termsOf' (d : Dev) (c : Nat) (t : Nat) : (d.begun c).termsOf t = d.termsOf t := rfl
@[simp] theorem Dev.begun_quiet' (d : Dev) (c : Nat) (t : Nat) : (d.begun c).quiet t = d.quiet t := rfl
@[simp] theorem Dev.begun_wantsLit' (d : Dev) (c : Nat) (t : Nat) : (d.begun c).wantsLit t = d.wantsLit t := rfl
@[simp] theorem Dev.begun_restState' (d : Dev) (c : Nat) (t : Nat) : (d.begun c).restState t = d.restState t := rfl
@[simp] theorem Dev.begun_eqEntry' (d : Dev) (c : Nat) (t : Nat) : (d.begun c).eqEntry t = d.eqEntry t := rfl
@[simp] theorem Dev.begun_bus' (d : Dev) (c : Nat) (b : Nat) : (d.begun c).bus b = d.bus b := rfl
@[simp] theorem Dev.begun_alignDue' (d : Dev) (c : Nat) : (d.begun c).alignDue  = d.alignDue  := rfl
@[simp] theorem Dev.begun_clocked' (d : Dev) (c : Nat) : (d.begun c).clocked  = d.clocked  := rfl
@[simp] theorem Dev.begun_assuredBits' (d : Dev) (c : Nat) (t : Nat) (gq : Tbl GrantQ) (poll : Nat) : (d.begun c).assuredBits t gq poll = d.assuredBits t gq poll := rfl
@[simp] theorem Dev.begun_loadOk' (d : Dev) (c : Nat) (t : Nat) (l : List Standing) (gq : Tbl GrantQ) (poll : Nat) : (d.begun c).loadOk t l gq poll = d.loadOk t l gq poll := rfl
@[simp] theorem Dev.begun_grantFlowOk' (d : Dev) (c : Nat) (t f : Nat) : (d.begun c).grantFlowOk t f = d.grantFlowOk t f := rfl
@[simp] theorem Dev.begun_clk' (d : Dev) (c : Nat) (now : Nat) : (d.begun c).clk now = d.clk now := rfl
@[simp] theorem Dev.begun_treeCount' (d : Dev) (c : Nat) : (d.begun c).treeCount  = d.treeCount  := rfl
@[simp] theorem Dev.begun_uplinkCount' (d : Dev) (c : Nat) : (d.begun c).uplinkCount  = d.uplinkCount  := rfl
@[simp] theorem Dev.begun_treePresent' (d : Dev) (c : Nat) (t : Nat) : (d.begun c).treePresent t = d.treePresent t := rfl
@[simp] theorem Dev.begun_tree' (d : Dev) (c : Nat) (t : Nat) : (d.begun c).tree t = d.tree t := rfl
@[simp] theorem Dev.begun_line' (d : Dev) (c : Nat) (t : Nat) : (d.begun c).line t = d.line t := rfl
@[simp] theorem Dev.begun_treeUp' (d : Dev) (c : Nat) (t : Nat) : (d.begun c).treeUp t = d.treeUp t := rfl
@[simp] theorem Dev.begun_keys' (d : Dev) (c : Nat) (g : Nat) : (d.begun c).keys g = d.keys g := rfl
@[simp] theorem Dev.begun_coreHalted' (d : Dev) (c : Nat) (n : Nat) : (d.begun c).coreHalted n = d.coreHalted n := rfl
@[simp] theorem Dev.begun_twinOf' (d : Dev) (c : Nat) (flow : Nat) : (d.begun c).twinOf flow = d.twinOf flow := rfl
@[simp] theorem Dev.begun_pairOf' (d : Dev) (c : Nat) (flow : Nat) : (d.begun c).pairOf flow = d.pairOf flow := rfl
@[simp] theorem Dev.begun_flowSource' (d : Dev) (c : Nat) (flow dflt : Nat) : (d.begun c).flowSource flow dflt = d.flowSource flow dflt := rfl
@[simp] theorem Dev.begun_isReport' (d : Dev) (c : Nat) (u : PlainUnit) : (d.begun c).isReport u = d.isReport u := rfl
@[simp] theorem Dev.begun_portSas' (d : Dev) (c : Nat) (p : Nat) (tx : Bool) : (d.begun c).portSas p tx = d.portSas p tx := rfl
@[simp] theorem Dev.begun_macsecBytes' (d : Dev) (c : Nat) (p : Nat) (l : Bytes) : (d.begun c).macsecBytes p l = d.macsecBytes p l := rfl
@[simp] theorem Dev.begun_resvCells' (d : Dev) (c : Nat) : (d.begun c).resvCells  = d.resvCells  := rfl
@[simp] theorem Dev.begun_hbmReady' (d : Dev) (c : Nat) (w : HbmWork) : (d.begun c).hbmReady w = d.hbmReady w := rfl
@[simp] theorem Dev.begun_hbmBegun' (d : Dev) (c : Nat) (w : HbmWork) : (d.begun c).hbmBegun w = d.hbmBegun w := rfl
@[simp] theorem Dev.begun_queue' (d : Dev) (c : Nat) (q : Nat) : (d.begun c).queue q = d.queue q := rfl
@[simp] theorem Dev.begun_qprofile' (d : Dev) (c : Nat) (n : Nat) : (d.begun c).qprofile n = d.qprofile n := rfl
@[simp] theorem Dev.begun_profileOf' (d : Dev) (c : Nat) (q : Nat) : (d.begun c).profileOf q = d.profileOf q := rfl
@[simp] theorem Dev.begun_flow' (d : Dev) (c : Nat) (f : Nat) : (d.begun c).flow f = d.flow f := rfl
@[simp] theorem Dev.begun_point' (d : Dev) (c : Nat) (p : Nat) : (d.begun c).point p = d.point p := rfl
@[simp] theorem Dev.begun_bucket' (d : Dev) (c : Nat) (b : Nat) : (d.begun c).bucket b = d.bucket b := rfl
@[simp] theorem Dev.begun_pointOf' (d : Dev) (c : Nat) (q : Nat) : (d.begun c).pointOf q = d.pointOf q := rfl
@[simp] theorem Dev.begun_uplinkMode' (d : Dev) (c : Nat) (u : Nat) : (d.begun c).uplinkMode u = d.uplinkMode u := rfl
@[simp] theorem Dev.begun_pointPresent' (d : Dev) (c : Nat) (p : Nat) : (d.begun c).pointPresent p = d.pointPresent p := rfl
@[simp] theorem Dev.begun_frmLen' (d : Dev) (c : Nat) (f : Nat) : (d.begun c).frmLen f = d.frmLen f := rfl
@[simp] theorem Dev.begun_depth' (d : Dev) (c : Nat) (q : Nat) : (d.begun c).depth q = d.depth q := rfl
@[simp] theorem Dev.begun_partCells' (d : Dev) (c : Nat) (l : List QEnt) : (d.begun c).partCells l = d.partCells l := rfl
@[simp] theorem Dev.begun_pinned' (d : Dev) (c : Nat) (q : Nat) : (d.begun c).pinned q = d.pinned q := rfl
@[simp] theorem Dev.begun_spillMark' (d : Dev) (c : Nat) (q : Nat) : (d.begun c).spillMark q = d.spillMark q := rfl
@[simp] theorem Dev.begun_macsecOn' (d : Dev) (c : Nat) (point : Nat) : (d.begun c).macsecOn point = d.macsecOn point := rfl
@[simp] theorem Dev.begun_secured' (d : Dev) (c : Nat) (p : Nat) (l : Bytes) : (d.begun c).secured p l = d.secured p l := rfl
@[simp] theorem Dev.begun_charge' (d : Dev) (c : Nat) (point base : Nat) : (d.begun c).charge point base = d.charge point base := rfl
@[simp] theorem Dev.begun_slotNo' (d : Dev) (c : Nat) (now : Nat) : (d.begun c).slotNo now = d.slotNo now := rfl
@[simp] theorem Dev.begun_hist' (d : Dev) (c : Nat) (u : Nat) : (d.begun c).hist u = d.hist u := rfl
@[simp] theorem Dev.begun_shaperHolds' (d : Dev) (c : Nat) (q : Nat) : (d.begun c).shaperHolds q = d.shaperHolds q := rfl
@[simp] theorem Dev.begun_gateOpen' (d : Dev) (c : Nat) (p q : Nat) : (d.begun c).gateOpen p q = d.gateOpen p q := rfl
@[simp] theorem Dev.begun_accepts' (d : Dev) (c : Nat) (f : Nat) : (d.begun c).accepts f = d.accepts f := rfl
@[simp] theorem Dev.begun_upEnabled' (d : Dev) (c : Nat) (u : Nat) : (d.begun c).upEnabled u = d.upEnabled u := rfl
@[simp] theorem Dev.begun_treeLoad' (d : Dev) (c : Nat) : (d.begun c).treeLoad  = d.treeLoad  := rfl
@[simp] theorem Dev.begun_towLoad' (d : Dev) (c : Nat) : (d.begun c).towLoad  = d.towLoad  := rfl
@[simp] theorem Dev.begun_baseLoad' (d : Dev) (c : Nat) : (d.begun c).baseLoad  = d.baseLoad  := rfl
@[simp] theorem Dev.begun_opOver' (d : Dev) (c : Nat) (h : HeldOp) : (d.begun c).opOver h = d.opOver h := rfl
@[simp] theorem Dev.begun_freeTokens' (d : Dev) (c : Nat) : (d.begun c).freeTokens  = d.freeTokens  := rfl
@[simp] theorem Dev.begun_powerOk' (d : Dev) (c : Nat) (to_ : PowerState) : (d.begun c).powerOk to_ = d.powerOk to_ := rfl
@[simp] theorem Dev.begun_dozeCores' (d : Dev) (c : Nat) : (d.begun c).dozeCores  = d.dozeCores  := rfl
@[simp] theorem Dev.begun_debugOn' (d : Dev) (c : Nat) : (d.begun c).debugOn  = d.debugOn  := rfl
@[simp] theorem Dev.begun_core' (d : Dev) (c : Nat) (n : Nat) : (d.begun c).core n = d.core n := rfl
@[simp] theorem Dev.begun_idStatus' (d : Dev) (c : Nat) : (d.begun c).idStatus  = d.idStatus  := rfl
@[simp] theorem Dev.begun_leaseLevel' (d : Dev) (c : Nat) (q : Nat) : (d.begun c).leaseLevel q = d.leaseLevel q := rfl
@[simp] theorem Dev.begun_mayBuild' (d : Dev) (c : Nat) (t x : Nat) : (d.begun c).mayBuild t x = d.mayBuild t x := rfl
@[simp] theorem Dev.begun_buildEmpty' (d : Dev) (c : Nat) (t x : Nat) : (d.begun c).buildEmpty t x = d.buildEmpty t x := rfl
@[simp] theorem Dev.begun_pairTrees' (d : Dev) (c : Nat) (p : Pair) : (d.begun c).pairTrees p = d.pairTrees p := rfl
@[simp] theorem Dev.begun_partnersOf' (d : Dev) (c : Nat) (pairs : Tbl Pair) (me : Nat × Nat) : (d.begun c).partnersOf pairs me = d.partnersOf pairs me := rfl
@[simp] theorem Dev.begun_partners' (d : Dev) (c : Nat) (pairs : Tbl Pair) (t : Nat) : (d.begun c).partners pairs t = d.partners pairs t := rfl
@[simp] theorem Dev.begun_partnersOver' (d : Dev) (c : Nat) (pairs : Tbl Pair) : (d.begun c).partnersOver pairs = d.partnersOver pairs := rfl
@[simp] theorem Dev.begun_stream' (d : Dev) (c : Nat) (i : Nat) : (d.begun c).stream i = d.stream i := rfl
@[simp] theorem Dev.begun_stamp' (d : Dev) (c : Nat) (pos : Nat) : (d.begun c).stamp pos = d.stamp pos := rfl
@[simp] theorem Dev.begun_recFits' (d : Dev) (c : Nat) (n : Nat) : (d.begun c).recFits n = d.recFits n := rfl
@[simp] theorem Dev.begun_openBlocks' (d : Dev) (c : Nat) : (d.begun c).openBlocks  = d.openBlocks  := rfl
@[simp] theorem Dev.begun_watched' (d : Dev) (c : Nat) (pk : Pkt) : (d.begun c).watched pk = d.watched pk := rfl
@[simp] theorem Dev.begun_copyTest' (d : Dev) (c : Nat) (len : Nat) : (d.begun c).copyTest len = d.copyTest len := rfl
@[simp] theorem Dev.begun_tamperAction' (d : Dev) (c : Nat) (source : Nat) : (d.begun c).tamperAction source = d.tamperAction source := rfl
@[simp] theorem Dev.begun_installOk' (d : Dev) (c : Nat) (r : SaInstallReq) : (d.begun c).installOk r = d.installOk r := rfl
@[simp] theorem Dev.begun_keyed' (d : Dev) (c : Nat) (t id : Nat) : (d.begun c).keyed t id = d.keyed t id := rfl
@[simp] theorem Dev.begun_rekeying' (d : Dev) (c : Nat) (t id : Nat) : (d.begun c).rekeying t id = d.rekeying t id := rfl
@[simp] theorem Dev.begun_inScope' (d : Dev) (c : Nat) (scope unit_ : Nat) : (d.begun c).inScope scope unit_ = d.inScope scope unit_ := rfl
@[simp] theorem Dev.begun_counter' (d : Dev) (c : Nat) (g : Nat) (st : Stat) (inst : Nat) : (d.begun c).counter g st inst = d.counter g st inst := rfl
@[simp] theorem Dev.begun_newOwnerKey' (d : Dev) (c : Nat) (r : LifecycleReq) : (d.begun c).newOwnerKey r = d.newOwnerKey r := rfl
@[simp] theorem Dev.begun_nextBuild' (d : Dev) (c : Nat) : (d.begun c).nextBuild  = d.nextBuild  := rfl
@[simp] theorem Dev.begun_nextFrame' (d : Dev) (c : Nat) : (d.begun c).nextFrame  = d.nextFrame  := rfl
@[simp] theorem Dev.begun_port' (d : Dev) (c : Nat) (t : Nat) : (d.begun c).port t = d.port t := rfl
@[simp] theorem Dev.begun_offLease' (d : Dev) (c : Nat) (t : Nat) : (d.begun c).offLease t = d.offLease t := rfl
@[simp] theorem Dev.begun_mirrorOf' (d : Dev) (c : Nat) (p : Port) : (d.begun c).mirrorOf p = d.mirrorOf p := rfl
@[simp] theorem Dev.begun_termLine' (d : Dev) (c : Nat) (t id : Nat) : (d.begun c).termLine t id = d.termLine t id := rfl
@[simp] theorem Dev.begun_wouldOpen' (d : Dev) (c : Nat) (t : Nat) (was : Bool) (q : Nat) : (d.begun c).wouldOpen t was q = d.wouldOpen t was q := rfl
@[simp] theorem Dev.begun_mayDoze' (d : Dev) (c : Nat) (t : Nat) (y : Term) : (d.begun c).mayDoze t y = d.mayDoze t y := rfl
@[simp] theorem Dev.begun_ticks' (d : Dev) (c : Nat) : (d.begun c).ticks  = d.ticks  := rfl
@[simp] theorem Dev.begun_ppsOut' (d : Dev) (c : Nat) : (d.begun c).ppsOut  = d.ppsOut  := rfl
@[simp] theorem Dev.begun_tevPending' (d : Dev) (c : Nat) (pin : Nat) : (d.begun c).tevPending pin = d.tevPending pin := rfl
@[simp] theorem Dev.begun_netPort' (d : Dev) (c : Nat) (p : Nat) : (d.begun c).netPort p = d.netPort p := rfl
@[simp] theorem Dev.begun_timeOffsetMsg' (d : Dev) (c : Nat) (t id serial range apply notBefore : Nat) : (d.begun c).timeOffsetMsg t id serial range apply notBefore = d.timeOffsetMsg t id serial range apply notBefore := rfl
@[simp] theorem Dev.begun_link' (d : Dev) (c : Nat) (k : Nat) : (d.begun c).link k = d.link k := rfl
@[simp] theorem Dev.begun_backPressure' (d : Dev) (c : Nat) : (d.begun c).backPressure  = d.backPressure  := rfl
@[simp] theorem Dev.begun_towFlags' (d : Dev) (c : Nat) : (d.begun c).towFlags  = d.towFlags  := rfl
@[simp] theorem Dev.begun_ageMs' (d : Dev) (c : Nat) (now : Nat) : (d.begun c).ageMs now = d.ageMs now := rfl
@[simp] theorem Dev.begun_helloPayload' (d : Dev) (c : Nat) (k now : Nat) : (d.begun c).helloPayload k now = d.helloPayload k now := rfl
@[simp] theorem Dev.begun_lsaPayload' (d : Dev) (c : Nat) (now seq : Nat) : (d.begun c).lsaPayload now seq = d.lsaPayload now seq := rfl
@[simp] theorem Dev.begun_locksWith' (d : Dev) (c : Nat) (dev : Nat) : (d.begun c).locksWith dev = d.locksWith dev := rfl
@[simp] theorem Dev.begun_tickLocked' (d : Dev) (c : Nat) (dev : Nat) : (d.begun c).tickLocked dev = d.tickLocked dev := rfl
@[simp] theorem Dev.begun_trainTx' (d : Dev) (c : Nat) (k lane : Nat) : (d.begun c).trainTx k lane = d.trainTx k lane := rfl
@[simp] theorem Dev.begun_edges' (d : Dev) (c : Nat) : (d.begun c).edges  = d.edges  := rfl
@[simp] theorem Dev.begun_towEnabled' (d : Dev) (c : Nat) (k : Nat) : (d.begun c).towEnabled k = d.towEnabled k := rfl
@[simp] theorem Dev.begun_refCommonDevs' (d : Dev) (c : Nat) : (d.begun c).refCommonDevs  = d.refCommonDevs  := rfl
@[simp] theorem Dev.begun_tickRef' (d : Dev) (c : Nat) : (d.begun c).tickRef  = d.tickRef  := rfl
@[simp] theorem Dev.begun_otherSlot' (d : Dev) (c : Nat) : (d.begun c).otherSlot  = d.otherSlot  := rfl
@[simp] theorem Dev.begun_imageCheck' (d : Dev) (c : Nat) (img : Tbl Bytes) (blocks : Nat) : (d.begun c).imageCheck img blocks = d.imageCheck img blocks := rfl
@[simp] theorem Dev.begun_verifyImage' (d : Dev) (c : Nat) (img : Tbl Bytes) (x : Session) : (d.begun c).verifyImage img x = d.verifyImage img x := rfl
@[simp] theorem Dev.begun_slotValid' (d : Dev) (c : Nat) (s : Nat) : (d.begun c).slotValid s = d.slotValid s := rfl
@[simp] theorem Dev.begun_slotVersion' (d : Dev) (c : Nat) (s : Nat) : (d.begun c).slotVersion s = d.slotVersion s := rfl
@[simp] theorem Dev.begun_settingsNow' (d : Dev) (c : Nat) : (d.begun c).settingsNow  = d.settingsNow  := rfl
@[simp] theorem Dev.begun_pauseUs' (d : Dev) (c : Nat) (p : Pause) (now : Nat) : (d.begun c).pauseUs p now = d.pauseUs p now := rfl
@[simp] theorem Dev.begun_push' (d : Dev) (c : Nat) (t : Nat) : (d.begun c).push t = d.push t := rfl
@[simp] theorem Dev.begun_pushTargetOk' (d : Dev) (c : Nat) (t id flow : Nat) : (d.begun c).pushTargetOk t id flow = d.pushTargetOk t id flow := rfl
@[simp] theorem Dev.begun_upPort' (d : Dev) (c : Nat) (p : Nat) : (d.begun c).upPort p = d.upPort p := rfl
@[simp] theorem Dev.begun_upPresent' (d : Dev) (c : Nat) (p : Nat) : (d.begun c).upPresent p = d.upPresent p := rfl
@[simp] theorem Dev.begun_upEntry' (d : Dev) (c : Nat) (p o : Nat) : (d.begun c).upEntry p o = d.upEntry p o := rfl
@[simp] theorem Dev.begun_upFec' (d : Dev) (c : Nat) (p : Nat) : (d.begun c).upFec p = d.upFec p := rfl
@[simp] theorem Dev.begun_upRate' (d : Dev) (c : Nat) (p : Nat) : (d.begun c).upRate p = d.upRate p := rfl
@[simp] theorem Dev.begun_upLive' (d : Dev) (c : Nat) (p : Nat) : (d.begun c).upLive p = d.upLive p := rfl
@[simp] theorem Dev.begun_ptpNs' (d : Dev) (c : Nat) (now : Nat) : (d.begun c).ptpNs now = d.ptpNs now := rfl
@[simp] theorem Dev.begun_drrOf' (d : Dev) (c : Nat) (p : Nat) : (d.begun c).drrOf p = d.drrOf p := rfl
@[simp] theorem Dev.begun_cutPoint' (d : Dev) (c : Nat) (p now : Nat) : (d.begun c).cutPoint p now = d.cutPoint p now := rfl
@[simp] theorem Dev.begun_preemptable' (d : Dev) (c : Nat) (p now : Nat) : (d.begun c).preemptable p now = d.preemptable p now := rfl
@[simp] theorem Dev.begun_lpiAble' (d : Dev) (c : Nat) (p : Nat) : (d.begun c).lpiAble p = d.lpiAble p := rfl
@[simp] theorem Dev.begun_upIdle' (d : Dev) (c : Nat) (p now : Nat) : (d.begun c).upIdle p now = d.upIdle p now := rfl
@[simp] theorem Dev.begun_linkAble' (d : Dev) (c : Nat) (p speed : Nat) : (d.begun c).linkAble p speed = d.linkAble p speed := rfl
@[simp] theorem Dev.begun_maxCharged' (d : Dev) (c : Nat) (p sdu : Nat) : (d.begun c).maxCharged p sdu = d.maxCharged p sdu := rfl
@[simp] theorem Dev.begun_gateBad' (d : Dev) (c : Nat) (p : Nat) (g : GateList) : (d.begun c).gateBad p g = d.gateBad p g := rfl
@[simp] theorem Dev.begun_steering' (d : Dev) (c : Nat) : (d.begun c).steering  = d.steering  := rfl

end Sys2Proof.Machine
end

