-- ==== Sys2Proof/Laws/HostMem.lean ====
section
/-!
SUPPORT. The operations that write to host memory keep its canonical form.
-/
namespace Sys2Proof.Machine
open Sys2Proof

theorem memWf_writeDone (m : List Host.Cell) (a seq c : Nat) (st : Status) (r : Bytes) (w : Bool) (h : memWf m = true) :
    memWf (writeDone m a seq c st r w) = true := by
  unfold writeDone
  dsimp only
  split <;> (repeat apply memWf_write) <;> exact h

theorem memWf_fillBuffers (posted : Nat) (bs : List Bytes) (i : Nat) (ds : List (Nat × Bool × Bool)) (m : List Host.Cell) (h : memWf m = true) :
    memWf (fillBuffers posted bs i ds m).1 = true := by
  induction bs generalizing i ds m with
  | nil => exact h
  | cons b t ih =>
    unfold fillBuffers
    split
    · exact h
    · split
      · exact h
      · split
        · exact h
        · split
          · exact h
          · exact ih _ _ _ (memWf_write _ _ _ h)

theorem memWf_foldl {α : Type} (l : List α) (f : List Host.Cell → α → List Host.Cell) (hf : ∀ m x, memWf m = true → memWf (f m x) = true)
    (m : List Host.Cell) (h : memWf m = true) : memWf (l.foldl f m) = true := by
  induction l generalizing m with
  | nil => exact h
  | cons x t ih => exact ih _ (hf _ _ h)

theorem memWf_writeDescs (m : List Host.Cell) (r : Ring) (c : Nat) (x : RxInfo) (bs : List Bytes) (h : memWf m = true) :
    memWf (writeDescs m r c x bs) = true := by
  unfold writeDescs
  dsimp only
  apply memWf_write
  apply memWf_foldl
  · exact fun _ _ hm => memWf_write _ _ _ hm
  · exact h

theorem memWf_returnDescs (m : List Host.Cell) (r : Ring) (e : Bool) (i : Nat) (l : List TxDesc) (h : memWf m = true) :
    memWf (returnDescs m r e i l) = true := by
  induction l generalizing m i with
  | nil => exact h
  | cons x t ih => exact ih _ _ (memWf_write _ _ _ h)

theorem memWf_ite (c : Prop) [Decidable c] (a b : Dev × List Host.Cell) (ha : memWf a.2 = true) (hb : memWf b.2 = true) :
    memWf (if c then a else b).2 = true := by
  split
  · exact ha
  · exact hb

theorem memWf_ringWrite (d : Dev) (m : List Host.Cell) (k : Nat) (x : RxInfo) (ds : List (Nat × Bool × Bool)) (now : Nat) (h : memWf m = true) :
    memWf (d.ringWrite m k x ds now).2 = true := by
  unfold Dev.ringWrite
  dsimp only
  refine memWf_ite _ _ _ ?_ ?_
  · dsimp only; exact memWf_writeDescs _ _ _ _ _ (memWf_fillBuffers _ _ _ _ _ h)
  · dsimp only; exact memWf_fillBuffers _ _ _ _ _ h

theorem memWf_ringSelect (d : Dev) (o : Egress) (m : List Host.Cell) (h : memWf m = true) : memWf (d.ringSelect o m).2 = true := by
  unfold Dev.ringSelect
  dsimp only
  split
  · exact h
  · split
    · exact memWf_ringWrite _ _ _ _ _ _ h
    · split
      · exact h
      · split
        · split <;> (dsimp only; exact memWf_ringWrite _ _ _ _ _ _ h)
        · exact h

theorem memWf_egressSelect (o : Egress) (d : Dev) (m : List Host.Cell) (h : memWf m = true) : memWf (egressSelect o d m).2 = true := by
  unfold egressSelect
  dsimp only
  repeat' split
  all_goals first | exact h | exact memWf_ringSelect _ _ _ h

theorem memWf_dumpDone (d : Dev) (m : List Host.Cell) (h : memWf m = true) : memWf (dumpDone d m).2 = true := by
  unfold dumpDone
  split
  · exact h
  · split
    · exact h
    · dsimp only
      split
      · exact h
      · exact memWf_write _ _ _ (memWf_write _ _ _ (memWf_write _ _ _ h))

theorem memWf_hostTxFetch (o : TxFetch) (d : Dev) (m : List Host.Cell) (h : memWf m = true) : memWf (hostTxFetch o d m).2 = true := by
  unfold hostTxFetch
  dsimp only
  split
  · exact h
  · split
    · exact h
    · split <;> exact memWf_returnDescs _ _ _ _ _ h

theorem memWf_doorbell (o : Doorbell) (d : Dev) (m : List Host.Cell) (h : memWf m = true) : memWf (doorbell o d m).2 = true := by
  unfold doorbell
  split
  · exact h
  · dsimp only
    split
    · exact h
    · split
      · exact h
      · split
        · (dsimp only; apply memWf_writeDone; exact h)
        · split
          · exact h
          · dsimp only
            exact memWf_write _ _ _ (memWf_write _ _ _ (memWf_write _ _ _ h))

theorem memWf_rungAll (l : List Doorbell) (r : Dev × List Host.Cell) (h : memWf r.2 = true) :
    memWf (l.foldl (fun r o => doorbell o r.1 r.2) r).2 = true := by
  induction l generalizing r with
  | nil => exact h
  | cons o t ih => exact ih _ (memWf_doorbell o r.1 r.2 h)

theorem memWf_takeRung (d : Dev) (m : List Host.Cell) (h : memWf m = true) : memWf (takeRung d m).2 = true := by
  unfold takeRung
  split
  · exact h
  · exact memWf_rungAll _ _ h

theorem memWf_d3hotTransition (b : Bool) (d : Dev) (m : List Host.Cell) (h : memWf m = true) : memWf (d3hotTransition b d m).2 = true := by
  unfold d3hotTransition
  dsimp only
  split
  · exact h
  · exact memWf_takeRung _ _ h

theorem memWf_mailboxComplete (c : Nat) (d : Dev) (m : List Host.Cell) (h : memWf m = true) : memWf (mailboxComplete c d m).2 = true := by
  unfold mailboxComplete
  split
  · exact h
  · split
    · exact h
    · dsimp only
      split
      · (dsimp only; apply memWf_writeDone; exact h)
      · split
        · exact h
        · (dsimp only; apply memWf_writeDone; exact h)

theorem memWf_eventRaise (n : Nat) (d : Dev) (m : List Host.Cell) (h : memWf m = true) : memWf (eventRaise n d m).2 = true := by
  unfold eventRaise
  split
  · exact h
  · split
    · exact h
    · dsimp only
      split
      · exact h
      · split
        · exact h
        · dsimp only
          apply memWf_write; exact h

theorem memWf_otherDone (r : NvmeDone) (d : Dev) (m : List Host.Cell) (h : memWf m = true) : memWf (otherDone r d m).2 = true := by
  unfold otherDone
  dsimp only
  split
  · exact h
  · exact h
  · split
    · exact h
    · split
      · exact memWf_write _ _ _ h
      · exact h

theorem memWf_nvmeCompletion (r : NvmeDone) (d : Dev) (m : List Host.Cell) (h : memWf m = true) : memWf (nvmeCompletion r d m).2 = true := by
  unfold nvmeCompletion
  split
  · exact h
  · exact memWf_otherDone _ _ _ h
  · exact h

theorem memWf_writeBar0 (r : MemAccess) (d : Dev) (m : List Host.Cell) (h : memWf m = true) : memWf (writeBar0 r d m).2 = true := by
  unfold writeBar0
  by_cases h1 : 0x1000 ≤ r.addr ∧ r.addr < 0x2000 ∧ r.addr % 0x200 = 0
  · rw [if_pos h1]; exact memWf_doorbell _ _ _ h
  · rw [if_neg h1]
    generalize ringCtrlSynced ((r.addr - 0x4000) / 0x40) r.value d = a
    generalize ringCtrlSynced (112 + (r.addr - 0x8000) / 0x40) r.value d = b
    generalize registerSynced r.addr r.value d = c
    rw [apply_ite Prod.snd, apply_ite Prod.snd, ite_self, ite_self]
    exact h

theorem memWf_systemMemory (r : MemAccess) (d : Dev) (m : List Host.Cell) (h : memWf m = true) : memWf (systemMemory r d m).2 = true := by
  unfold systemMemory
  dsimp only
  split
  · exact h
  · split
    case h_3 => exact memWf_writeBar0 _ _ _ h
    case h_2 => split <;> exact h
    all_goals exact h

end Sys2Proof.Machine
end

