-- ==== Sys2Proof/Laws/Lists.lean ====
section
/-!
SUPPORT. Laws of the list and byte helpers: a stable sort is a permutation and is sorted, the tie rule serves every party once (R9), a number
written as bytes reads back (R11).
-/
namespace Sys2Proof.Machine

/-! ### Sorting -/

/-- Insertion adds one element. -/
theorem insertBy_perm {α : Type} (le : α → α → Bool) (x : α) (l : List α) : (insertBy le x l).Perm (x :: l) := by
  induction l with
  | nil => exact .refl _
  | cons y t ih =>
    simp only [insertBy]
    split
    · exact (ih.cons y).trans (.swap _ _ _)
    · exact .refl _

theorem sortBy_foldl_perm {α : Type} (le : α → α → Bool) (l acc : List α) : (l.foldl (fun acc x => insertBy le x acc) acc).Perm (l ++ acc) := by
  induction l generalizing acc with
  | nil => exact .refl _
  | cons x t ih => exact (ih _).trans (((insertBy_perm le x acc).append_left t).trans List.perm_middle)

/-- Sorting loses and adds nothing. -/
theorem sortBy_perm {α : Type} (le : α → α → Bool) (l : List α) : (sortBy le l).Perm l := by
  simpa [sortBy] using sortBy_foldl_perm le l []

/-- Insertion by a key keeps a list in the order of the key. -/
theorem insertBy_sorted {α : Type} (key : α → Nat) (x : α) (l : List α) (h : l.Pairwise (fun a b => key a ≤ key b)) :
    (insertBy (fun a b => decide (key a ≤ key b)) x l).Pairwise (fun a b => key a ≤ key b) := by
  induction l with
  | nil => simp [insertBy]
  | cons y t ih =>
    rw [List.pairwise_cons] at h
    simp only [insertBy, decide_eq_true_eq]
    split
    · rw [List.pairwise_cons]
      refine ⟨fun z hz => ?_, ih h.2⟩
      rcases List.mem_cons.1 ((insertBy_perm _ x t).subset hz) with e | e
      · exact e ▸ ‹_›
      · exact h.1 z e
    · rw [List.pairwise_cons, List.pairwise_cons]
      refine ⟨fun z hz => ?_, h⟩
      rcases List.mem_cons.1 hz with e | e
      · subst e; omega
      · have := h.1 z e; omega

/-- A list sorted by a key is in the order of the key. -/
theorem sortBy_sorted {α : Type} (key : α → Nat) (l : List α) :
    (sortBy (fun a b => decide (key a ≤ key b)) l).Pairwise (fun a b => key a ≤ key b) := by
  have : ∀ (l acc : List α), acc.Pairwise (fun a b => key a ≤ key b) →
      (l.foldl (fun acc x => insertBy (fun a b => decide (key a ≤ key b)) x acc) acc).Pairwise (fun a b => key a ≤ key b) := by
    intro l; induction l with
    | nil => intro acc h; exact h
    | cons x t ih => intro acc h; exact ih _ (insertBy_sorted key x acc h)
  exact this l [] .nil

/-- The tie rule serves every party as often as it asks. -/
theorem tieOrder_perm {α : Type} (c : Nat) (key : α → Nat) (l : List α) : (tieOrder c key l).Perm l := by
  unfold tieOrder; dsimp only
  split
  · exact sortBy_perm _ _
  · exact (List.reverse_perm _).trans (sortBy_perm _ _)

/-! ### Tables -/

/-- A table in order. -/
theorem tsorted_iff {α : Type} (t : Tbl α) : tsorted t = true ↔ t.Pairwise (fun a b => a.1 < b.1) := by
  induction t with
  | nil => simp [tsorted]
  | cons x s ih =>
    cases s with
    | nil => simp [tsorted]
    | cons y r =>
      obtain ⟨a, u⟩ := x; obtain ⟨b, v⟩ := y
      simp only [tsorted, Bool.and_eq_true, decide_eq_true_eq, ih]
      rw [List.pairwise_cons (a := (a, u))]
      constructor
      · rintro ⟨h, hp⟩
        refine ⟨fun z hz => ?_, hp⟩
        rcases List.mem_cons.1 hz with e | e
        · subst e; exact h
        · exact Nat.lt_trans h ((List.pairwise_cons.1 hp).1 z e)
      · rintro ⟨h, hp⟩; exact ⟨h (b, v) (by simp), hp⟩

/-- Setting an entry keeps a table in order. -/
theorem tset_sorted {α : Type} (t : Tbl α) (n : Nat) (x : α) (h : t.Pairwise (fun a b => a.1 < b.1)) :
    (tset t n x).Pairwise (fun a b => a.1 < b.1) := by
  have key : ∀ (t : Tbl α) (k : Nat), k < n → (∀ a ∈ t, k < a.1) → ∀ a ∈ tset t n x, k < a.1 := by
    intro t; induction t with
    | nil => intro k hk _ a ha; simp [tset] at ha; subst ha; exact hk
    | cons y s ih =>
      intro k hk ht a ha
      simp only [tset] at ha
      split at ha
      · rcases List.mem_cons.1 ha with e | e
        · subst e; exact hk
        · exact ht a e
      · split at ha
        · rcases List.mem_cons.1 ha with e | e
          · subst e; exact hk
          · exact ht a (List.mem_cons_of_mem _ e)
        · rcases List.mem_cons.1 ha with e | e
          · subst e; exact ht _ (by simp)
          · exact ih k hk (fun a h => ht a (List.mem_cons_of_mem _ h)) a e
  induction t with
  | nil => simp [tset]
  | cons y s ih =>
    obtain ⟨k, v⟩ := y
    rw [List.pairwise_cons] at h
    simp only [tset]
    split
    · rename_i hk
      rw [List.pairwise_cons]
      refine ⟨fun z hz => ?_, List.pairwise_cons.2 h⟩
      rcases List.mem_cons.1 hz with e | e
      · subst e; exact hk
      · exact Nat.lt_trans hk (h.1 z e)
    · split
      · rename_i e; subst e; exact List.pairwise_cons.2 h
      · rw [List.pairwise_cons]
        exact ⟨key s k (by omega) h.1, ih h.2⟩

/-! ### Numbers as bytes -/

@[simp] theorem le_length (n x : Nat) : (le n x).length = n := by
  induction n generalizing x with
  | zero => rfl
  | succ n ih => simp [le, ih]
@[simp] theorem be_length (n x : Nat) : (be n x).length = n := by simp [be]
@[simp] theorem leInt_length (n : Nat) (x : Int) : (leInt n x).length = n := by simp [leInt]
@[simp] theorem beInt_length (n : Nat) (x : Int) : (beInt n x).length = n := by simp [beInt]

/-- A number written as bytes reads back. -/
theorem ofLE_le (n x : Nat) : ofLE (le n x) = x % 256 ^ n := by
  induction n generalizing x with
  | zero => simp [le, ofLE, Nat.mod_one]
  | succ n ih =>
    have e : (BitVec.ofNat 8 x).toNat = x % 256 := BitVec.toNat_ofNat ..
    rw [le, ofLE, ih, e, pow_succ', Nat.mod_mul]

theorem ofBE_be (n x : Nat) : ofBE (be n x) = x % 256 ^ n := by simp [ofBE, be, ofLE_le]

/-- A field that stands whole in a string is read as it stands. -/
theorem slice_append {a m b : Bytes} {o n : Nat} (ho : a.length = o) (hn : m.length = n) : slice (a ++ (m ++ b)) o n = m := by
  subst ho hn; simp [slice]

/-- A CRC-32C has 32 bits. -/
theorem crc32c_lt (l : Bytes) : crc32c l < 2 ^ 32 := by
  have hx : ∀ a b : Nat, a < 2 ^ 32 → b < 2 ^ 32 → Nat.xor a b < 2 ^ 32 := fun a b => Nat.xor_lt_two_pow
  have step : ∀ r, r < 2 ^ 32 → crc32cStep r < 2 ^ 32 := by
    intro r h; unfold crc32cStep; split
    · exact hx _ _ (by omega) (by norm_num)
    · omega
  have all : ∀ (l : Bytes) (r : Nat), r < 2 ^ 32 → l.foldl crc32cByte r < 2 ^ 32 := by
    intro l; induction l with
    | nil => intro r h; exact h
    | cons b t ih =>
      intro r h
      refine ih _ ?_
      have hb : b.toNat < 2 ^ 32 := by have := b.isLt; omega
      have h0 := hx r b.toNat h hb
      exact step _ (step _ (step _ (step _ (step _ (step _ (step _ (step _ h0)))))))
  exact hx _ _ (all l _ (by norm_num)) (by norm_num)

end Sys2Proof.Machine
end

