-- ==== Sys2Proof/WellFormed.lean ====
section
/-!
DEFINITION. Well-formed commands: every operand fits the field that the manual gives it, a context is one of the eight, and a clock lies within the longest
tick (R13). A value that fits its field and that the manual calls out of range is well-formed: the command answers it with a status.
-/
namespace Sys2Proof

/-- A number fits a field of `n` bits. -/
def fits (n x : Nat) : Bool := decide (x < 2 ^ n)
/-- A signed number fits a field of `n` bits in two's complement. -/
def fitsInt (n : Nat) (x : Int) : Bool := decide (-(2 ^ (n - 1) : Nat) ≤ x) && decide (x < (2 ^ (n - 1) : Nat))
/-- A clock of 0.8 ns within the longest tick, 49,999 periods (R13). -/
def clockOk (x : Nat) : Bool := decide (x < 312494)

def PageRead.wf (r : PageRead) : Bool :=
  fits 16 r.opcode && fits 8 r.format && fits 16 r.reqLen && fits 64 r.hostTag
def Doorbell.wf (r : Doorbell) : Bool :=
  decide (r.ctx < 8) && fits 32 r.value && r.page.all PageRead.wf
def TxDesc.wf (r : TxDesc) : Bool :=
  fits 64 r.addr && fits 32 r.len
def TxFetch.wf (r : TxFetch) : Bool :=
  fits 8 r.ring && r.descs.all TxDesc.wf && fits 8 r.lane && clockOk r.now
def EventRouteReq.wf (r : EventRouteReq) : Bool :=
  fits 16 r.first && fits 16 r.count && fits 8 r.ring
def DumpReq.wf (r : DumpReq) : Bool :=
  fits 16 r.slots && fits 32 r.period && fits 64 r.base && fits 32 r.slotSize
def ProgramReq.wf (r : ProgramReq) : Bool :=
  fits 8 r.mode && fits 16 r.counter && fits 8 r.kind && fits 8 r.group && fits 8 r.stat && fits 32 r.first && fits 32 r.last
def ClearGroupReq.wf (r : ClearGroupReq) : Bool :=
  fits 8 r.group && fits 32 r.first && fits 32 r.count
def QueueBlockReq.wf (r : QueueBlockReq) : Bool :=
  fits 16 r.block && fits 32 r.first
def WindowReq.wf (r : WindowReq) : Bool :=
  fits 16 r.window && fits 8 r.group && fits 32 r.first
def PorPins.wf (r : PorPins) : Bool :=
  fits 6 r.devAddr
def BoardProfileReq.wf (r : BoardProfileReq) : Bool :=
  fits 8 r.section_ && fits 32 r.length && fits 64 r.hostAddr
def BudgetReq.wf (r : BudgetReq) : Bool :=
  fits 16 r.budget && fits 16 r.waitLimit
def TreeConfigReq.wf (r : TreeConfigReq) : Bool :=
  fits 8 r.tree && fits 8 r.rateSelect
def MemAccess.wf (r : MemAccess) : Bool :=
  fits 8 r.space && fits 64 r.addr && fits 64 r.value && r.page.all PageRead.wf
def BreakHit.wf (r : BreakHit) : Bool :=
  fits 8 r.core && fits 8 r.unit_ && fits 32 r.first && fits 32 r.last && fits 8 r.access && fits 64 r.addr
def ModulePoll.wf (r : ModulePoll) : Bool :=
  fits 8 r.tree
def BargeRx.wf (r : BargeRx) : Bool :=
  fits 8 r.tree && fits 8 r.tid && fits 32 r.start && fits 32 r.first
def HailRx.wf (r : HailRx) : Bool :=
  fits 8 r.tree && fits 32 r.first
def QwSetReq.wf (r : QwSetReq) : Bool :=
  fits 8 r.tree && fits 8 r.reach && fits 8 r.mode && fits 16 r.period && fits 16 r.phase
def AdmitReq.wf (r : AdmitReq) : Bool :=
  fits 8 r.tree && fits 8 r.id && fits 32 r.lostTime && fits 64 r.serial
def TermName.wf (r : TermName) : Bool :=
  fits 8 r.tree && fits 8 r.id && fits 64 r.serial
def RemoveReq.wf (r : RemoveReq) : Bool :=
  r.name.wf && fits 16 r.holdoff
def DozeReq.wf (r : DozeReq) : Bool :=
  r.name.wf && fits 16 r.period && fits 16 r.idle
def WeirReq.wf (r : WeirReq) : Bool :=
  fits 8 r.tree && fits 8 r.id && r.start.all (fits 32) && fits 16 r.ncw
def CadenceReq.wf (r : CadenceReq) : Bool :=
  fits 8 r.tree && fits 8 r.id && fits 8 r.slot && r.hint.all (fits 32) && r.start.all (fits 32) && fits 16 r.ncw && fits 16 r.n && fits 16
    r.phase
def QueueGrantReq.wf (r : QueueGrantReq) : Bool :=
  fits 8 r.tree && fits 8 r.cls && fits 32 r.flow && fits 8 r.weight && fits 32 r.ar && fits 32 r.pr
def FlowReq.wf (r : FlowReq) : Bool :=
  fits 32 r.flow && fits 8 r.dir && fits 8 r.tree && fits 8 r.id && fits 8 r.egress
def FlowDelReq.wf (r : FlowDelReq) : Bool :=
  fits 32 r.flow && fits 32 r.drainTicks
def ProfileReq.wf (r : ProfileReq) : Bool :=
  fits 8 r.profile && fits 32 r.maxBytes
def BindReq.wf (r : BindReq) : Bool :=
  fits 8 r.profile && fits 32 r.first && fits 32 r.count
def FeederReq.wf (r : FeederReq) : Bool :=
  fits 16 r.profile && fits 8 r.mode && fits 16 r.spillHi && fits 16 r.refillLo
def PoolReq.wf (r : PoolReq) : Bool :=
  fits 32 r.weirReserve && fits 32 r.refillReserve
def ShaperReq.wf (r : ShaperReq) : Bool :=
  fits 32 r.bucket && fits 8 r.mode && fits 8 r.classes && fits 8 r.demoteClass && fits 32 r.rate && fits 32 r.burst
def QuantumReq.wf (r : QuantumReq) : Bool :=
  fits 32 r.first && fits 32 r.count && fits 32 r.quantum
def PointReq.wf (r : PointReq) : Bool :=
  fits 8 r.point && fits 16 r.fragBytes && fitsInt 32 r.overhead && fits 32 r.starve
def HistReq.wf (r : HistReq) : Bool :=
  fits 16 r.unit_ && fits 32 r.first && fits 32 r.count && fits 8 r.nlog2
def Egress.wf (r : Egress) : Bool :=
  fits 8 r.point && clockOk r.now
def PmReadReq.wf (r : PmReadReq) : Bool :=
  fits 8 r.scope && fits 8 r.tree && fits 8 r.id && fits 8 r.first && fits 8 r.count
def PmConfigReq.wf (r : PmConfigReq) : Bool :=
  fits 8 r.scope && fits 8 r.tree && fits 8 r.id
def SaInstallReq.wf (r : SaInstallReq) : Bool :=
  fits 8 r.kind && fits 8 r.unit_ && fits 16 r.index && fits 8 r.sub && fits 64 r.sci && fits 32 r.ssci && fits 8 r.an && fits 8
    r.confOffset && fits 32 r.replay && fits 96 r.salt && fits 64 r.nextPn && fits 96 r.iv
def TamperSetReq.wf (r : TamperSetReq) : Bool :=
  fits 8 r.source && fits 8 r.action && fits 8 r.failLimit
def DebugOpenReq.wf (r : DebugOpenReq) : Bool :=
  fits 32 r.window
def GroupReq.wf (r : GroupReq) : Bool :=
  fits 16 r.pgid && fits 8 r.tree && fits 8 r.peerDev && fits 8 r.peerTree && r.pulse.all (fits 8) && fitsInt 32 r.cal
def DrillReq.wf (r : DrillReq) : Bool :=
  fits 16 r.pgid && fits 32 r.dwell
def DwellEnd.wf (r : DwellEnd) : Bool :=
  fits 8 r.tree && fits 16 r.maxOffset
def TwinReq.wf (r : TwinReq) : Bool :=
  fits 8 r.devA && fits 8 r.devB && fits 32 r.flowA && fits 32 r.flowB && fits 8 r.seqDev && fits 8 r.backupDev
def PulseRx.wf (r : PulseRx) : Bool :=
  fits 1 r.pair && fits 32 r.width
def MirrorTerm.wf (r : MirrorTerm) : Bool :=
  fits 64 r.serial && r.id.all (fits 8) && fits 8 r.state && fits 32 r.range && r.version.all (fits 8)
def MirrorRec.wf (r : MirrorRec) : Bool :=
  fits 8 r.tree && r.terms.all MirrorTerm.wf && fits 8 r.reach && fits 8 r.mode && fits 16 r.period && fits 16 r.phase && r.dwell.all (fits
    32)
def ClockReq.wf (r : ClockReq) : Bool :=
  fits 8 r.source && fits 8 r.profile && fits 32 r.holdLimit && fits 32 r.ppsWidth && fits 32 r.phaseAlarm && fits 32 r.phi0 && fits 32
    r.stepThreshold
def TimePortReq.wf (r : TimePortReq) : Bool :=
  fits 8 r.port && fitsInt 32 r.rxLat && fitsInt 32 r.txLat
def TimeTreeReq.wf (r : TimeTreeReq) : Bool :=
  fits 8 r.tree && fitsInt 32 r.asym && fitsInt 32 r.fixed
def TevModeReq.wf (r : TevModeReq) : Bool :=
  fits 8 r.pin && fits 8 r.mode && fits 8 r.edges
def TevAddReq.wf (r : TevAddReq) : Bool :=
  fits 8 r.pin && fits 64 r.sec && fits 32 r.ns && fits 32 r.width && fits 32 r.period && fits 32 r.count
def TrigReq.wf (r : TrigReq) : Bool :=
  fits 8 r.tree && fits 8 r.trigId && fits 8 r.output && fits 48 r.sec && fits 32 r.ns && fits 32 r.period && fits 16 r.repeats && fits 256
    r.mask
def ServoOut.wf (r : ServoOut) : Bool :=
  r.inc.all (fits 64) && clockOk r.now
def PtpEvent.wf (r : PtpEvent) : Bool :=
  decide (r.msg < 16) && decide (1 ≤ r.state) && decide (r.state ≤ 9)
def TrainRx.wf (r : TrainRx) : Bool :=
  r.bits.length == 128 && fits 8 r.link && fits 8 r.lane && fits 16 r.skew && clockOk r.now
def TowRx.wf (r : TowRx) : Bool :=
  fits 8 r.link && fits 6 r.dst && fits 6 r.src && fits 4 r.hops && fits 24 r.lseq && clockOk r.now
def TowLinkReq.wf (r : TowLinkReq) : Bool :=
  fits 8 r.link && fits 8 r.cost
def TowFabricReq.wf (r : TowFabricReq) : Bool :=
  fits 16 r.wait
def ParseNode.wf (r : ParseNode) : Bool :=
  fits 8 r.hdrType && fits 8 r.selOff && fits 16 r.selMask && fits 8 r.advFixed && fits 8 r.advFoff && fits 16 r.advFmask && fits 8
    r.advFscale && fits 16 r.transFirst && fits 16 r.transCount && fits 8 r.defaultNext && fits 8 r.extOff && fits 8 r.extLen && fits 8
    r.extKey && fits 8 r.vbit
def ParseReq.wf (r : ParseReq) : Bool :=
  fits 8 r.slot && fits 8 r.kind && fits 32 r.first && r.nodes.all ParseNode.wf
def StageBegin.wf (r : StageBegin) : Bool :=
  fits 8 r.deepAct && fits 8 r.lenAct && fits 8 r.mgmtRing && r.start.length == 5 && r.start.all (fits 8) && r.miss.length == 5 &&
    r.miss.all (fun m => fits 8 m.1 && fits 8 m.2.1 && fits 32 m.2.2)
def Action.wf (r : Action) : Bool :=
  fits 8 r.op && fits 8 r.a8 && fits 16 r.a16 && fits 32 r.a32
def Rule.wf (r : Rule) : Bool :=
  fits 32 r.id && fits 16 r.priority && r.acts.all Action.wf && r.value.length == 80 && r.mask.length == 80 && decide (r.acts.length ≤ 8)
def FdbGlobalReq.wf (r : FdbGlobalReq) : Bool :=
  fits 32 r.salt && fits 16 r.agePeriod
def FdbDomainReq.wf (r : FdbDomainReq) : Bool :=
  fits 16 r.fid && fits 32 r.flow && fits 8 r.missAct && fits 8 r.mgmtRing
def FdbMemberReq.wf (r : FdbMemberReq) : Bool :=
  fits 16 r.fid && fits 32 r.returnFlow && fits 16 r.source
def FdbLimitReq.wf (r : FdbLimitReq) : Bool :=
  r.limit.all (fits 32) && fits 16 r.scope
def FdbAddReq.wf (r : FdbAddReq) : Bool :=
  fits 16 r.fid && fits 48 r.mac && fits 16 r.source && fits 32 r.dest
def FdbFlushReq.wf (r : FdbFlushReq) : Bool :=
  r.fid.all (fits 16) && r.scope.all (fits 16)
def CamLayoutReq.wf (r : CamLayoutReq) : Bool :=
  fits 8 r.table && fits 8 r.firstBank && fits 8 r.banks && fits 8 r.width && fits 8 r.inputMask && fits 8 r.mgmtRing && r.segOff.length == 4 && r.segOff.all (fits 8)
def CamWriteReq.wf (r : CamWriteReq) : Bool :=
  fits 8 r.table && fits 32 r.index && fits 16 r.priority && fits 8 r.action && fits 8 r.cls && fits 32 r.flow && r.key.length == 80
def GateEntry.wf (r : GateEntry) : Bool :=
  fits 8 r.op && fits 8 r.states && fits 32 r.interval
def GateListReq.wf (r : GateListReq) : Bool :=
  fits 8 r.port && fits 64 r.baseSec && fits 32 r.baseNs && fits 32 r.cycle && r.entries.all GateEntry.wf && r.maxSdu.length == 8 &&
    r.maxSdu.all (fits 16)
def UpPortReq.wf (r : UpPortReq) : Bool :=
  fits 8 r.port && fits 8 r.express && fits 8 r.addFrag && fits 8 r.verifyMs && fits 16 r.maxFrame && fits 16 r.twUs
def SteerReq.wf (r : SteerReq) : Bool :=
  fits 8 r.rule && fits 8 r.port && r.vid.all (fits 16) && r.pcp.all (fits 8) && r.etype.all (fits 16) && fits 8 r.cls && fits 32 r.flow
def UplinkRx.wf (r : UplinkRx) : Bool :=
  fits 8 r.point && fits 8 r.lane && clockOk r.now
def RecGlobalReq.wf (r : RecGlobalReq) : Bool :=
  fits 8 r.tevMask && fits 32 r.ring && fits 32 r.preMs && fits 32 r.postMs && fits 32 r.maxMs
def RecStreamReq.wf (r : RecStreamReq) : Bool :=
  fits 8 r.stream && fits 8 r.k && fits 16 r.appid && fits 16 r.source && fits 8 r.nch && fits 32 r.smpWrap
def RecRuleReq.wf (r : RecRuleReq) : Bool :=
  fits 8 r.rule && fits 8 r.cmp && fits 8 r.stream && fits 8 r.channel && fits 8 r.hold && fitsInt 32 r.level
def NvmeDone.wf (r : NvmeDone) : Bool :=
  decide (r.kind < 3) && fits 16 r.opcode && fits 16 r.status && fits 10 r.cmd
def ImageOpenReq.wf (r : ImageOpenReq) : Bool :=
  fits 32 r.blocks
def AgentReq.wf (r : AgentReq) : Bool :=
  fits 8 r.agent && fits 32 r.replyFlow && fits 64 r.addr
def ImageBlockReq.wf (r : ImageBlockReq) : Bool :=
  fits 32 r.index
def PushReq.wf (r : PushReq) : Bool :=
  fits 8 r.tree && fits 8 r.perFrame && fits 8 r.rounds && fits 32 r.len && fits 256 r.mask

/-- Is a command well-formed? -/
def Instr.wf (i : Instr) : Bool :=
  match i with
  | .tickBoundary _ => true
  | .manifestDeadline _ => true
  | .quietWindowEnd tree => fits 8 tree
  | .errorBlockEnd => true
  | .pmSecondEnd => true
  | .counterDumpDone => true
  | .namedTickReached tree => fits 8 tree
  | .rekeyErase tree id => fits 8 tree && fits 8 id
  | .bargeReceive r => r.wf
  | .reasmTimeout tree id => fits 8 tree && fits 8 id
  | .hailReceive r => r.wf
  | .terminalLost tree serial => fits 8 tree && fits 64 serial
  | .idHoldExpiry tree id => fits 8 tree && fits 8 id
  | .upstreamParcel lane now => fits 8 lane && clockOk now
  | .cipherTagVerify => true
  | .uplinkFrameRx r => r.wf
  | .recirculationPass pipeline now => fits 1 pipeline && clockOk now
  | .recircTimeout pipeline now => fits 1 pipeline && clockOk now
  | .fdbLearn => true
  | .fdbAgeSweep => true
  | .spillWriteComplete queue _ => fits 20 queue
  | .refillClaimGrant => true
  | .refillReadComplete queue _ => fits 20 queue
  | .hbmUncorrectableFault => true
  | .egressSelect o => o.wf
  | .fragmentAbort tree => fits 8 tree
  | .calendarSlot slot => fits 4 slot
  | .drrStarve point => fits 8 point
  | .gateListEntry port now => fits 8 port && clockOk now
  | .gateListOperational port now => fits 8 port && clockOk now
  | .preemptVerify port _ => fits 8 port
  | .lpiEntry port now => fits 8 port && clockOk now
  | .uplinkLinkChange port _ speed => fits 8 port && fits 32 speed
  | .hostTxFetch o => o.wf
  | .doorbellLo o => o.wf
  | .mailboxComplete ctx => decide (ctx < 8)
  | .cycleLoRead => true
  | .snapLoRead => true
  | .eventRingCtrlWrite ring value => fits 8 ring && fits 32 value
  | .registerWrite off value => fits 32 off && fits 32 value
  | .eventRaise now => clockOk now
  | .eventCoalesceExpiry ring now => fits 8 ring && clockOk now
  | .sysInfo ctx => decide (ctx < 8)
  | .sysResetSystem ctx confirm => decide (ctx < 8) && fits 32 confirm
  | .sysResetManagement ctx confirm => decide (ctx < 8) && fits 32 confirm
  | .boardProfileLoad ctx r => decide (ctx < 8) && r.wf
  | .powerStateSet ctx state => decide (ctx < 8) && fits 8 state
  | .sluiceBudgetSet ctx r => decide (ctx < 8) && r.wf
  | .sluiceStatus ctx => decide (ctx < 8)
  | .treeAttach ctx tree _ => decide (ctx < 8) && fits 8 tree
  | .treeDetach ctx tree => decide (ctx < 8) && fits 8 tree
  | .treeConfig ctx r => decide (ctx < 8) && r.wf
  | .treeStatus ctx tree => decide (ctx < 8) && fits 8 tree
  | .treeSeal ctx tree => decide (ctx < 8) && fits 8 tree
  | .treeUnseal ctx tree => decide (ctx < 8) && fits 8 tree
  | .quietWindowSet ctx r => decide (ctx < 8) && r.wf
  | .terminalAdmit ctx r => decide (ctx < 8) && r.wf
  | .terminalRemove ctx r => decide (ctx < 8) && r.wf
  | .terminalStatus ctx n => decide (ctx < 8) && n.wf
  | .terminalDozePolicy ctx r => decide (ctx < 8) && r.wf
  | .rangeReport ctx tree first => decide (ctx < 8) && fits 8 tree && fits 16 first
  | .flowCreate ctx r => decide (ctx < 8) && r.wf
  | .flowDelete ctx r => decide (ctx < 8) && r.wf
  | .grantSetWeir ctx r => decide (ctx < 8) && r.wf
  | .grantSetCadence ctx r => decide (ctx < 8) && r.wf
  | .grantSetReported ctx r => decide (ctx < 8) && r.wf
  | .grantSetBest ctx r => decide (ctx < 8) && r.wf
  | .grantSetDefault ctx r => decide (ctx < 8) && r.wf
  | .grantSetTreeParams ctx tree poll => decide (ctx < 8) && fits 8 tree && fits 8 poll
  | .queueConfigProfileSet ctx r => decide (ctx < 8) && r.wf
  | .queueConfigBind ctx r => decide (ctx < 8) && r.wf
  | .shaperSet ctx r => decide (ctx < 8) && r.wf
  | .schedConfigQuantum ctx r => decide (ctx < 8) && r.wf
  | .schedConfigPoint ctx r => decide (ctx < 8) && r.wf
  | .schedConfigHist ctx r => decide (ctx < 8) && r.wf
  | .feederPolicy ctx r => decide (ctx < 8) && r.wf
  | .poolConfigWrite ctx r => decide (ctx < 8) && r.wf
  | .poolConfigRead ctx => decide (ctx < 8)
  | .gateListSetList ctx r => decide (ctx < 8) && r.wf
  | .gateListSetPort ctx r => decide (ctx < 8) && r.wf
  | .gateListSetSteer ctx r => decide (ctx < 8) && r.wf
  | .parseGraphLoad ctx r => decide (ctx < 8) && r.wf
  | .rulesetStageBegin ctx r => decide (ctx < 8) && r.wf
  | .rulesetStageAdd ctx slot rules => decide (ctx < 8) && fits 8 slot && rules.all Rule.wf
  | .rulesetStageBuild ctx slot => decide (ctx < 8) && fits 8 slot
  | .rulesetCompileDone slot words => fits 8 slot && fits 32 words
  | .rulesetStageFree ctx slot => decide (ctx < 8) && fits 8 slot
  | .rulesetCommit ctx slot _ => decide (ctx < 8) && fits 8 slot
  | .rulesetStatus ctx => decide (ctx < 8)
  | .fdbConfigGlobal ctx r => decide (ctx < 8) && r.wf
  | .fdbConfigDomain ctx r => decide (ctx < 8) && r.wf
  | .fdbConfigMember ctx r => decide (ctx < 8) && r.wf
  | .fdbConfigLimit ctx r => decide (ctx < 8) && r.wf
  | .fdbEntryAdd ctx r => decide (ctx < 8) && r.wf
  | .fdbEntryDelete ctx fid mac => decide (ctx < 8) && fits 16 fid && fits 48 mac
  | .fdbEntryReadKey ctx fid mac => decide (ctx < 8) && fits 16 fid && fits 48 mac
  | .fdbEntryFlush ctx r => decide (ctx < 8) && r.wf
  | .fdbEntryReadIndex ctx index count => decide (ctx < 8) && fits 32 index && fits 32 count
  | .camLayout ctx r => decide (ctx < 8) && r.wf
  | .camEntryWrite ctx r => decide (ctx < 8) && r.wf
  | .camEntryInvalidate ctx table index => decide (ctx < 8) && fits 8 table && fits 32 index
  | .camEntryRead ctx table index => decide (ctx < 8) && fits 8 table && fits 32 index
  | .saInstall ctx r => decide (ctx < 8) && r.wf
  | .saRekeyTerminal ctx tree id => decide (ctx < 8) && fits 8 tree && fits 8 id
  | .saRekeyTree ctx tree => decide (ctx < 8) && fits 8 tree
  | .saRekeyDevice ctx => decide (ctx < 8)
  | .saRekeyTxSwitch ctx uplink sa => decide (ctx < 8) && fits 8 uplink && fits 8 sa
  | .saRekeySaDelete ctx uplink sa => decide (ctx < 8) && fits 8 uplink && fits 8 sa
  | .saStatus ctx kind unit_ index => decide (ctx < 8) && fits 8 kind && fits 8 unit_ && fits 8 index
  | .tamperPolicySet ctx r => decide (ctx < 8) && r.wf
  | .tamperPolicyRead ctx => decide (ctx < 8)
  | .tamperPolicyReadLog ctx => decide (ctx < 8)
  | .lifecycleProvision ctx _ => decide (ctx < 8)
  | .lifecycleSecure ctx _ => decide (ctx < 8)
  | .lifecycleClearAlarm ctx _ => decide (ctx < 8)
  | .lifecycleDecommission ctx _ => decide (ctx < 8)
  | .lifecycleRekeyOwner ctx _ => decide (ctx < 8)
  | .debugChallengeIssue ctx => decide (ctx < 8)
  | .debugOpenSigned ctx r => decide (ctx < 8) && r.wf
  | .debugClose ctx => decide (ctx < 8)
  | .debugOpen ctx => decide (ctx < 8)
  | .debugWindowExpiry => true
  | .timeConfigClock ctx r => decide (ctx < 8) && r.wf
  | .timeConfigPort ctx r => decide (ctx < 8) && r.wf
  | .timeConfigTree ctx r => decide (ctx < 8) && r.wf
  | .timeConfigStatus ctx => decide (ctx < 8)
  | .timeIncrementSetIncrement ctx inc now => decide (ctx < 8) && fits 64 inc && clockOk now
  | .timeIncrementSetStepAbs ctx sec ns => decide (ctx < 8) && fits 64 sec && fits 32 ns
  | .timeIncrementSetStepRel ctx offset => decide (ctx < 8) && fitsInt 64 offset
  | .tevScheduleMode ctx r => decide (ctx < 8) && r.wf
  | .tevScheduleAdd ctx r now => decide (ctx < 8) && r.wf && clockOk now
  | .tevScheduleCancelAll ctx pin => decide (ctx < 8) && fits 8 pin
  | .netTriggerSet ctx r => decide (ctx < 8) && r.wf
  | .netTriggerCancel ctx r => decide (ctx < 8) && r.wf
  | .protGroupCreate ctx r => decide (ctx < 8) && r.wf
  | .protGroupDelete ctx pgid => decide (ctx < 8) && fits 16 pgid
  | .leaseStatus ctx pgid => decide (ctx < 8) && fits 16 pgid
  | .leaseDrillDrill ctx r => decide (ctx < 8) && r.wf
  | .leaseDrillCalibrate ctx r => decide (ctx < 8) && r.wf
  | .leaseDrillMove ctx r => decide (ctx < 8) && r.wf
  | .drillDwellExpiry r => r.wf
  | .calMeanUpdate tree => fits 8 tree
  | .twinFlowSet ctx r => decide (ctx < 8) && r.wf
  | .twinFlowClear ctx devA flowA => decide (ctx < 8) && fits 8 devA && fits 32 flowA
  | .towpathConfigLink ctx r => decide (ctx < 8) && r.wf
  | .towpathConfigFabric ctx r => decide (ctx < 8) && r.wf
  | .towpathTopologyLinks ctx => decide (ctx < 8)
  | .towpathTopologyRoutes ctx => decide (ctx < 8)
  | .towpathTopologyDevices ctx => decide (ctx < 8)
  | .recorderConfigGlobal ctx r => decide (ctx < 8) && r.wf
  | .recorderConfigStream ctx r => decide (ctx < 8) && r.wf
  | .recorderConfigRule ctx r => decide (ctx < 8) && r.wf
  | .recorderConfigStore ctx _ => decide (ctx < 8)
  | .recorderTrigger ctx tag => decide (ctx < 8) && fits 32 tag
  | .recorderIndexList ctx id count => decide (ctx < 8) && fits 64 id && fits 32 count
  | .recorderIndexKeep ctx id => decide (ctx < 8) && fits 64 id
  | .recorderIndexUnkeep ctx id => decide (ctx < 8) && fits 64 id
  | .recorderIndexDelete ctx id => decide (ctx < 8) && fits 64 id
  | .recorderIndexReadPile ctx id pile addr => decide (ctx < 8) && fits 64 id && fits 32 pile && fits 64 addr
  | .foldBlockTimeout stream now => fits 8 stream && clockOk now
  | .pileTimeout now => clockOk now
  | .captureEnd id now => fits 64 id && clockOk now
  | .nvmeCompletion r => r.wf
  | .imageOpen ctx r => decide (ctx < 8) && r.wf
  | .imageOpenAgent ctx r => decide (ctx < 8) && r.wf
  | .imageBlock ctx r => decide (ctx < 8) && r.wf
  | .imageVerifyDone => true
  | .imageStatus ctx => decide (ctx < 8)
  | .imageActivate ctx => decide (ctx < 8)
  | .pauseEnd _ now => clockOk now
  | .imageCommit ctx => decide (ctx < 8)
  | .imageAbortSession ctx => decide (ctx < 8)
  | .imageAbortRollback ctx => decide (ctx < 8)
  | .trialExpiry => true
  | .bitmapPersist => true
  | .inbandFrameRx _ => true
  | .terminalImagePushStart ctx r => decide (ctx < 8) && r.wf
  | .terminalImagePushStatus ctx tree => decide (ctx < 8) && fits 8 tree
  | .terminalImagePushCancel ctx tree => decide (ctx < 8) && fits 8 tree
  | .terminalImagePushActivate ctx tree at_ => decide (ctx < 8) && fits 8 tree && fits 64 at_
  | .tswReportRx => true
  | .tswQueryTimeout tree => fits 8 tree
  | .counterDumpSet ctx r => decide (ctx < 8) && r.wf
  | .counterSelectProgram ctx r => decide (ctx < 8) && r.wf
  | .counterSelectClear ctx r => decide (ctx < 8) && r.wf
  | .counterSelectQueueBlock ctx r => decide (ctx < 8) && r.wf
  | .counterSelectWindow ctx r => decide (ctx < 8) && r.wf
  | .counterSelectCatalog ctx group => decide (ctx < 8) && fits 8 group
  | .eventRoute ctx r => decide (ctx < 8) && r.wf
  | .pmReadRead ctx r => decide (ctx < 8) && r.wf
  | .pmReadConfig ctx r => decide (ctx < 8) && r.wf
  | .debugStatus ctx => decide (ctx < 8)
  | .powerOnReset p => p.wf
  | .systemReset cause => fits 8 cause
  | .mainRailsLost => true
  | .managementRestart core => fits 8 core
  | .hostInterfaceReset cause => fits 8 cause
  | .refclkFail reference => fits 8 reference
  | .refclkRestore _ _ => true
  | .timeSourceLost => true
  | .timeSourceRegained => true
  | .holdoverLimit => true
  | .ppsInEdge now => clockOk now
  | .servoUpdate o => o.wf
  | .ppsOutPulse now => clockOk now
  | .tevFire pin now => fits 8 pin && clockOk now
  | .tevCapture pin _ now => fits 8 pin && clockOk now
  | .tickAlign _ cycle => fits 48 cycle
  | .tamperDetect _ seconds => fits 48 seconds
  | .keeperPulseRx r => r.wf
  | .leaseExpiry tree => fits 8 tree
  | .leaseInitTimeout tree => fits 8 tree
  | .leasePathTimeout tree => fits 8 tree
  | .leaseHeartbeatRx r => r.wf
  | .trainUnitRx r => r.wf
  | .trainingTimeout link now => fits 8 link && clockOk now
  | .backoffExpiry link now => fits 8 link && clockOk now
  | .dormantWake link => fits 8 link
  | .helloTimeout link now => fits 8 link && clockOk now
  | .blockLockLoss link now => fits 8 link && clockOk now
  | .helloSend => true
  | .helloRx r => r.wf
  | .lsaFlood now => clockOk now
  | .lsaRx r => r.wf
  | .lsaExpiry now => clockOk now
  | .routeRecompute => true
  | .creditAdvertiseRx link cls limit => fits 8 link && fits 8 cls && fits 16 limit
  | .towpathDataRx r lane => r.wf && fits 8 lane
  | .twinUnitRx r => r.wf
  | .claimRx r => r.wf
  | .mirrorRx r m => r.wf && m.wf
  | .bulkSegmentRx r => r.wf
  | .bulkSegmentTimeout src object now => fits 8 src && fits 48 object && clockOk now
  | .voidRx r => r.wf
  | .mgmtUnitRx r => r.wf
  | .laneWakeFail tree => fits 8 tree
  | .wakeRetry tree => fits 8 tree
  | .wakeSeriesRestart tree => fits 8 tree
  | .modulePoll r => r.wf
  | .sluiceWait => true
  | .sluiceWaitLimit => true
  | .hbmRinseStart => true
  | .hbmRinseDone _ => true
  | .camVerifyRewrite table index _ => fits 8 table && fits 16 index
  | .tapDbgAuth _ => true
  | .tapExtest => true
  | .tapSamplePreload _ _ => true
  | .coreHalt core => fits 8 core
  | .coreResume core => fits 8 core
  | .coreSingleStep core => fits 8 core
  | .breakpointHit r => r.wf
  | .systemMemoryAccess r => r.wf
  | .evtReady => true
  | .settingsRestore => true
  | .adesaFatal => true
  | .rollbackPauseEnd now => clockOk now
  | .nvmeLinkChange _ => true
  | .vbatFall => true
  | .towpathLinkEgressSlot link now => fits 8 link && clockOk now
  | .unitCrcDrop link => fits 8 link
  | .alignWaitExpiry => true
  | .tableRebuildDone job => fits 64 job
  | .ptpMessageInterval port event => fits 8 port && event.wf
  | .d3hotTransition _ => true

end Sys2Proof
end

