-- ==== Sys2Proof/Tests/Slice0.lean ====
section
/-!
SUPPORT. Tests: each check of well-formedness refuses an ill-formed term; worked examples of the manual; for each statement with hypotheses, states
and operands that meet them.
-/
open Sys2Proof Sys2Proof.Machine

/-! ### Well-formedness -/

def okPageRead : PageRead := { opcode := 0, format := 0, reqLen := 0, hostTag := 0, payload := [] }
def badPageRead : PageRead := { okPageRead with opcode := 65536 }
def okDoorbell : Doorbell := { ctx := 0, value := 0, page := none }
def badDoorbell : Doorbell := { okDoorbell with ctx := 8 }
def okTxDesc : TxDesc := { addr := 0, len := 0, own := false, first := false, last := false, data := [] }
def badTxDesc : TxDesc := { okTxDesc with addr := 18446744073709551616 }
def okTxFetch : TxFetch := { ring := 0, descs := [], lane := 0, now := 0, ready := [] }
def badTxFetch : TxFetch := { okTxFetch with ring := 256 }
def okEventRouteReq : EventRouteReq := { first := 0, count := 0, ring := 0 }
def badEventRouteReq : EventRouteReq := { okEventRouteReq with first := 65536 }
def okDumpReq : DumpReq := { enable := false, slots := 0, period := 0, base := 0, slotSize := 0, select := [] }
def badDumpReq : DumpReq := { okDumpReq with slots := 65536 }
def okProgramReq : ProgramReq := { mode := 0, counter := 0, kind := 0, group := 0, stat := 0, first := 0, last := 0 }
def badProgramReq : ProgramReq := { okProgramReq with mode := 256 }
def okClearGroupReq : ClearGroupReq := { group := 0, first := 0, count := 0 }
def badClearGroupReq : ClearGroupReq := { okClearGroupReq with group := 256 }
def okQueueBlockReq : QueueBlockReq := { block := 0, first := 0 }
def badQueueBlockReq : QueueBlockReq := { okQueueBlockReq with block := 65536 }
def okWindowReq : WindowReq := { window := 0, group := 0, first := 0 }
def badWindowReq : WindowReq := { okWindowReq with window := 65536 }
def okPorPins : PorPins := { devAddr := 0, refA := false, refB := false }
def badPorPins : PorPins := { okPorPins with devAddr := 64 }
def okBoardProfileReq : BoardProfileReq := { section_ := 0, persist := false, length := 0, hostAddr := 0, data := none }
def badBoardProfileReq : BoardProfileReq := { okBoardProfileReq with section_ := 256 }
def okBudgetReq : BudgetReq := { budget := 0, waitLimit := 0, prio := [] }
def badBudgetReq : BudgetReq := { okBudgetReq with budget := 65536 }
def okTreeConfigReq : TreeConfigReq := { tree := 0, fast := false, txDisableIdle := false, rateSelect := 0 }
def badTreeConfigReq : TreeConfigReq := { okTreeConfigReq with tree := 256 }
def okMemAccess : MemAccess := { space := 0, addr := 0, write := false, value := 0, page := none }
def badMemAccess : MemAccess := { okMemAccess with space := 256 }
def okBreakHit : BreakHit := { core := 0, unit_ := 0, first := 0, last := 0, onRead := false, onWrite := false, access := 0, addr := 0 }
def badBreakHit : BreakHit := { okBreakHit with core := 256 }
def okTapAuth : TapAuth := { opening := none }
def okModulePoll : ModulePoll := { tree := 0, data := none, failedRecoveries := 0, held := false }
def badModulePoll : ModulePoll := { okModulePoll with tree := 256 }
def okBargeRx : BargeRx := { tree := 0, tid := 0, start := 0, first := 0, bits := [] }
def badBargeRx : BargeRx := { okBargeRx with tree := 256 }
def okHailRx : HailRx := { tree := 0, first := 0, bits := [] }
def badHailRx : HailRx := { okHailRx with tree := 256 }
def okQwSetReq : QwSetReq := { tree := 0, reach := 0, mode := 0, period := 0, phase := 0 }
def badQwSetReq : QwSetReq := { okQwSetReq with tree := 256 }
def okAdmitReq : AdmitReq := { tree := 0, fec := false, dynamic := false, id := 0, lostTime := 0, serial := 0 }
def badAdmitReq : AdmitReq := { okAdmitReq with tree := 256 }
def okTermName : TermName := { tree := 0, id := 0, bySerial := false, serial := 0 }
def badTermName : TermName := { okTermName with tree := 256 }
def okRemoveReq : RemoveReq := { name := okTermName, holdoff := 0 }
def badRemoveReq : RemoveReq := { okRemoveReq with name := badTermName }
def okDozeReq : DozeReq := { name := okTermName, enable := false, period := 0, idle := 0 }
def badDozeReq : DozeReq := { okDozeReq with name := badTermName }
def okWeirReq : WeirReq := { tree := 0, id := 0, start := none, ncw := 0 }
def badWeirReq : WeirReq := { okWeirReq with tree := 256 }
def okCadenceReq : CadenceReq := { tree := 0, id := 0, slot := 0, hint := none, start := none, ncw := 0, n := 0, phase := 0 }
def badCadenceReq : CadenceReq := { okCadenceReq with tree := 256 }
def okQueueGrantReq : QueueGrantReq := { tree := 0, cls := 0, flow := 0, weight := 0, ar := 0, pr := 0 }
def badQueueGrantReq : QueueGrantReq := { okQueueGrantReq with tree := 256 }
def okFlowReq : FlowReq := { flow := 0, dir := 0, tree := 0, id := 0, egress := 0, profile := [] }
def badFlowReq : FlowReq := { okFlowReq with flow := 4294967296 }
def okFlowDelReq : FlowDelReq := { flow := 0, drain := false, drainTicks := 0 }
def badFlowDelReq : FlowDelReq := { okFlowDelReq with flow := 4294967296 }
def okProfileReq : ProfileReq := { profile := 0, sample := false, maxBytes := 0 }
def badProfileReq : ProfileReq := { okProfileReq with profile := 256 }
def okBindReq : BindReq := { profile := 0, first := 0, count := 0 }
def badBindReq : BindReq := { okBindReq with profile := 256 }
def okFeederReq : FeederReq := { profile := 0, enable := false, mode := 0, spillHi := 0, refillLo := 0 }
def badFeederReq : FeederReq := { okFeederReq with profile := 65536 }
def okPoolReq : PoolReq := { quotas := false, weirReserve := 0, refillReserve := 0, quota := [] }
def badPoolReq : PoolReq := { okPoolReq with weirReserve := 4294967296 }
def okShaperReq : ShaperReq := { bucket := 0, mode := 0, classes := 0, full := false, demote := false, demoteClass := 0, rate := 0, burst := 0 }
def badShaperReq : ShaperReq := { okShaperReq with bucket := 4294967296 }
def okQuantumReq : QuantumReq := { first := 0, count := 0, quantum := 0 }
def badQuantumReq : QuantumReq := { okQuantumReq with first := 4294967296 }
def okPointReq : PointReq := { point := 0, fragBytes := 0, overhead := 0, starve := 0 }
def badPointReq : PointReq := { okPointReq with point := 256 }
def okHistReq : HistReq := { enable := false, unit_ := 0, first := 0, count := 0, nlog2 := 0 }
def badHistReq : HistReq := { okHistReq with unit_ := 65536 }
def okEgress : Egress := { point := 0, now := 0, descs := [] }
def badEgress : Egress := { okEgress with point := 256 }
def okPmReadReq : PmReadReq := { scope := 0, tree := 0, id := 0, first := 0, count := 0 }
def badPmReadReq : PmReadReq := { okPmReadReq with scope := 4294967296 }
def okPmConfigReq : PmConfigReq := { scope := 0, tree := 0, id := 0, dayBins := false, thresholds := none }
def badPmConfigReq : PmConfigReq := { okPmConfigReq with scope := 4294967296 }
def okSaInstallReq : SaInstallReq := { kind := 0, unit_ := 0, index := 0, tx := false, test := false, sub := 0, sci := 0, ssci := 0, an := 0, confOffset := 0, replay := 0, salt := 0, nextPn := 0, iv := 0, cipher := [], tag := 0 }
def badSaInstallReq : SaInstallReq := { okSaInstallReq with kind := 256 }
def okAuthBlock : AuthBlock := { pubkey := [], sig := [] }
def okTamperSetReq : TamperSetReq := { source := 0, action := 0, failLimit := 0, auth := none }
def badTamperSetReq : TamperSetReq := { okTamperSetReq with source := 256 }
def okLifecycleReq : LifecycleReq := { clear := false, authHash := 0, ownerKey := [], auth := okAuthBlock }
def okDebugOpenReq : DebugOpenReq := { window := 0, auth := okAuthBlock }
def badDebugOpenReq : DebugOpenReq := { okDebugOpenReq with window := 4294967296 }
def okGroupReq : GroupReq := { pgid := 0, primary := false, tree := 0, peerDev := 0, peerTree := 0, pulse := none, cal := 0, armed := false }
def badGroupReq : GroupReq := { okGroupReq with pgid := 65536 }
def okDrillReq : DrillReq := { pgid := 0, dwell := 0, offsets := [] }
def badDrillReq : DrillReq := { okDrillReq with pgid := 65536 }
def okDwellEnd : DwellEnd := { tree := 0, heard := [], maxOffset := 0, offsets := [] }
def badDwellEnd : DwellEnd := { okDwellEnd with tree := 256 }
def okTwinReq : TwinReq := { pairUp := false, seq := false, backup := false, devA := 0, devB := 0, flowA := 0, flowB := 0, seqDev := 0, backupDev := 0 }
def badTwinReq : TwinReq := { okTwinReq with devA := 256 }
def okPulseRx : PulseRx := { pair := 0, edge := 0, width := 0 }
def badPulseRx : PulseRx := { okPulseRx with pair := 2 }
def okMirrorTerm : MirrorTerm := { serial := 0, id := none, state := 0, range := 0, fec := false, weir := none, cads := [], tk := none, slots := [], phase := false, firstX := none, rekeyX := none, version := none }
def badMirrorTerm : MirrorTerm := { okMirrorTerm with serial := 18446744073709551616 }
def okMirrorRec : MirrorRec := { tree := 0, terms := [], manifest := none, reach := 0, mode := 0, period := 0, phase := 0, kp := false, move := none, dwell := none }
def badMirrorRec : MirrorRec := { okMirrorRec with tree := 256 }
def okClockReq : ClockReq := { source := 0, profile := 0, aligned := false, ppsOut := false, holdLimit := 0, ppsWidth := 0, phaseAlarm := 0, phi0 := 0, stepThreshold := 0 }
def badClockReq : ClockReq := { okClockReq with source := 256 }
def okTimePortReq : TimePortReq := { port := 0, enable := false, oneStep := false, rxLat := 0, txLat := 0 }
def badTimePortReq : TimePortReq := { okTimePortReq with port := 256 }
def okTimeTreeReq : TimeTreeReq := { tree := 0, asym := 0, fixed := 0 }
def badTimeTreeReq : TimeTreeReq := { okTimeTreeReq with tree := 256 }
def okTevModeReq : TevModeReq := { pin := 0, mode := 0, edges := 0 }
def badTevModeReq : TevModeReq := { okTevModeReq with pin := 256 }
def okTevAddReq : TevAddReq := { pin := 0, sec := 0, ns := 0, width := 0, period := 0, count := 0 }
def badTevAddReq : TevAddReq := { okTevAddReq with pin := 256 }
def okTrigReq : TrigReq := { tree := 0, trigId := 0, output := 0, sec := 0, ns := 0, period := 0, repeats := 0, mask := 0 }
def badTrigReq : TrigReq := { okTrigReq with tree := 256 }
def okServoOut : ServoOut := { inc := none, offset := 0, now := 0 }
def badServoOut : ServoOut := { okServoOut with inc := some 18446744073709551616 }
def okTrainRx : TrainRx := { link := 0, lane := 0, bits := List.replicate 128 false, locked := false, skew := 0, now := 0 }
def badTrainRx : TrainRx := { okTrainRx with link := 256 }
def okTowRx : TowRx := { link := 0, dst := 0, src := 0, hops := 0, cls := none, lseq := 0, payload := [], now := 0 }
def badTowRx : TowRx := { okTowRx with link := 256 }
def okTowLinkReq : TowLinkReq := { link := 0, enable := false, retrain := false, cost := 0 }
def badTowLinkReq : TowLinkReq := { okTowLinkReq with link := 256 }
def okTowFabricReq : TowFabricReq := { align := false, rejoin := false, wait := 0 }
def badTowFabricReq : TowFabricReq := { okTowFabricReq with wait := 65536 }
def okParseNode : ParseNode := { hdrType := 0, selOff := 0, selMask := 0, advFixed := 0, advFoff := 0, advFmask := 0, advFscale := 0, transFirst := 0, transCount := 0, defaultNext := 0, extOff := 0, extLen := 0, extKey := 0, vbit := 0 }
def badParseNode : ParseNode := { okParseNode with hdrType := 256 }
def okParseReq : ParseReq := { slot := 0, kind := 0, first := 0, nodes := [], trans := [] }
def badParseReq : ParseReq := { okParseReq with slot := 256 }
def okStageBegin : StageBegin := { start := List.replicate 5 0, deepAct := 0, lenAct := 0, mgmtRing := 0, miss := List.replicate 5 (0, 0, 0) }
def badStageBegin : StageBegin := { okStageBegin with start := [] }
def okAction : Action := { op := 0, a8 := 0, a16 := 0, a32 := 0 }
def badAction : Action := { okAction with op := 256 }
def okRule : Rule := { id := 0, priority := 0, value := List.replicate 80 0, mask := List.replicate 80 0, acts := [] }
def badRule : Rule := { okRule with id := 4294967296 }
def okFdbGlobalReq : FdbGlobalReq := { learn := false, oldest := false, salt := 0, agePeriod := 0 }
def badFdbGlobalReq : FdbGlobalReq := { okFdbGlobalReq with salt := 4294967296 }
def okFdbDomainReq : FdbDomainReq := { enable := false, learn := false, fid := 0, flow := 0, missAct := 0, mgmtRing := 0 }
def badFdbDomainReq : FdbDomainReq := { okFdbDomainReq with fid := 65536 }
def okFdbMemberReq : FdbMemberReq := { add := false, flood := false, fid := 0, returnFlow := 0, source := 0 }
def badFdbMemberReq : FdbMemberReq := { okFdbMemberReq with fid := 65536 }
def okFdbLimitReq : FdbLimitReq := { excessFlood := false, limit := none, scope := 0 }
def badFdbLimitReq : FdbLimitReq := { okFdbLimitReq with limit := some 4294967296 }
def okFdbAddReq : FdbAddReq := { static := false, fid := 0, mac := 0, source := 0, dest := 0 }
def badFdbAddReq : FdbAddReq := { okFdbAddReq with fid := 65536 }
def okFdbFlushReq : FdbFlushReq := { fid := none, scope := none }
def badFdbFlushReq : FdbFlushReq := { okFdbFlushReq with fid := some 65536 }
def okCamLayoutReq : CamLayoutReq := { table := 0, enable := false, firstBank := 0, banks := 0, width := 0, inputMask := 0, segOff := List.replicate 4 0, mgmtRing := 0 }
def badCamLayoutReq : CamLayoutReq := { okCamLayoutReq with table := 256 }
def okCamWriteReq : CamWriteReq := { table := 0, index := 0, priority := 0, action := 0, cls := 0, flow := 0, key := List.replicate 80 0 }
def badCamWriteReq : CamWriteReq := { okCamWriteReq with table := 256 }
def okGateEntry : GateEntry := { op := 0, states := 0, interval := 0 }
def badGateEntry : GateEntry := { okGateEntry with op := 256 }
def okGateListReq : GateListReq := { port := 0, enable := false, baseSec := 0, baseNs := 0, cycle := 0, maxSdu := List.replicate 8 0, entries := [] }
def badGateListReq : GateListReq := { okGateListReq with port := 256 }
def okUpPortReq : UpPortReq := { port := 0, promisc := false, allMulti := false, broadcast := false, lpi := false, preempt := false, verify := false, steering := false, express := 0, addFrag := 0, verifyMs := 0, maxFrame := 0, twUs := 0, addrs := [] }
def badUpPortReq : UpPortReq := { okUpPortReq with port := 256 }
def okSteerReq : SteerReq := { rule := 0, valid := false, port := 0, vid := none, pcp := none, etype := none, cls := 0, flow := 0 }
def badSteerReq : SteerReq := { okSteerReq with rule := 256 }
def okUplinkRx : UplinkRx := { point := 0, bytes := [], fcsOk := false, corrCw := 0, uncorrCw := 0, symbols := 0, lane := 0, now := 0 }
def badUplinkRx : UplinkRx := { okUplinkRx with point := 256 }
def okRecGlobalReq : RecGlobalReq := { run := false, tevMask := 0, ring := 0, preMs := 0, postMs := 0, maxMs := 0 }
def badRecGlobalReq : RecGlobalReq := { okRecGlobalReq with tevMask := 256 }
def okRecStreamReq : RecStreamReq := { stream := 0, enable := false, goose := false, bounded := false, trig := false, k := 0, appid := 0, source := 0, nch := 0, smpWrap := 0 }
def badRecStreamReq : RecStreamReq := { okRecStreamReq with stream := 256 }
def okRecRuleReq : RecRuleReq := { rule := 0, enable := false, cmp := 0, stream := 0, channel := 0, hold := 0, level := 0 }
def badRecRuleReq : RecRuleReq := { okRecRuleReq with rule := 256 }
def okRecStoreReq : RecStoreReq := { nsids := [], format := false, absent := false, slots := 0, lba := [], metadata := false }
def okNvmeDone : NvmeDone := { cmd := 0, ok := false, opcode := 0, status := 0, kind := 0 }
def badNvmeDone : NvmeDone := { okNvmeDone with cmd := 1024 }
def okImageOpenReq : ImageOpenReq := { blocks := 0, digest := 0 }
def badImageOpenReq : ImageOpenReq := { okImageOpenReq with blocks := 4294967296 }
def okAgentReq : AgentReq := { agent := 0, enable := false, replyFlow := 0, addr := 0 }
def badAgentReq : AgentReq := { okAgentReq with agent := 256 }
def okImageBlockReq : ImageBlockReq := { index := 0, block := [], flashFails := 0 }
def badImageBlockReq : ImageBlockReq := { okImageBlockReq with index := 4294967296 }
def okPushReq : PushReq := { tree := 0, perFrame := 0, rounds := 0, len := 0, mask := 0, digest := 0, reportFlows := [], image := [] }
def badPushReq : PushReq := { okPushReq with tree := 256 }
def okPtpEvent : PtpEvent := { msg := 0, state := 1 }
def badPtpEvent : PtpEvent := { okPtpEvent with msg := 16 }
def okTickIn : TickIn := { tj := 0, line := [], fec := [], maps := [], timeInfo := none }

/-- Each check of these operand records refuses a term that fails it alone (R11, R13). -/
theorem test_operands_ill_formed_1 :
    (okPageRead.wf && ([{ okPageRead with opcode := 65536 }, { okPageRead with format := 256 }, { okPageRead with reqLen := 65536 }, { okPageRead with hostTag := 18446744073709551616 }] : List PageRead).all (fun r => !r.wf)) = true ∧
    (okDoorbell.wf && ([{ okDoorbell with ctx := 8 }, { okDoorbell with value := 4294967296 }, { okDoorbell with page := some badPageRead }] : List Doorbell).all (fun r => !r.wf)) = true ∧
    (okTxDesc.wf && ([{ okTxDesc with addr := 18446744073709551616 }, { okTxDesc with len := 4294967296 }] : List TxDesc).all (fun r => !r.wf)) = true ∧
    (okTxFetch.wf && ([{ okTxFetch with ring := 256 }, { okTxFetch with descs := [badTxDesc] }, { okTxFetch with lane := 256 }, { okTxFetch with now := 312494 }] : List TxFetch).all (fun r => !r.wf)) = true ∧
    (okEventRouteReq.wf && ([{ okEventRouteReq with first := 65536 }, { okEventRouteReq with count := 65536 }, { okEventRouteReq with ring := 256 }] : List EventRouteReq).all (fun r => !r.wf)) = true ∧
    (okDumpReq.wf && ([{ okDumpReq with slots := 65536 }, { okDumpReq with period := 4294967296 }, { okDumpReq with base := 18446744073709551616 }, { okDumpReq with slotSize := 4294967296 }] : List DumpReq).all (fun r => !r.wf)) = true ∧
    (okProgramReq.wf && ([{ okProgramReq with mode := 256 }, { okProgramReq with counter := 65536 }, { okProgramReq with kind := 256 }, { okProgramReq with group := 256 }, { okProgramReq with stat := 256 }, { okProgramReq with first := 4294967296 }, { okProgramReq with last := 4294967296 }] : List ProgramReq).all (fun r => !r.wf)) = true ∧
    (okClearGroupReq.wf && ([{ okClearGroupReq with group := 256 }, { okClearGroupReq with first := 4294967296 }, { okClearGroupReq with count := 4294967296 }] : List ClearGroupReq).all (fun r => !r.wf)) = true ∧
    (okQueueBlockReq.wf && ([{ okQueueBlockReq with block := 65536 }, { okQueueBlockReq with first := 4294967296 }] : List QueueBlockReq).all (fun r => !r.wf)) = true ∧
    (okWindowReq.wf && ([{ okWindowReq with window := 65536 }, { okWindowReq with group := 256 }, { okWindowReq with first := 4294967296 }] : List WindowReq).all (fun r => !r.wf)) = true ∧
    (okPorPins.wf && ([{ okPorPins with devAddr := 64 }] : List PorPins).all (fun r => !r.wf)) = true ∧
    (okBoardProfileReq.wf && ([{ okBoardProfileReq with section_ := 256 }, { okBoardProfileReq with length := 4294967296 }, { okBoardProfileReq with hostAddr := 18446744073709551616 }] : List BoardProfileReq).all (fun r => !r.wf)) = true := by decide +kernel

/-- Each check of these operand records refuses a term that fails it alone (R11, R13). -/
theorem test_operands_ill_formed_2 :
    (okBudgetReq.wf && ([{ okBudgetReq with budget := 65536 }, { okBudgetReq with waitLimit := 65536 }] : List BudgetReq).all (fun r => !r.wf)) = true ∧
    (okTreeConfigReq.wf && ([{ okTreeConfigReq with tree := 256 }, { okTreeConfigReq with rateSelect := 256 }] : List TreeConfigReq).all (fun r => !r.wf)) = true ∧
    (okMemAccess.wf && ([{ okMemAccess with space := 256 }, { okMemAccess with addr := 18446744073709551616 }, { okMemAccess with value := 18446744073709551616 }, { okMemAccess with page := some badPageRead }] : List MemAccess).all (fun r => !r.wf)) = true ∧
    (okBreakHit.wf && ([{ okBreakHit with core := 256 }, { okBreakHit with unit_ := 256 }, { okBreakHit with first := 4294967296 }, { okBreakHit with last := 4294967296 }, { okBreakHit with access := 256 }, { okBreakHit with addr := 18446744073709551616 }] : List BreakHit).all (fun r => !r.wf)) = true ∧
    (okModulePoll.wf && ([{ okModulePoll with tree := 256 }] : List ModulePoll).all (fun r => !r.wf)) = true ∧
    (okBargeRx.wf && ([{ okBargeRx with tree := 256 }, { okBargeRx with tid := 256 }, { okBargeRx with start := 4294967296 }, { okBargeRx with first := 4294967296 }] : List BargeRx).all (fun r => !r.wf)) = true ∧
    (okHailRx.wf && ([{ okHailRx with tree := 256 }, { okHailRx with first := 4294967296 }] : List HailRx).all (fun r => !r.wf)) = true ∧
    (okQwSetReq.wf && ([{ okQwSetReq with tree := 256 }, { okQwSetReq with reach := 256 }, { okQwSetReq with mode := 256 }, { okQwSetReq with period := 65536 }, { okQwSetReq with phase := 65536 }] : List QwSetReq).all (fun r => !r.wf)) = true ∧
    (okAdmitReq.wf && ([{ okAdmitReq with tree := 256 }, { okAdmitReq with id := 256 }, { okAdmitReq with lostTime := 4294967296 }, { okAdmitReq with serial := 18446744073709551616 }] : List AdmitReq).all (fun r => !r.wf)) = true ∧
    (okTermName.wf && ([{ okTermName with tree := 256 }, { okTermName with id := 256 }, { okTermName with serial := 18446744073709551616 }] : List TermName).all (fun r => !r.wf)) = true ∧
    (okRemoveReq.wf && ([{ okRemoveReq with name := badTermName }, { okRemoveReq with holdoff := 65536 }] : List RemoveReq).all (fun r => !r.wf)) = true ∧
    (okDozeReq.wf && ([{ okDozeReq with name := badTermName }, { okDozeReq with period := 65536 }, { okDozeReq with idle := 65536 }] : List DozeReq).all (fun r => !r.wf)) = true := by decide +kernel

/-- Each check of these operand records refuses a term that fails it alone (R11, R13). -/
theorem test_operands_ill_formed_3 :
    (okWeirReq.wf && ([{ okWeirReq with tree := 256 }, { okWeirReq with id := 256 }, { okWeirReq with start := some 4294967296 }, { okWeirReq with ncw := 65536 }] : List WeirReq).all (fun r => !r.wf)) = true ∧
    (okCadenceReq.wf && ([{ okCadenceReq with tree := 256 }, { okCadenceReq with id := 256 }, { okCadenceReq with slot := 256 }, { okCadenceReq with hint := some 4294967296 }, { okCadenceReq with start := some 4294967296 }, { okCadenceReq with ncw := 65536 }, { okCadenceReq with n := 65536 }, { okCadenceReq with phase := 65536 }] : List CadenceReq).all (fun r => !r.wf)) = true ∧
    (okQueueGrantReq.wf && ([{ okQueueGrantReq with tree := 256 }, { okQueueGrantReq with cls := 256 }, { okQueueGrantReq with flow := 4294967296 }, { okQueueGrantReq with weight := 256 }, { okQueueGrantReq with ar := 4294967296 }, { okQueueGrantReq with pr := 4294967296 }] : List QueueGrantReq).all (fun r => !r.wf)) = true ∧
    (okFlowReq.wf && ([{ okFlowReq with flow := 4294967296 }, { okFlowReq with dir := 256 }, { okFlowReq with tree := 256 }, { okFlowReq with id := 256 }, { okFlowReq with egress := 256 }] : List FlowReq).all (fun r => !r.wf)) = true ∧
    (okFlowDelReq.wf && ([{ okFlowDelReq with flow := 4294967296 }, { okFlowDelReq with drainTicks := 4294967296 }] : List FlowDelReq).all (fun r => !r.wf)) = true ∧
    (okProfileReq.wf && ([{ okProfileReq with profile := 256 }, { okProfileReq with maxBytes := 4294967296 }] : List ProfileReq).all (fun r => !r.wf)) = true ∧
    (okBindReq.wf && ([{ okBindReq with profile := 256 }, { okBindReq with first := 4294967296 }, { okBindReq with count := 4294967296 }] : List BindReq).all (fun r => !r.wf)) = true ∧
    (okFeederReq.wf && ([{ okFeederReq with profile := 65536 }, { okFeederReq with mode := 256 }, { okFeederReq with spillHi := 65536 }, { okFeederReq with refillLo := 65536 }] : List FeederReq).all (fun r => !r.wf)) = true ∧
    (okPoolReq.wf && ([{ okPoolReq with weirReserve := 4294967296 }, { okPoolReq with refillReserve := 4294967296 }] : List PoolReq).all (fun r => !r.wf)) = true ∧
    (okShaperReq.wf && ([{ okShaperReq with bucket := 4294967296 }, { okShaperReq with mode := 256 }, { okShaperReq with classes := 256 }, { okShaperReq with demoteClass := 256 }, { okShaperReq with rate := 4294967296 }, { okShaperReq with burst := 4294967296 }] : List ShaperReq).all (fun r => !r.wf)) = true ∧
    (okQuantumReq.wf && ([{ okQuantumReq with first := 4294967296 }, { okQuantumReq with count := 4294967296 }, { okQuantumReq with quantum := 4294967296 }] : List QuantumReq).all (fun r => !r.wf)) = true ∧
    (okPointReq.wf && ([{ okPointReq with point := 256 }, { okPointReq with fragBytes := 65536 }, { okPointReq with overhead := 2147483648 }, { okPointReq with starve := 4294967296 }] : List PointReq).all (fun r => !r.wf)) = true := by decide +kernel

/-- Each check of these operand records refuses a term that fails it alone (R11, R13). -/
theorem test_operands_ill_formed_4 :
    (okHistReq.wf && ([{ okHistReq with unit_ := 65536 }, { okHistReq with first := 4294967296 }, { okHistReq with count := 4294967296 }, { okHistReq with nlog2 := 256 }] : List HistReq).all (fun r => !r.wf)) = true ∧
    (okEgress.wf && ([{ okEgress with point := 256 }, { okEgress with now := 312494 }] : List Egress).all (fun r => !r.wf)) = true ∧
    (okPmReadReq.wf && ([{ okPmReadReq with scope := 4294967296 }, { okPmReadReq with tree := 256 }, { okPmReadReq with id := 256 }, { okPmReadReq with first := 256 }, { okPmReadReq with count := 256 }] : List PmReadReq).all (fun r => !r.wf)) = true ∧
    (okPmConfigReq.wf && ([{ okPmConfigReq with scope := 4294967296 }, { okPmConfigReq with tree := 256 }, { okPmConfigReq with id := 256 }] : List PmConfigReq).all (fun r => !r.wf)) = true ∧
    (okSaInstallReq.wf && ([{ okSaInstallReq with kind := 256 }, { okSaInstallReq with unit_ := 256 }, { okSaInstallReq with index := 65536 }, { okSaInstallReq with sub := 256 }, { okSaInstallReq with sci := 18446744073709551616 }, { okSaInstallReq with ssci := 4294967296 }, { okSaInstallReq with an := 256 }, { okSaInstallReq with confOffset := 256 }, { okSaInstallReq with replay := 4294967296 }, { okSaInstallReq with salt := 79228162514264337593543950336 }, { okSaInstallReq with nextPn := 18446744073709551616 }, { okSaInstallReq with iv := 79228162514264337593543950336 }] : List SaInstallReq).all (fun r => !r.wf)) = true ∧
    (okTamperSetReq.wf && ([{ okTamperSetReq with source := 256 }, { okTamperSetReq with action := 256 }, { okTamperSetReq with failLimit := 256 }] : List TamperSetReq).all (fun r => !r.wf)) = true ∧
    (okDebugOpenReq.wf && ([{ okDebugOpenReq with window := 4294967296 }] : List DebugOpenReq).all (fun r => !r.wf)) = true ∧
    (okGroupReq.wf && ([{ okGroupReq with pgid := 65536 }, { okGroupReq with tree := 256 }, { okGroupReq with peerDev := 256 }, { okGroupReq with peerTree := 256 }, { okGroupReq with pulse := some 256 }, { okGroupReq with cal := 2147483648 }] : List GroupReq).all (fun r => !r.wf)) = true ∧
    (okDrillReq.wf && ([{ okDrillReq with pgid := 65536 }, { okDrillReq with dwell := 4294967296 }] : List DrillReq).all (fun r => !r.wf)) = true ∧
    (okDwellEnd.wf && ([{ okDwellEnd with tree := 256 }, { okDwellEnd with maxOffset := 65536 }] : List DwellEnd).all (fun r => !r.wf)) = true ∧
    (okTwinReq.wf && ([{ okTwinReq with devA := 256 }, { okTwinReq with devB := 256 }, { okTwinReq with flowA := 4294967296 }, { okTwinReq with flowB := 4294967296 }, { okTwinReq with seqDev := 256 }, { okTwinReq with backupDev := 256 }] : List TwinReq).all (fun r => !r.wf)) = true ∧
    (okPulseRx.wf && ([{ okPulseRx with pair := 2 }, { okPulseRx with width := 4294967296 }] : List PulseRx).all (fun r => !r.wf)) = true := by decide +kernel

/-- Each check of these operand records refuses a term that fails it alone (R11, R13). -/
theorem test_operands_ill_formed_5 :
    (okMirrorTerm.wf && ([{ okMirrorTerm with serial := 18446744073709551616 }, { okMirrorTerm with id := some 256 }, { okMirrorTerm with state := 256 }, { okMirrorTerm with range := 4294967296 }] : List MirrorTerm).all (fun r => !r.wf)) = true ∧
    (okMirrorRec.wf && ([{ okMirrorRec with tree := 256 }, { okMirrorRec with terms := [badMirrorTerm] }, { okMirrorRec with reach := 256 }, { okMirrorRec with mode := 256 }, { okMirrorRec with period := 65536 }, { okMirrorRec with phase := 65536 }, { okMirrorRec with dwell := some 4294967296 }] : List MirrorRec).all (fun r => !r.wf)) = true ∧
    (okClockReq.wf && ([{ okClockReq with source := 256 }, { okClockReq with profile := 256 }, { okClockReq with holdLimit := 4294967296 }, { okClockReq with ppsWidth := 4294967296 }, { okClockReq with phaseAlarm := 4294967296 }, { okClockReq with phi0 := 4294967296 }, { okClockReq with stepThreshold := 4294967296 }] : List ClockReq).all (fun r => !r.wf)) = true ∧
    (okTimePortReq.wf && ([{ okTimePortReq with port := 256 }, { okTimePortReq with rxLat := 2147483648 }, { okTimePortReq with txLat := 2147483648 }] : List TimePortReq).all (fun r => !r.wf)) = true ∧
    (okTimeTreeReq.wf && ([{ okTimeTreeReq with tree := 256 }, { okTimeTreeReq with asym := 2147483648 }, { okTimeTreeReq with fixed := 2147483648 }] : List TimeTreeReq).all (fun r => !r.wf)) = true ∧
    (okTevModeReq.wf && ([{ okTevModeReq with pin := 256 }, { okTevModeReq with mode := 256 }, { okTevModeReq with edges := 256 }] : List TevModeReq).all (fun r => !r.wf)) = true ∧
    (okTevAddReq.wf && ([{ okTevAddReq with pin := 256 }, { okTevAddReq with sec := 18446744073709551616 }, { okTevAddReq with ns := 4294967296 }, { okTevAddReq with width := 4294967296 }, { okTevAddReq with period := 4294967296 }, { okTevAddReq with count := 4294967296 }] : List TevAddReq).all (fun r => !r.wf)) = true ∧
    (okTrigReq.wf && ([{ okTrigReq with tree := 256 }, { okTrigReq with trigId := 256 }, { okTrigReq with output := 256 }, { okTrigReq with sec := 281474976710656 }, { okTrigReq with ns := 4294967296 }, { okTrigReq with period := 4294967296 }, { okTrigReq with repeats := 65536 }, { okTrigReq with mask := 115792089237316195423570985008687907853269984665640564039457584007913129639936 }] : List TrigReq).all (fun r => !r.wf)) = true ∧
    (okServoOut.wf && ([{ okServoOut with inc := some 18446744073709551616 }, { okServoOut with now := 312494 }] : List ServoOut).all (fun r => !r.wf)) = true ∧
    (okTrainRx.wf && ([{ okTrainRx with link := 256 }, { okTrainRx with lane := 256 }, { okTrainRx with bits := [] }, { okTrainRx with skew := 65536 }, { okTrainRx with now := 312494 }] : List TrainRx).all (fun r => !r.wf)) = true ∧
    (okTowRx.wf && ([{ okTowRx with link := 256 }, { okTowRx with dst := 64 }, { okTowRx with src := 64 }, { okTowRx with hops := 16 }, { okTowRx with lseq := 16777216 }, { okTowRx with now := 312494 }] : List TowRx).all (fun r => !r.wf)) = true ∧
    (okTowLinkReq.wf && ([{ okTowLinkReq with link := 256 }, { okTowLinkReq with cost := 256 }] : List TowLinkReq).all (fun r => !r.wf)) = true := by decide +kernel

/-- Each check of these operand records refuses a term that fails it alone (R11, R13). -/
theorem test_operands_ill_formed_6 :
    (okTowFabricReq.wf && ([{ okTowFabricReq with wait := 65536 }] : List TowFabricReq).all (fun r => !r.wf)) = true ∧
    (okParseNode.wf && ([{ okParseNode with hdrType := 256 }, { okParseNode with selOff := 256 }, { okParseNode with selMask := 65536 }, { okParseNode with advFixed := 256 }, { okParseNode with advFoff := 256 }, { okParseNode with advFmask := 65536 }, { okParseNode with advFscale := 256 }, { okParseNode with transFirst := 65536 }, { okParseNode with transCount := 65536 }, { okParseNode with defaultNext := 256 }, { okParseNode with extOff := 256 }, { okParseNode with extLen := 256 }, { okParseNode with extKey := 256 }, { okParseNode with vbit := 256 }] : List ParseNode).all (fun r => !r.wf)) = true ∧
    (okParseReq.wf && ([{ okParseReq with slot := 256 }, { okParseReq with kind := 256 }, { okParseReq with first := 4294967296 }, { okParseReq with nodes := [badParseNode] }] : List ParseReq).all (fun r => !r.wf)) = true ∧
    (okStageBegin.wf && ([{ okStageBegin with start := [] }, { okStageBegin with deepAct := 256 }, { okStageBegin with lenAct := 256 }, { okStageBegin with mgmtRing := 256 }, { okStageBegin with miss := [] }] : List StageBegin).all (fun r => !r.wf)) = true ∧
    (okAction.wf && ([{ okAction with op := 256 }, { okAction with a8 := 256 }, { okAction with a16 := 65536 }, { okAction with a32 := 4294967296 }] : List Action).all (fun r => !r.wf)) = true ∧
    (okRule.wf && ([{ okRule with id := 4294967296 }, { okRule with priority := 65536 }, { okRule with value := [] }, { okRule with mask := [] }, { okRule with acts := [badAction] }] : List Rule).all (fun r => !r.wf)) = true ∧
    (okFdbGlobalReq.wf && ([{ okFdbGlobalReq with salt := 4294967296 }, { okFdbGlobalReq with agePeriod := 65536 }] : List FdbGlobalReq).all (fun r => !r.wf)) = true ∧
    (okFdbDomainReq.wf && ([{ okFdbDomainReq with fid := 65536 }, { okFdbDomainReq with flow := 4294967296 }, { okFdbDomainReq with missAct := 256 }, { okFdbDomainReq with mgmtRing := 256 }] : List FdbDomainReq).all (fun r => !r.wf)) = true ∧
    (okFdbMemberReq.wf && ([{ okFdbMemberReq with fid := 65536 }, { okFdbMemberReq with returnFlow := 4294967296 }, { okFdbMemberReq with source := 65536 }] : List FdbMemberReq).all (fun r => !r.wf)) = true ∧
    (okFdbLimitReq.wf && ([{ okFdbLimitReq with limit := some 4294967296 }, { okFdbLimitReq with scope := 65536 }] : List FdbLimitReq).all (fun r => !r.wf)) = true ∧
    (okFdbAddReq.wf && ([{ okFdbAddReq with fid := 65536 }, { okFdbAddReq with mac := 281474976710656 }, { okFdbAddReq with source := 65536 }, { okFdbAddReq with dest := 4294967296 }] : List FdbAddReq).all (fun r => !r.wf)) = true ∧
    (okFdbFlushReq.wf && ([{ okFdbFlushReq with fid := some 65536 }, { okFdbFlushReq with scope := some 65536 }] : List FdbFlushReq).all (fun r => !r.wf)) = true := by decide +kernel

/-- Each check of these operand records refuses a term that fails it alone (R11, R13). -/
theorem test_operands_ill_formed_7 :
    (okCamLayoutReq.wf && ([{ okCamLayoutReq with table := 256 }, { okCamLayoutReq with firstBank := 256 }, { okCamLayoutReq with banks := 256 }, { okCamLayoutReq with width := 256 }, { okCamLayoutReq with inputMask := 256 }, { okCamLayoutReq with segOff := [] }, { okCamLayoutReq with mgmtRing := 256 }] : List CamLayoutReq).all (fun r => !r.wf)) = true ∧
    (okCamWriteReq.wf && ([{ okCamWriteReq with table := 256 }, { okCamWriteReq with index := 4294967296 }, { okCamWriteReq with priority := 65536 }, { okCamWriteReq with action := 256 }, { okCamWriteReq with cls := 256 }, { okCamWriteReq with flow := 4294967296 }, { okCamWriteReq with key := [] }] : List CamWriteReq).all (fun r => !r.wf)) = true ∧
    (okGateEntry.wf && ([{ okGateEntry with op := 256 }, { okGateEntry with states := 256 }, { okGateEntry with interval := 4294967296 }] : List GateEntry).all (fun r => !r.wf)) = true ∧
    (okGateListReq.wf && ([{ okGateListReq with port := 256 }, { okGateListReq with baseSec := 18446744073709551616 }, { okGateListReq with baseNs := 4294967296 }, { okGateListReq with cycle := 4294967296 }, { okGateListReq with maxSdu := [] }, { okGateListReq with entries := [badGateEntry] }] : List GateListReq).all (fun r => !r.wf)) = true ∧
    (okUpPortReq.wf && ([{ okUpPortReq with port := 256 }, { okUpPortReq with express := 256 }, { okUpPortReq with addFrag := 256 }, { okUpPortReq with verifyMs := 256 }, { okUpPortReq with maxFrame := 65536 }, { okUpPortReq with twUs := 65536 }] : List UpPortReq).all (fun r => !r.wf)) = true ∧
    (okSteerReq.wf && ([{ okSteerReq with rule := 256 }, { okSteerReq with port := 256 }, { okSteerReq with vid := some 65536 }, { okSteerReq with pcp := some 256 }, { okSteerReq with etype := some 65536 }, { okSteerReq with cls := 256 }, { okSteerReq with flow := 4294967296 }] : List SteerReq).all (fun r => !r.wf)) = true ∧
    (okUplinkRx.wf && ([{ okUplinkRx with point := 256 }, { okUplinkRx with lane := 256 }, { okUplinkRx with now := 312494 }] : List UplinkRx).all (fun r => !r.wf)) = true ∧
    (okRecGlobalReq.wf && ([{ okRecGlobalReq with tevMask := 256 }, { okRecGlobalReq with ring := 4294967296 }, { okRecGlobalReq with preMs := 4294967296 }, { okRecGlobalReq with postMs := 4294967296 }, { okRecGlobalReq with maxMs := 4294967296 }] : List RecGlobalReq).all (fun r => !r.wf)) = true ∧
    (okRecStreamReq.wf && ([{ okRecStreamReq with stream := 256 }, { okRecStreamReq with k := 256 }, { okRecStreamReq with appid := 65536 }, { okRecStreamReq with source := 65536 }, { okRecStreamReq with nch := 256 }, { okRecStreamReq with smpWrap := 4294967296 }] : List RecStreamReq).all (fun r => !r.wf)) = true ∧
    (okRecRuleReq.wf && ([{ okRecRuleReq with rule := 256 }, { okRecRuleReq with cmp := 256 }, { okRecRuleReq with stream := 256 }, { okRecRuleReq with channel := 256 }, { okRecRuleReq with hold := 256 }, { okRecRuleReq with level := 2147483648 }] : List RecRuleReq).all (fun r => !r.wf)) = true ∧
    (okNvmeDone.wf && ([{ okNvmeDone with cmd := 1024 }, { okNvmeDone with opcode := 65536 }, { okNvmeDone with status := 65536 }, { okNvmeDone with kind := 256 }] : List NvmeDone).all (fun r => !r.wf)) = true ∧
    (okImageOpenReq.wf && ([{ okImageOpenReq with blocks := 4294967296 }] : List ImageOpenReq).all (fun r => !r.wf)) = true := by decide +kernel

/-- Each check of these operand records refuses a term that fails it alone (R11, R13). -/
theorem test_operands_ill_formed_8 :
    (okAgentReq.wf && ([{ okAgentReq with agent := 256 }, { okAgentReq with replyFlow := 4294967296 }, { okAgentReq with addr := 18446744073709551616 }] : List AgentReq).all (fun r => !r.wf)) = true ∧
    (okImageBlockReq.wf && ([{ okImageBlockReq with index := 4294967296 }] : List ImageBlockReq).all (fun r => !r.wf)) = true ∧
    (okPushReq.wf && ([{ okPushReq with tree := 256 }, { okPushReq with perFrame := 256 }, { okPushReq with rounds := 256 }, { okPushReq with len := 4294967296 }, { okPushReq with mask := 115792089237316195423570985008687907853269984665640564039457584007913129639936 }] : List PushReq).all (fun r => !r.wf)) = true ∧
    (okPtpEvent.wf && ([{ okPtpEvent with msg := 16 }, { okPtpEvent with state := 256 }] : List PtpEvent).all (fun r => !r.wf)) = true := by decide +kernel

/-- Each check of these commands refuses a command that fails it alone. -/
theorem test_commands_ill_formed_1 : ([
      .quietWindowEnd 256, .namedTickReached 256, .rekeyErase 256 0, .rekeyErase 0 256, .bargeReceive badBargeRx, .reasmTimeout 256 0, .reasmTimeout 0
      256, .hailReceive badHailRx, .terminalLost 256 0, .terminalLost 0 18446744073709551616, .idHoldExpiry 256 0, .idHoldExpiry 0 256,
      .upstreamParcel 256 0, .upstreamParcel 0 312494, .uplinkFrameRx badUplinkRx, .recirculationPass 2 0, .recirculationPass 0 312494, .recircTimeout
      2 0, .recircTimeout 0 312494, .spillWriteComplete 1048576 0, .refillReadComplete 1048576 0, .egressSelect badEgress, .fragmentAbort 256,
      .calendarSlot 16, .drrStarve 256, .gateListEntry 256 0, .gateListEntry 0 312494, .gateListOperational 256 0, .gateListOperational 0 312494,
      .preemptVerify 256 false, .lpiEntry 256 0, .lpiEntry 0 312494, .uplinkLinkChange 256 false 0, .uplinkLinkChange 0 false 4294967296, .hostTxFetch
      badTxFetch, .doorbellLo badDoorbell, .mailboxComplete 8, .eventRingCtrlWrite 256 0, .eventRingCtrlWrite 0 4294967296, .registerWrite 4294967296
      0, .registerWrite 0 4294967296, .eventRaise 312494, .eventCoalesceExpiry 256 0, .eventCoalesceExpiry 0 312494, .sysInfo 8, .sysResetSystem 8 0,
      .sysResetSystem 0 4294967296, .sysResetManagement 8 0, .sysResetManagement 0 4294967296, .boardProfileLoad 8 okBoardProfileReq,
      .boardProfileLoad 0 badBoardProfileReq, .powerStateSet 8 0, .powerStateSet 0 256, .sluiceBudgetSet 8 okBudgetReq, .sluiceBudgetSet 0
      badBudgetReq, .sluiceStatus 8, .treeAttach 8 0 false, .treeAttach 0 256 false, .treeDetach 8 0, .treeDetach 0 256] : List Instr).all (fun i => !i.wf) = true := by decide +kernel

/-- Each check of these commands refuses a command that fails it alone. -/
theorem test_commands_ill_formed_2 : ([
      .treeConfig 8 okTreeConfigReq, .treeConfig 0 badTreeConfigReq, .treeStatus 8 0, .treeStatus 0 256, .treeSeal 8 0, .treeSeal 0 256, .treeUnseal 8
      0, .treeUnseal 0 256, .quietWindowSet 8 okQwSetReq, .quietWindowSet 0 badQwSetReq, .terminalAdmit 8 okAdmitReq, .terminalAdmit 0 badAdmitReq,
      .terminalRemove 8 okRemoveReq, .terminalRemove 0 badRemoveReq, .terminalStatus 8 okTermName, .terminalStatus 0 badTermName, .terminalDozePolicy
      8 okDozeReq, .terminalDozePolicy 0 badDozeReq, .rangeReport 8 0 0, .rangeReport 0 256 0, .rangeReport 0 0 65536, .flowCreate 8 okFlowReq,
      .flowCreate 0 badFlowReq, .flowDelete 8 okFlowDelReq, .flowDelete 0 badFlowDelReq, .grantSetWeir 8 okWeirReq, .grantSetWeir 0 badWeirReq,
      .grantSetCadence 8 okCadenceReq, .grantSetCadence 0 badCadenceReq, .grantSetReported 8 okQueueGrantReq, .grantSetReported 0 badQueueGrantReq,
      .grantSetBest 8 okQueueGrantReq, .grantSetBest 0 badQueueGrantReq, .grantSetDefault 8 okQueueGrantReq, .grantSetDefault 0 badQueueGrantReq,
      .grantSetTreeParams 8 0 0, .grantSetTreeParams 0 256 0, .grantSetTreeParams 0 0 256, .queueConfigProfileSet 8 okProfileReq,
      .queueConfigProfileSet 0 badProfileReq, .queueConfigBind 8 okBindReq, .queueConfigBind 0 badBindReq, .shaperSet 8 okShaperReq, .shaperSet 0
      badShaperReq, .schedConfigQuantum 8 okQuantumReq, .schedConfigQuantum 0 badQuantumReq, .schedConfigPoint 8 okPointReq, .schedConfigPoint 0
      badPointReq, .schedConfigHist 8 okHistReq, .schedConfigHist 0 badHistReq, .feederPolicy 8 okFeederReq, .feederPolicy 0 badFeederReq,
      .poolConfigWrite 8 okPoolReq, .poolConfigWrite 0 badPoolReq, .poolConfigRead 8, .gateListSetList 8 okGateListReq, .gateListSetList 0
      badGateListReq, .gateListSetPort 8 okUpPortReq, .gateListSetPort 0 badUpPortReq, .gateListSetSteer 8 okSteerReq] : List Instr).all (fun i => !i.wf) = true := by decide +kernel

/-- Each check of these commands refuses a command that fails it alone. -/
theorem test_commands_ill_formed_3 : ([
      .gateListSetSteer 0 badSteerReq, .parseGraphLoad 8 okParseReq, .parseGraphLoad 0 badParseReq, .rulesetStageBegin 8 okStageBegin,
      .rulesetStageBegin 0 badStageBegin, .rulesetStageAdd 8 0 [], .rulesetStageAdd 0 256 [], .rulesetStageAdd 0 0 [badRule], .rulesetStageBuild 8 0,
      .rulesetStageBuild 0 256, .rulesetCompileDone 256 0, .rulesetCompileDone 0 4294967296, .rulesetStageFree 8 0, .rulesetStageFree 0 256,
      .rulesetCommit 8 0 false, .rulesetCommit 0 256 false, .rulesetStatus 8, .fdbConfigGlobal 8 okFdbGlobalReq, .fdbConfigGlobal 0 badFdbGlobalReq,
      .fdbConfigDomain 8 okFdbDomainReq, .fdbConfigDomain 0 badFdbDomainReq, .fdbConfigMember 8 okFdbMemberReq, .fdbConfigMember 0 badFdbMemberReq,
      .fdbConfigLimit 8 okFdbLimitReq, .fdbConfigLimit 0 badFdbLimitReq, .fdbEntryAdd 8 okFdbAddReq, .fdbEntryAdd 0 badFdbAddReq, .fdbEntryDelete 8 0
      0, .fdbEntryDelete 0 65536 0, .fdbEntryDelete 0 0 281474976710656, .fdbEntryReadKey 8 0 0, .fdbEntryReadKey 0 65536 0, .fdbEntryReadKey 0 0
      281474976710656, .fdbEntryFlush 8 okFdbFlushReq, .fdbEntryFlush 0 badFdbFlushReq, .fdbEntryReadIndex 8 0 0, .fdbEntryReadIndex 0 4294967296 0,
      .fdbEntryReadIndex 0 0 4294967296, .camLayout 8 okCamLayoutReq, .camLayout 0 badCamLayoutReq, .camEntryWrite 8 okCamWriteReq, .camEntryWrite 0
      badCamWriteReq, .camEntryInvalidate 8 0 0, .camEntryInvalidate 0 256 0, .camEntryInvalidate 0 0 4294967296, .camEntryRead 8 0 0, .camEntryRead 0
      256 0, .camEntryRead 0 0 4294967296, .saInstall 8 okSaInstallReq, .saInstall 0 badSaInstallReq, .saRekeyTerminal 8 0 0, .saRekeyTerminal 0 256
      0, .saRekeyTerminal 0 0 256, .saRekeyTree 8 0, .saRekeyTree 0 256, .saRekeyDevice 8, .saRekeyTxSwitch 8 0 0, .saRekeyTxSwitch 0 256 0,
      .saRekeyTxSwitch 0 0 256, .saRekeySaDelete 8 0 0] : List Instr).all (fun i => !i.wf) = true := by decide +kernel

/-- Each check of these commands refuses a command that fails it alone. -/
theorem test_commands_ill_formed_4 : ([
      .saRekeySaDelete 0 256 0, .saRekeySaDelete 0 0 256, .saStatus 8 0 0 0, .saStatus 0 256 0 0, .saStatus 0 0 256 0, .saStatus 0 0 0 256,
      .tamperPolicySet 8 okTamperSetReq, .tamperPolicySet 0 badTamperSetReq, .tamperPolicyRead 8, .tamperPolicyReadLog 8, .lifecycleProvision 8
      okLifecycleReq, .lifecycleSecure 8 okLifecycleReq, .lifecycleClearAlarm 8 okLifecycleReq, .lifecycleDecommission 8 okLifecycleReq,
      .lifecycleRekeyOwner 8 okLifecycleReq, .debugChallengeIssue 8, .debugOpenSigned 8 okDebugOpenReq, .debugOpenSigned 0 badDebugOpenReq,
      .debugClose 8, .debugOpen 8, .timeConfigClock 8 okClockReq, .timeConfigClock 0 badClockReq, .timeConfigPort 8 okTimePortReq, .timeConfigPort 0
      badTimePortReq, .timeConfigTree 8 okTimeTreeReq, .timeConfigTree 0 badTimeTreeReq, .timeConfigStatus 8, .timeIncrementSetIncrement 8 0 0,
      .timeIncrementSetIncrement 0 18446744073709551616 0, .timeIncrementSetIncrement 0 0 312494, .timeIncrementSetStepAbs 8 0 0,
      .timeIncrementSetStepAbs 0 18446744073709551616 0, .timeIncrementSetStepAbs 0 0 4294967296, .timeIncrementSetStepRel 8 0,
      .timeIncrementSetStepRel 0 9223372036854775808, .tevScheduleMode 8 okTevModeReq, .tevScheduleMode 0 badTevModeReq, .tevScheduleAdd 8 okTevAddReq
      0, .tevScheduleAdd 0 badTevAddReq 0, .tevScheduleAdd 0 okTevAddReq 312494, .tevScheduleCancelAll 8 0, .tevScheduleCancelAll 0 256,
      .netTriggerSet 8 okTrigReq, .netTriggerSet 0 badTrigReq, .netTriggerCancel 8 okTrigReq, .netTriggerCancel 0 badTrigReq, .protGroupCreate 8
      okGroupReq, .protGroupCreate 0 badGroupReq, .protGroupDelete 8 0, .protGroupDelete 0 65536, .leaseStatus 8 0, .leaseStatus 0 65536,
      .leaseDrillDrill 8 okDrillReq, .leaseDrillDrill 0 badDrillReq, .leaseDrillCalibrate 8 okDrillReq, .leaseDrillCalibrate 0 badDrillReq,
      .leaseDrillMove 8 okDrillReq, .leaseDrillMove 0 badDrillReq, .drillDwellExpiry badDwellEnd, .calMeanUpdate 256] : List Instr).all (fun i => !i.wf) = true := by decide +kernel

/-- Each check of these commands refuses a command that fails it alone. -/
theorem test_commands_ill_formed_5 : ([
      .twinFlowSet 8 okTwinReq, .twinFlowSet 0 badTwinReq, .twinFlowClear 8 0 0, .twinFlowClear 0 256 0, .twinFlowClear 0 0 4294967296,
      .towpathConfigLink 8 okTowLinkReq, .towpathConfigLink 0 badTowLinkReq, .towpathConfigFabric 8 okTowFabricReq, .towpathConfigFabric 0
      badTowFabricReq, .towpathTopologyLinks 8, .towpathTopologyRoutes 8, .towpathTopologyDevices 8, .recorderConfigGlobal 8 okRecGlobalReq,
      .recorderConfigGlobal 0 badRecGlobalReq, .recorderConfigStream 8 okRecStreamReq, .recorderConfigStream 0 badRecStreamReq, .recorderConfigRule 8
      okRecRuleReq, .recorderConfigRule 0 badRecRuleReq, .recorderConfigStore 8 okRecStoreReq, .recorderTrigger 8 0, .recorderTrigger 0 4294967296,
      .recorderIndexList 8 0 0, .recorderIndexList 0 18446744073709551616 0, .recorderIndexList 0 0 4294967296, .recorderIndexKeep 8 0,
      .recorderIndexKeep 0 18446744073709551616, .recorderIndexUnkeep 8 0, .recorderIndexUnkeep 0 18446744073709551616, .recorderIndexDelete 8 0,
      .recorderIndexDelete 0 18446744073709551616, .recorderIndexReadPile 8 0 0 0, .recorderIndexReadPile 0 18446744073709551616 0 0,
      .recorderIndexReadPile 0 0 4294967296 0, .recorderIndexReadPile 0 0 0 18446744073709551616, .foldBlockTimeout 256 0, .foldBlockTimeout 0 312494,
      .pileTimeout 312494, .captureEnd 18446744073709551616 0, .captureEnd 0 312494, .nvmeCompletion badNvmeDone, .imageOpen 8 okImageOpenReq,
      .imageOpen 0 badImageOpenReq, .imageOpenAgent 8 okAgentReq, .imageOpenAgent 0 badAgentReq, .imageBlock 8 okImageBlockReq, .imageBlock 0
      badImageBlockReq, .imageStatus 8, .imageActivate 8, .pauseEnd false 312494, .imageCommit 8, .imageAbortSession 8, .imageAbortRollback 8,
      .terminalImagePushStart 8 okPushReq, .terminalImagePushStart 0 badPushReq, .terminalImagePushStatus 8 0, .terminalImagePushStatus 0 256,
      .terminalImagePushCancel 8 0, .terminalImagePushCancel 0 256, .terminalImagePushActivate 8 0 0, .terminalImagePushActivate 0 256 0] : List Instr).all (fun i => !i.wf) = true := by decide +kernel

/-- Each check of these commands refuses a command that fails it alone. -/
theorem test_commands_ill_formed_6 : ([
      .terminalImagePushActivate 0 0 18446744073709551616, .tswQueryTimeout 256, .counterDumpSet 8 okDumpReq, .counterDumpSet 0 badDumpReq,
      .counterSelectProgram 8 okProgramReq, .counterSelectProgram 0 badProgramReq, .counterSelectClear 8 okClearGroupReq, .counterSelectClear 0
      badClearGroupReq, .counterSelectQueueBlock 8 okQueueBlockReq, .counterSelectQueueBlock 0 badQueueBlockReq, .counterSelectWindow 8 okWindowReq,
      .counterSelectWindow 0 badWindowReq, .counterSelectCatalog 8 0, .counterSelectCatalog 0 256, .eventRoute 8 okEventRouteReq, .eventRoute 0
      badEventRouteReq, .pmReadRead 8 okPmReadReq, .pmReadRead 0 badPmReadReq, .pmReadConfig 8 okPmConfigReq, .pmReadConfig 0 badPmConfigReq,
      .debugStatus 8, .powerOnReset badPorPins, .systemReset 256, .managementRestart 256, .hostInterfaceReset 256, .refclkFail 256, .ppsInEdge 312494,
      .servoUpdate badServoOut, .ppsOutPulse 312494, .tevFire 256 0, .tevFire 0 312494, .tevCapture 256 false 0, .tevCapture 0 false 312494,
      .tickAlign false 281474976710656, .tamperDetect [] 281474976710656, .keeperPulseRx badPulseRx, .leaseExpiry 256, .leaseInitTimeout 256,
      .leasePathTimeout 256, .leaseHeartbeatRx badTowRx, .trainUnitRx badTrainRx, .trainingTimeout 256 0, .trainingTimeout 0 312494, .backoffExpiry
      256 0, .backoffExpiry 0 312494, .dormantWake 256, .helloTimeout 256 0, .helloTimeout 0 312494, .blockLockLoss 256 0, .blockLockLoss 0 312494,
      .helloRx badTowRx, .lsaFlood 312494, .lsaRx badTowRx, .lsaExpiry 312494, .creditAdvertiseRx 256 0 0, .creditAdvertiseRx 0 256 0,
      .creditAdvertiseRx 0 0 65536, .towpathDataRx badTowRx 0, .towpathDataRx okTowRx 256, .twinUnitRx badTowRx] : List Instr).all (fun i => !i.wf) = true := by decide +kernel

/-- Each check of these commands refuses a command that fails it alone. -/
theorem test_commands_ill_formed_7 : ([
      .claimRx badTowRx, .mirrorRx badTowRx okMirrorRec, .mirrorRx okTowRx badMirrorRec, .bulkSegmentRx badTowRx, .bulkSegmentTimeout 256 0 0,
      .bulkSegmentTimeout 0 281474976710656 0, .bulkSegmentTimeout 0 0 312494, .voidRx badTowRx, .mgmtUnitRx badTowRx, .laneWakeFail 256, .wakeRetry
      256, .wakeSeriesRestart 256, .modulePoll badModulePoll, .camVerifyRewrite 256 0 false, .camVerifyRewrite 0 65536 false, .coreHalt 256,
      .coreResume 256, .coreSingleStep 256, .breakpointHit badBreakHit, .systemMemoryAccess badMemAccess, .rollbackPauseEnd 312494,
      .towpathLinkEgressSlot 256 0, .towpathLinkEgressSlot 0 312494, .unitCrcDrop 256, .tableRebuildDone 18446744073709551616, .ptpMessageInterval 256
      okPtpEvent, .ptpMessageInterval 0 badPtpEvent] : List Instr).all (fun i => !i.wf) = true := by decide +kernel

/-- These commands are well-formed. -/
theorem test_commands_well_formed_1 : ([
      .tickBoundary okTickIn, .manifestDeadline [], .quietWindowEnd 0, .errorBlockEnd, .pmSecondEnd, .counterDumpDone, .namedTickReached 0,
      .rekeyErase 0 0, .bargeReceive okBargeRx, .reasmTimeout 0 0, .hailReceive okHailRx, .terminalLost 0 0, .idHoldExpiry 0 0, .upstreamParcel 0 0,
      .cipherTagVerify, .uplinkFrameRx okUplinkRx, .recirculationPass 0 0, .recircTimeout 0 0, .fdbLearn, .fdbAgeSweep, .spillWriteComplete 0 0,
      .refillClaimGrant, .refillReadComplete 0 0, .hbmUncorrectableFault, .egressSelect okEgress, .fragmentAbort 0, .calendarSlot 0, .drrStarve 0,
      .gateListEntry 0 0, .gateListOperational 0 0, .preemptVerify 0 false, .lpiEntry 0 0, .uplinkLinkChange 0 false 0, .hostTxFetch okTxFetch,
      .doorbellLo okDoorbell, .mailboxComplete 0, .cycleLoRead, .snapLoRead, .eventRingCtrlWrite 0 0, .registerWrite 0 0, .eventRaise 0,
      .eventCoalesceExpiry 0 0, .sysInfo 0, .sysResetSystem 0 0, .sysResetManagement 0 0, .boardProfileLoad 0 okBoardProfileReq, .powerStateSet 0 0,
      .sluiceBudgetSet 0 okBudgetReq, .sluiceStatus 0, .treeAttach 0 0 false, .treeDetach 0 0, .treeConfig 0 okTreeConfigReq, .treeStatus 0 0,
      .treeSeal 0 0, .treeUnseal 0 0, .quietWindowSet 0 okQwSetReq, .terminalAdmit 0 okAdmitReq, .terminalRemove 0 okRemoveReq, .terminalStatus 0
      okTermName, .terminalDozePolicy 0 okDozeReq, .rangeReport 0 0 0, .flowCreate 0 okFlowReq, .flowDelete 0 okFlowDelReq, .grantSetWeir 0 okWeirReq,
      .grantSetCadence 0 okCadenceReq, .grantSetReported 0 okQueueGrantReq] : List Instr).all Instr.wf = true := by decide +kernel

/-- These commands are well-formed. -/
theorem test_commands_well_formed_2 : ([
      .grantSetBest 0 okQueueGrantReq, .grantSetDefault 0 okQueueGrantReq, .grantSetTreeParams 0 0 0, .queueConfigProfileSet 0 okProfileReq,
      .queueConfigBind 0 okBindReq, .shaperSet 0 okShaperReq, .schedConfigQuantum 0 okQuantumReq, .schedConfigPoint 0 okPointReq, .schedConfigHist 0
      okHistReq, .feederPolicy 0 okFeederReq, .poolConfigWrite 0 okPoolReq, .poolConfigRead 0, .gateListSetList 0 okGateListReq, .gateListSetPort 0
      okUpPortReq, .gateListSetSteer 0 okSteerReq, .parseGraphLoad 0 okParseReq, .rulesetStageBegin 0 okStageBegin, .rulesetStageAdd 0 0 [],
      .rulesetStageBuild 0 0, .rulesetCompileDone 0 0, .rulesetStageFree 0 0, .rulesetCommit 0 0 false, .rulesetStatus 0, .fdbConfigGlobal 0
      okFdbGlobalReq, .fdbConfigDomain 0 okFdbDomainReq, .fdbConfigMember 0 okFdbMemberReq, .fdbConfigLimit 0 okFdbLimitReq, .fdbEntryAdd 0
      okFdbAddReq, .fdbEntryDelete 0 0 0, .fdbEntryReadKey 0 0 0, .fdbEntryFlush 0 okFdbFlushReq, .fdbEntryReadIndex 0 0 0, .camLayout 0
      okCamLayoutReq, .camEntryWrite 0 okCamWriteReq, .camEntryInvalidate 0 0 0, .camEntryRead 0 0 0, .saInstall 0 okSaInstallReq, .saRekeyTerminal 0
      0 0, .saRekeyTree 0 0, .saRekeyDevice 0, .saRekeyTxSwitch 0 0 0, .saRekeySaDelete 0 0 0, .saStatus 0 0 0 0, .tamperPolicySet 0 okTamperSetReq,
      .tamperPolicyRead 0, .tamperPolicyReadLog 0, .lifecycleProvision 0 okLifecycleReq, .lifecycleSecure 0 okLifecycleReq, .lifecycleClearAlarm 0
      okLifecycleReq, .lifecycleDecommission 0 okLifecycleReq, .lifecycleRekeyOwner 0 okLifecycleReq, .debugChallengeIssue 0, .debugOpenSigned 0
      okDebugOpenReq, .debugClose 0, .debugOpen 0, .debugWindowExpiry, .timeConfigClock 0 okClockReq, .timeConfigPort 0 okTimePortReq, .timeConfigTree
      0 okTimeTreeReq, .timeConfigStatus 0, .timeIncrementSetIncrement 0 0 0, .timeIncrementSetStepAbs 0 0 0, .timeIncrementSetStepRel 0 0,
      .tevScheduleMode 0 okTevModeReq, .tevScheduleAdd 0 okTevAddReq 0, .tevScheduleCancelAll 0 0] : List Instr).all Instr.wf = true := by decide +kernel

/-- These commands are well-formed. -/
theorem test_commands_well_formed_3 : ([
      .netTriggerSet 0 okTrigReq, .netTriggerCancel 0 okTrigReq, .protGroupCreate 0 okGroupReq, .protGroupDelete 0 0, .leaseStatus 0 0,
      .leaseDrillDrill 0 okDrillReq, .leaseDrillCalibrate 0 okDrillReq, .leaseDrillMove 0 okDrillReq, .drillDwellExpiry okDwellEnd, .calMeanUpdate 0,
      .twinFlowSet 0 okTwinReq, .twinFlowClear 0 0 0, .towpathConfigLink 0 okTowLinkReq, .towpathConfigFabric 0 okTowFabricReq, .towpathTopologyLinks
      0, .towpathTopologyRoutes 0, .towpathTopologyDevices 0, .recorderConfigGlobal 0 okRecGlobalReq, .recorderConfigStream 0 okRecStreamReq,
      .recorderConfigRule 0 okRecRuleReq, .recorderConfigStore 0 okRecStoreReq, .recorderTrigger 0 0, .recorderIndexList 0 0 0, .recorderIndexKeep 0
      0, .recorderIndexUnkeep 0 0, .recorderIndexDelete 0 0, .recorderIndexReadPile 0 0 0 0, .foldBlockTimeout 0 0, .pileTimeout 0, .captureEnd 0 0,
      .nvmeCompletion okNvmeDone, .imageOpen 0 okImageOpenReq, .imageOpenAgent 0 okAgentReq, .imageBlock 0 okImageBlockReq, .imageVerifyDone,
      .imageStatus 0, .imageActivate 0, .pauseEnd false 0, .imageCommit 0, .imageAbortSession 0, .imageAbortRollback 0, .trialExpiry, .bitmapPersist,
      .inbandFrameRx 0, .terminalImagePushStart 0 okPushReq, .terminalImagePushStatus 0 0, .terminalImagePushCancel 0 0, .terminalImagePushActivate 0
      0 0, .tswReportRx, .tswQueryTimeout 0, .counterDumpSet 0 okDumpReq, .counterSelectProgram 0 okProgramReq, .counterSelectClear 0 okClearGroupReq,
      .counterSelectQueueBlock 0 okQueueBlockReq, .counterSelectWindow 0 okWindowReq, .counterSelectCatalog 0 0, .eventRoute 0 okEventRouteReq,
      .pmReadRead 0 okPmReadReq, .pmReadConfig 0 okPmConfigReq, .debugStatus 0, .powerOnReset okPorPins, .systemReset 0, .mainRailsLost,
      .managementRestart 0, .hostInterfaceReset 0, .refclkFail 0] : List Instr).all Instr.wf = true := by decide +kernel

/-- These commands are well-formed. -/
theorem test_commands_well_formed_4 : ([
      .refclkRestore false false, .timeSourceLost, .timeSourceRegained, .holdoverLimit, .ppsInEdge 0, .servoUpdate okServoOut, .ppsOutPulse 0,
      .tevFire 0 0, .tevCapture 0 false 0, .tickAlign false 0, .tamperDetect [] 0, .keeperPulseRx okPulseRx, .leaseExpiry 0, .leaseInitTimeout 0,
      .leasePathTimeout 0, .leaseHeartbeatRx okTowRx, .trainUnitRx okTrainRx, .trainingTimeout 0 0, .backoffExpiry 0 0, .dormantWake 0, .helloTimeout
      0 0, .blockLockLoss 0 0, .helloSend, .helloRx okTowRx, .lsaFlood 0, .lsaRx okTowRx, .lsaExpiry 0, .routeRecompute, .creditAdvertiseRx 0 0 0,
      .towpathDataRx okTowRx 0, .twinUnitRx okTowRx, .claimRx okTowRx, .mirrorRx okTowRx okMirrorRec, .bulkSegmentRx okTowRx, .bulkSegmentTimeout 0 0
      0, .voidRx okTowRx, .mgmtUnitRx okTowRx, .laneWakeFail 0, .wakeRetry 0, .wakeSeriesRestart 0, .modulePoll okModulePoll, .sluiceWait,
      .sluiceWaitLimit, .hbmRinseStart, .hbmRinseDone false, .camVerifyRewrite 0 0 false, .tapDbgAuth okTapAuth, .tapExtest, .tapSamplePreload [] [],
      .coreHalt 0, .coreResume 0, .coreSingleStep 0, .breakpointHit okBreakHit, .systemMemoryAccess okMemAccess, .evtReady, .settingsRestore,
      .adesaFatal, .rollbackPauseEnd 0, .nvmeLinkChange false, .vbatFall, .towpathLinkEgressSlot 0 0, .unitCrcDrop 0, .alignWaitExpiry,
      .tableRebuildDone 0, .ptpMessageInterval 0 okPtpEvent, .d3hotTransition false] : List Instr).all Instr.wf = true := by decide +kernel

/-! ### Worked examples of the manual -/

/-- R9: flows 5 and 9 in ticks 0x1A2B and 0x1A2C. -/
theorem test_tie : (tieOrder 0x1A2B (fun f => f) [5, 9]).head? = some 9 ∧ (tieOrder 0x1A2C (fun f => f) [5, 9]).head? = some 5 := by decide

/-- Chapter 4: a barge of 12 codewords with FEC takes 24,904 line bits. -/
theorem test_place_cost : placeCost true 12 = 24904 := by decide

/-- Chapter 6: trees T5 (g = 197) and T40 (g = 488) take turns. -/
theorem test_claims_take_turns :
    claimWins 197 1000 0 984 { g := 488, q := 1001, w := 4, y := 0 } = true ∧ claimWins 488 1001 0 985 { g := 197, q := 1000, w := 2, y := 0 } = false ∧
      claimWins 488 1065 1 1049 { g := 197, q := 1064, w := 2, y := 0 } = true := by decide

/-- Chapter 7: a 9,000-byte frame takes 36 cells; with 12,300 free and a reserve of 12,288 twelve claims succeed. -/
theorem test_claims : cellsOf 9000 = 36 ∧ (claims 12288 none true 36 (Config.basinCells - 12300) 0).1 = 12 := by decide

/-- R221: a sojourn of 164,122 ns goes to bucket 122. -/
theorem test_histogram : histBucket 164122 = 122 := by decide

/-- Chapter 14: the TIME_OFFSET of terminal 5.9. -/
theorem test_time_offset : timeOffset 740000 2500 (-1200) = 1894326093 := by decide

/-- Chapter 15: nonces of terminal 5.9. -/
theorem test_nonce_down : ({ key := 0, salt := 0x5A173E92, koff := 0x167C0 } : KeySlot).iv 0xC5 0x9C41 0x7000 = 0x5A173E570000000204017000 := by decide
theorem test_nonce_up : ({ key := 0, salt := 0x0C619B04, koff := 0x167C0 } : KeySlot).iv 0 0x9C45 0x2000 = 0x0C619B040000000204052000 := by decide

/-- Chapter 17: a bounded block with k = 2: the bits of two parameters, the parameter chosen, the last decoded value. -/
theorem test_fold : (foldChan 3 4 ChanRun.start [1000, 1010, 1016, 1027]).1.length = 37 ∧
    bestParam (fun p => (foldChan 3 p ChanRun.start [1000, 1010, 1016, 1027]).1) = 5 ∧ (foldChan 3 5 ChanRun.start [1000, 1010, 1016, 1027]).2.y1 = 1029 := by
  decide +kernel

/-- Check values of the CRCs over the nine bytes 123456789 (the usual one of each code): CRC-32C and the 16-bit CRC of the lines. -/
theorem test_crcs : crc32c (ascii 9 "123456789") = 0xE3069283 ∧ crc16 (ascii 9 "123456789") = 0x29B1 := by decide +kernel

/-- No table row gives bits, so no word spells a command. -/
theorem test_decode_none : decodeTableWord 0 0 = none := by decide

/-- A step on the state after reset idles (log entry 5); with a command in front it runs it. -/
theorem test_step : step State.reset = .next State.reset := rfl

/-! ### States that meet the hypotheses of the statements -/

/-- A device that serves mailboxes. -/
def upDev : Dev := { Dev.reset with host := { Dev.reset.host with ready := true } }
/-- A device with the page of a command waiting in a context. -/
def Sys2Proof.Machine.Dev.rang (d : Dev) (ctx op : Nat) : Dev :=
  d.modCtx ctx (fun c => { c with pages := [{ addr := 0, seq := 1, hostTag := 0, early := none, opcode := op }] })
/-- It with tree 0 attached and lit. -/
def litTree : Tree := { Tree.reset with attach := .attached, lanes := { Tree.reset.lanes with state := .lit } }
def treeDev (x : Tree) : Dev := { upDev with trees := [(0, x)] }
/-- Line bits of bytes under a scrambler seed (R41, R43). -/
def lineBits (seed : Nat) (b : Bytes) : List Bool := (ballastTx Run.start (scramble seed (bytesBits b)).1).1
def withCrc16 (b : Bytes) : Bytes := b ++ be 2 (crc16 b)
def withCrc32 (b : Bytes) : Bytes := b ++ be 4 (crc32c b)
/-- A terminal with an id. -/
def term7 : Term := { Term.listed_ 7 none false 0 with id := some 7, state := .inService }
/-- A gate list that is open for all classes. -/
def wGate : GateList := { enable := true, base := 0, cycle := 1000, maxSdu := List.replicate 8 0, entries := [{ op := 0, states := 255, interval := 1000 }] }
/-- A device with flow 5. -/
def wFlow : Flow :=
  { dir := 2, tree := 0, id := 0, serial := 0, egress := 0x40, accepting := true, acceptFrom := 0, bound := none, deleting := none, drain := false,
    drainUntil := 0, unbindWait := false, unbound := false }
def wFlowDev : Dev := { upDev with pool := { upDev.pool with flows := [(5, wFlow)] } }
/-- A device with a forwarding entry for key (1, 2), and one with CAM table 1. -/
def wFdbDev : Dev :=
  let d : Dev := { upDev with fdb := { upDev.fdb with domains := [(1, { flow := 0, learn := true, missAct := 0, mgmtRing := 0 })] } }
  (d.insertEnt { static := false, hit := false, aged := false, sweep := false, fid := 1, mac := 2, source := 3, dest := 4, lastSeen := 0 }).2
def wCamDev : Dev :=
  { upDev with cam := { upDev.cam with
      tables := [(1, { firstBank := 0, banks := 1, width := 1, inputMask := 31, segOff := [0, 0, 0, 0], mgmtRing := 0 })] } }
/-- A device whose tree 0 has the keyed terminal 7, with a transmit SA on sub-port 0 of uplink 1. -/
def wKeyDev : Dev :=
  let d := treeDev { litTree with terms := [term7] }
  let k : TermKeys := { TermKeys.reset with firstX := some 0 }
  let sa : MacsecSa :=
    { key := 1, tx := true, sub := 0, sci := 0, ssci := 0, an := 0, confOffset := 0, replay := 0, salt := 0, nextPn := 1, low := 1, stopped := false, installed := 0 }
  { d with sec := { d.sec with keys := [(7, k)], macsec := [(127, sa)] } }
/-- A protection port of tree 0 in a state, and a device that has it. -/
def wGroup : GroupReq := { pgid := 1023, primary := true, tree := 0, peerDev := 0, peerTree := 1, pulse := none, cal := -3, armed := true }
def wPort (st : LeaseState) : Port := { Port.new 1023 true 1 2 wGroup 5 0 with state := st }
def wPortDev (p : Port) : Dev := { upDev with prot := { upDev.prot with ports := [(0, p)] }, clock := { upDev.clock with cycle := 2000, base := 312500000 } }
/-- A device with link 0 in a state, and a unit for it. -/
def wLinkDev (st : LinkState) : Dev :=
  { upDev.modLink 0 (fun l => { l with state := st }) with clock := { upDev.clock with cycle := 100000, base := 15625000000 } }
def wUnit (b : Bytes) : TowRx := { link := 0, dst := 0, src := 1, hops := 8, cls := none, lseq := 5, payload := b, now := 0 }
/-- A capture of the recorder and its directory entry. -/
def wEnt : DirEnt :=
  { id := 1, firstSlot := 64, piles := 1, keep := false, shortPre := false, gap := false, full := false, triggers := 1, startCycle := 0, endCycle := 0,
    trigCycle := 0, trigPos := 0, source := 0, detail := 0, tag := 0 }
def wCapture (p : StorePhase) : Capture :=
  { s := 0, e := 0, t := 0, ended := false, pins := [], writing := [], phase := p, retried := false, ent := wEnt }
def wRecDev (f : Recorder → Recorder) : Dev := { upDev with recd := f upDev.recd, clock := { upDev.clock with cycle := 1000, base := 156250000 } }
/-- An image session of the host, and a device with a session. -/
def wSession (st : ImgState) : Session :=
  { digest := 0, blocks := 2, owner := 0, parties := [0], received := [], persisted := [], idle := 8000, state := st }
def wUpdDev (f : Update → Update) : Dev := { upDev with upd := f upDev.upd, clock := { upDev.clock with cycle := 10000000, base := 1562500000000 } }
/-- A push in its first round, and a device with open debug. -/
def wPush (targets : Tbl (Nat × List Nat)) : Push := { Push.empty with id := 3, state := 1, round := 1, len := 1000, targets := targets, flows := [(7, 5)] }
def wPushDev (p : Push) : Dev :=
  { treeDev { litTree with terms := [term7] } with
      upd := { upDev.upd with pushes := [(0, p)] },
      pool := { upDev.pool with flows := [(5, { wFlow with dir := 1, id := 7, bound := some 0 })] }, clock := { upDev.clock with cycle := 1000, base := 156250000 } }
def wDbgDev : Dev := { upDev with sec := { upDev.sec with debug := .opened } }
/-- A programmable counter. -/
def wProg : Prog := { mode := 1, kind := 0, group := 0, stat := 0, first := 0, last := 0, value := 9, gen := 4 }
/-- Entries of the two tables of stage 6. -/
def wFdbEnts : Tbl FdbEnt :=
  tset [] 8 { static := false, hit := false, aged := false, sweep := false, fid := 1, mac := 2, source := 3, dest := 4, lastSeen := 0 }
def wCamEnt : CamEnt := { rows := [], copy := [], priority := 3, action := 0, cls := 1, flow := 7 }
/-- Where a hunt found a barge. -/
def wFound : Hunt → Option Nat
  | .found p _ => some p
  | _ => none
def wBulkDev : Dev := { wLinkDev .up with sec := { upDev.sec with fabricKey := some 1, fabricSalt := 2 } }
def wBulkTag (x : Nat) : TowRx :=
  wUnit (be 6 7 ++ be 2 0 ++ zeros 8 ++ be 16 (((Config.gcmTag 1 (bulkIv 2 1 7 0) (be 6 7 ++ be 2 0 ++ zeros 8) []).toNat + x) % 2 ^ 128))
theorem wBulkTag_open (x : Nat) : gcmOpen 1 (bulkIv 2 1 7 0) ((wBulkTag x).payload.take 16) (((wBulkTag x).payload.drop 16).take 0)
    (BitVec.ofNat 128 (ofBE (((wBulkTag x).payload.drop 16).drop 0))) = if x % 2 ^ 128 = 0 then some [] else none := by
  show (if Config.gcmTag 1 (bulkIv 2 1 7 0) (be 6 7 ++ be 2 0 ++ zeros 8) [] =
    BitVec.ofNat 128 (ofBE (be 16 (((Config.gcmTag 1 (bulkIv 2 1 7 0) (be 6 7 ++ be 2 0 ++ zeros 8) []).toNat + x) % 2 ^ 128))) then some [] else none) = _
  generalize Config.gcmTag 1 (bulkIv 2 1 7 0) (be 6 7 ++ be 2 0 ++ zeros 8) [] = t
  have ht := t.isLt
  rw [ofBE_be]
  congr 1
  rw [← BitVec.toNat_inj, BitVec.toNat_ofNat, eq_iff_iff]
  omega
/-- A device with a neighbour of lower address and the offsets `th` of it (R404, R405). -/
def wRefDev (th : List Int) : Dev :=
  let d : Dev := (wLinkDev .up).modLink 0 (fun l => { l with peerDev := some 0, theta := th })
  { d with dev := { d.dev with devAddr := 1 }, tow := { d.tow with align := true } }
theorem wLink_common (l : TowLink) (ht : l.theta = List.replicate 1000 0) (hp : l.thetaPs = 0) : l.refCommon = true := by
  have h : ∀ (p : Int → Int → Bool) (n : Nat), (List.replicate n (0 : Int)).foldl (fun a x => if p x a then x else a) 0 = 0 := by
    intro p n; induction n with
    | zero => rfl
    | succ n ih => simpa [List.replicate_succ] using ih
  have a := h (fun x a => decide (x < a)) 1000
  have b := h (fun x a => decide (a < x)) 1000
  simp only [decide_eq_true_eq] at a b
  unfold TowLink.refCommon
  rw [ht, hp, a, b, List.length_replicate]; decide
theorem wRefDev_ref (th : List Int) (ht : th = List.replicate 1000 0) : (wRefDev th).tickRef = some 0 := by
  have c : ((wRefDev th).link 0).refCommon = true := wLink_common _ ht rfl
  have e : (wRefDev th).refCommonDevs = [(0, false)] := by
    have n : (wRefDev th).tow.links.filterMap (fun l => if l.up ∧ l.refCommon then l.peerDev.map (fun p => (p, l.peerFixed)) else none) = [(0, false)] := by
      show ((wRefDev th).link 0 :: (wRefDev th).tow.links.tail).filterMap (fun l => if l.up ∧ l.refCommon then l.peerDev.map (fun p => (p, l.peerFixed)) else none) = _
      rw [List.filterMap_cons, if_pos ⟨rfl, c⟩]
      rfl
    unfold Dev.refCommonDevs
    dsimp only
    rw [n]; rfl
  unfold Dev.tickRef
  rw [e]; rfl
theorem wRefDev_all (th : List Int) (ht : th = List.replicate 1000 0) :
    let d : Dev := wRefDev th
    let e : Dev := { d with clock := { d.clock with tickLengthened := true }, time := { d.time with set := { d.time.set with aligned := true } } }
    d.tickRef = some 0 ∧ d.thetaOf 0 = some 0 ∧ d.tow.align = true ∧ d.dev.devAddr = 1 ∧ d.clock.everAttached = false ∧ d.clock.cycleLoaded = false ∧
      d.clock.tickLengthened = false ∧ d.time.set.aligned = false ∧ e.tickRef = some 0 ∧ e.clock.tickLengthened = true ∧ e.time.set.aligned = true :=
  ⟨wRefDev_ref th ht, rfl, rfl, rfl, rfl, rfl, rfl, rfl, wRefDev_ref th ht, rfl, rfl⟩
theorem wFullDir : dirEntries ≤ (wEnt :: List.replicate 65535 wEnt).length := by
  rw [List.length_cons, List.length_replicate]; decide

theorem witness_StepRunsFrontCommand :
    (State.reset).pending = [] :=
    by decide

theorem witness_OnlyDmaCommandsWriteHostMemory :
    touchesHost .cycleLoRead = false ∧ ∃ t, exec .cycleLoRead State.reset = .next t :=
    ⟨rfl, _, rfl⟩

theorem witness_HostMemoryFormIsKept :
    memWf State.reset.hostMem = true ∧ ∃ t, step State.reset = .next t :=
    ⟨rfl, _, rfl⟩

theorem witness_TickBoundaryAdvances :
    (State.reset.dev.ticks = true ∧ State.reset.dev.clock.loadCycle = none) ∧
    (State.reset.dev.ticks = true) ∧
    (({ Dev.reset with dev := { Dev.reset.dev with power := .offVbat } } : Dev).ticks = false) ∧
    (let x := { Tree.reset with keep := { Keeper.reset with building := some { target := 5, grants := [], missed := false } } }
     x.check 5 (fun _ => true) [] = ([], 0)) ∧
    (({ Dev.reset with clock := { Dev.reset.clock with cycle := 3999 } } : Dev).now = 3999 ∧ (3999 + 1) % 4000 = 0) ∧
    (State.reset.dev.now % 4000 = 0 ∧ State.reset.dev.clock.blockDone ≠ some State.reset.dev.now) ∧
    (State.reset.dev.now % 8000 = 0) ∧
    (let x := { Term.listed_ 7 none false 0 with admitFrom := some 0 }
     x.adj = none ∧ x.fecSet = none ∧ x.doze = none ∧ x.admitFrom = some 0) :=
    ⟨by decide, by decide, by decide, by decide, by decide, by decide, by decide, by decide⟩

theorem witness_HailOutcome :
    (let w : QwOpen := { q := 0, w := 2, hails := [], collided := false, spoiled := [] }
     [w].find? (fun w => decide (w.q ≤ Dev.reset.now) && decide (Dev.reset.now ≤ w.q + w.w)) = some w) ∧
    ((State.reset.dev.tree 0).disc.windows.find? (fun w => decide (w.q ≤ State.reset.dev.now) && decide (State.reset.dev.now ≤ w.q + w.w)) = none) ∧
    (let w : QwOpen := { q := 0, w := 0, hails := [], collided := false, spoiled := [] }
     [w].find? (fun w => decide (w.q + w.w ≤ Dev.reset.now)) = some w) ∧
    (Tree.reset.bySerial 5 = none) ∧
    (let h : IdHold := { id := 3, serial := 4, until_ := 0 }
     ({ Tree.reset with holds := [h] }).holds.find? (fun h => h.id == 3) = some h ∧ h.until_ ≤ Dev.reset.now) ∧
    (let y := Term.listed_ 4 (some 3) false 0
     let h : IdHold := { id := 3, serial := 4, until_ := 0 }
     ([y].any (fun y => y.staticId == some 3)) = true ∧ [h].find? (fun h => h.id == 3) = some h ∧ h.until_ ≤ Dev.reset.now) :=
    ⟨by decide +kernel, by decide, by decide, by decide, by decide, by decide⟩

theorem witness_BargeAndLoss :
    (let x := { litTree with
       terms := [term7],
       keep := { Keeper.reset with manifests := [(0, { target := 0, grants := [{ tid := 7, start := 1000, ncw := 1, kind := 0, flow := 0, cls := 0, shares := [] }], missed := false })] } }
     let bits := natBits 64 delimiter ++ lineBits (bargeSeed 0 7) (withCrc16 ([7, 0, 0, 0] ++ zeros 10))
     (tget (treeDev x).prot.ports 0).filter (fun p => p.state ≠ .holder) = none ∧ (treeDev x).treeUp 0 = true ∧ x.lit = true ∧
       (treeDev x).calPlace 0 ≠ some (7, 1000) ∧ x.placeNow 0 7 1000 = some { tid := 7, start := 1000, ncw := 1, fec := false, kind := 0 } ∧
       x.byId 7 = some term7 ∧ x.nextOpening 0 1000 = none ∧ wFound (hunt 1512 bits 0 7 1000 term7.offset) = some 1512) ∧
    (let x := { litTree with
       terms := [term7],
       keep := { Keeper.reset with manifests := [(0, { target := 0, grants := [{ tid := 7, start := 1000, ncw := 1, kind := 0, flow := 0, cls := 0, shares := [] }], missed := false })] } }
     (tget (treeDev x).prot.ports 0).filter (fun p => p.state ≠ .holder) = none ∧ (treeDev x).treeUp 0 = true ∧ x.lit = true ∧
       (treeDev x).calPlace 0 ≠ some (7, 1000) ∧ x.placeNow 0 7 1000 = some { tid := 7, start := 1000, ncw := 1, fec := false, kind := 0 } ∧
       x.byId 7 = some term7 ∧ x.nextOpening 0 1000 = none ∧ hunt 0 [] 0 7 1000 term7.offset = .dark) ∧
    (let x := { litTree with
       terms := [],
       keep := { Keeper.reset with manifests := [(0, { target := 0, grants := [{ tid := 7, start := 1000, ncw := 1, kind := 0, flow := 0, cls := 0, shares := [] }], missed := false })] } }
     (tget (treeDev x).prot.ports 0).filter (fun p => p.state ≠ .holder) = none ∧ (treeDev x).treeUp 0 = true ∧ x.lit = true ∧
       (treeDev x).calPlace 0 ≠ some (7, 1000) ∧ x.placeNow 0 7 1000 = some { tid := 7, start := 1000, ncw := 1, fec := true, kind := 0 } ∧
       x.byId 7 = none) ∧
    (let h : Shadow := { tid := 7, start := 1000, ncw := 1, fec := false, n := 1, phase := 0, from_ := 0, dark := 0 }
     let x := { litTree with keep := { Keeper.reset with shadows := [h] } }
     (tget (treeDev x).prot.ports 0).filter (fun p => p.state ≠ .holder) = none ∧ (treeDev x).treeUp 0 = true ∧ x.lit = true ∧
       (treeDev x).calPlace 0 ≠ some (7, 1000) ∧ (x.placeNow 0 7 1000).map (fun p => p.kind) = some 8) ∧
    (let d := wPortDev (wPort .standby)
     tget d.prot.ports 0 = some (wPort .standby) ∧ (wPort .standby).state ≠ .holder) ∧
    (let r : Reasm := { flow := 1, kp := false, twin := false, body := [], cycle := 0, ctr := 0 }
     let y := { term7 with reasm := [r] }
     let d := { treeDev { litTree with terms := [y] } with clock := { Dev.reset.clock with cycle := 17, base := 2656250 } }
     (d.tree 0).byId 7 = some y ∧ y.reasm.filter (fun (r : Reasm) => decide (r.cycle + 16 < d.now)) = [r]) ∧
    (let x := { litTree with terms := [term7] }
     let d := { treeDev x with clock := { Dev.reset.clock with cycle := 10000000, base := 1562500000000 } }
     x.bySerial 7 = some term7 ∧ term7.state = .inService ∧ term7.aliveAt + lostTimeOf x term7 < d.now) :=
    ⟨by decide +kernel, by decide +kernel, by decide +kernel, by decide +kernel, by decide, by decide, by decide⟩

theorem witness_DumpAndKeyErasure :
    (let j : DumpJob := {
       cycle := 0, prev := 0, seq := 0, skipped := 0, values := [], delta := [], cleared := [], wrapped := [], progs := [], head := 0,
       settings := { enable := true, slots := 2, period := 1, base := 4096, slotSize := 4096, select := [] } }
     let d : Dev := { Dev.reset with ctr := { Dev.reset.ctr with job := some j } }
     d.ctr.job = some j ∧ d.host.d3 = false ∧ j.records (j.settings.slotSize - 64) (selected j.settings.select) = ([], 0, false) ∧
     j.cycle + (63 + ([] : Bytes).length) / 500000 ≤ d.now) ∧
    (let r : Rekey := { x := 0, phase := true, u := 100, ref := none, erasedDown := false }
     let c := { Dev.reset.clock with cycle := 64, base := 10000000 }
     let k : TermKeys := { TermKeys.reset with rekey := some r }
     let d : Dev := { Dev.reset with
       clock := c,
       sec := { Dev.reset.sec with
         keys := [(7, k)] } }
     (d.keys (globalIndex 0 7)).rekey = some r ∧ r.x + 64 ≤ d.now ∧ d.now < r.u + 36 ∧ d.sec.mass = []) ∧
    (let r : Rekey := { x := 0, phase := true, u := 100, ref := none, erasedDown := false }
     let d : Dev := { Dev.reset with
       clock := { Dev.reset.clock with cycle := 64, base := 10000000 },
       sec := { Dev.reset.sec with keys := [(7, { TermKeys.reset with rekey := some r })] } }
     (d.keys (globalIndex 0 7)).rekey = some r ∧ r.x + 64 ≤ d.now ∧ d.now < r.u + 36 ∧ r.erasedDown = false) :=
    ⟨by decide, by decide, by decide⟩

theorem witness_UpstreamPath :
    (let u : PlainUnit := { tree := 0, tid := 7, flow := 9, twinTag := none, frame := zeros 64 }
     let s : Dev := { upDev with sec := { upDev.sec with released := [u] } }
     let d : Dev := if (takeFirst (fun u => !s.isReport u) s.sec.released).isNone then cipherTagVerify s else s
     takeFirst (fun u => !d.isReport u) d.sec.released = some (u, [])) ∧
    (({ tree := 0, tid := 7, flow := 9, twinTag := none, frame := zeros 64 } : PlainUnit).twinTag = none) ∧
    (let h : HeldUnit := { seq := 0, u := { tree := 0, tid := 7, flow := 9, kp := false, twin := false, body := [], cycle := 0, ctr := 0 } }
     let q := { Dev.reset.sec with pipes := lmod Dev.reset.sec.pipes 0 CipherPipe.reset (fun p => { p with halfA := some h }) }
     (q.oldest).map (fun e => e.2) = some (false, h) ∧ ({ Dev.reset with sec := q } : Dev).gated = false) ∧
    (let k : KeySlot := { key := 1, salt := 2, koff := 0 }
     let d : Dev := { Dev.reset with sec := { Dev.reset.sec with keys := [(7, { TermKeys.reset with up := [some k, none] })] } }
     slotOf (d.keys (globalIndex 0 7)).up false = some k) ∧
    (slotOf (Dev.reset.keys (globalIndex 0 7)).up false = none) ∧
    (let d := Dev.reset.setLink 0x40 true 10
     let r : UplinkRx := { point := 0x40, bytes := List.replicate 64 0xFF, fcsOk := true, corrCw := 0, uncorrCw := 0, symbols := 0, lane := 0, now := 0 }
     let e := d.countFec r
     d.upLive 0x40 = true ∧ beAt r.bytes 12 2 ≠ 0x8808 ∧ r.bytes.length + 4 ≤ (e.upPort 0x40).set.maxFrame + e.macsecBytes 0x40 r.bytes ∧
       (e.macsecRx 0x40 r.now r.bytes).1 = some r.bytes ∧ addrAccepted ((e.macsecRx 0x40 r.now r.bytes).2.upPort 0x40).set (beAt r.bytes 0 6) = true) ∧
    (let d := Dev.reset.setLink 0x40 true 10
     let b := zeros 12 ++ [0x88, 0x08] ++ zeros 50
     d.upLive 0x40 = true ∧ beAt b 12 2 = 0x8808 ∧ beAt (zeros 64) 12 2 ≠ 0x8808 ∧ (d.upPort 0x40).set.maxFrame + d.macsecBytes 0x40 (zeros 20000) < 20000 + 4) ∧
    (let r : Recirc := { pkt := Pkt.make (zeros 64) 0 0 0 0 0 0, start := 0, tag := 0, since := 0 }
     let d : Dev := { Dev.reset with cls := { Dev.reset.cls with upRecirc := [r] }, clock := { Dev.reset.clock with cycle := 1, base := 156250 } }
     d.gated = false ∧ d.cls.buffer 0 = [r] ∧ r.since + 5000 ≤ d.clk 0) ∧
    (let r : Recirc := { pkt := Pkt.make (zeros 64) 0 0 0 0 0 0, start := 0, tag := 0, since := 0 }
     let d : Dev := { Dev.reset with cls := { Dev.reset.cls with upRecirc := [r] } }
     d.gated = false ∧ d.cls.buffer 0 = [r] ∧ d.clk 100 < r.since + 5000) ∧
    (let r : Recirc := { pkt := Pkt.make (zeros 64) 0 0 0 0 0 0, start := 0, tag := 0, since := 0 }
     let d : Dev := { Dev.reset with cls := { Dev.reset.cls with upRecirc := [r] }, clock := { Dev.reset.clock with cycle := 1, base := 156250 } }
     d.cls.buffer 0 = [r] ∧ r.since + 5000 ≤ d.clk 0) :=
    ⟨by decide, by decide, by decide, by decide, by decide, by decide, by decide +kernel, by decide, by decide, by decide⟩

theorem witness_ForwardingTableUpkeep :
    (let r : LearnReq := { fid := 1, mac := 2, source := 3, lane := 0, at_ := 0 }
     let d : Dev := { Dev.reset with fdb := { Dev.reset.fdb with fifo := [r] } }
     d.fdb.fifo = [r]) ∧
    (let e : FdbEnt := { static := false, hit := false, aged := false, sweep := false, fid := 1, mac := 2, source := 3, dest := 4, lastSeen := 0 }
     let d : Dev := { Dev.reset with fdb := { Dev.reset.fdb with
       members := [{ fid := 1, source := 3, flow := 4, flood := false }, { fid := 1, source := 0x4005, flow := 4, flood := false }],
       domains := [(1, { flow := 0, learn := true, missAct := 0, mgmtRing := 0 })] } }
     let n := d.newEnt false 1 2 3 4
     let o : Dev := { d with fdb := { d.fdb with limits := tset [] 3 (some 0, false) } }
     (d.fdb.member 1 3).isSome = true ∧ (tget d.fdb.domains 1).isSome = true ∧ d.fdb.member 1 9 = none ∧
       ((d.insertEnt e).2.fdb.lookup 1 2).map (fun f => f.2) = some e ∧ d.fdb.lookup 1 2 = none ∧ d.fdb.overLimit 3 none = none ∧
       (n.2.insertEnt n.1).1.isSome = true ∧ (o.fdb.overLimit 3 none).isSome = true) ∧
    (let e : FdbEnt := { static := false, hit := true, aged := false, sweep := true, fid := 1, mac := 2, source := 3, dest := 4, lastSeen := 0 }
     let d : Dev := { Dev.reset with fdb := { Dev.reset.fdb with entries := [(0, e)] } }
     d.fdb.visitDue ≤ d.now ∧ tget d.fdb.entries d.fdb.sweepNext = some e ∧ e.static = false ∧ e.sweep ≠ decide (d.fdb.sweepNo % 2 = 1)) ∧
    (Dev.reset.fdb.visitDue ≤ Dev.reset.now ∧ tget Dev.reset.fdb.entries Dev.reset.fdb.sweepNext = none) ∧
    (let e : FdbEnt := { static := false, hit := true, aged := false, sweep := true, fid := 1, mac := 2, source := 3, dest := 4, lastSeen := 0 }
     e.hit = true ∧ ({ e with hit := false } : FdbEnt).aged = false ∧ ({ e with hit := false, aged := true } : FdbEnt).hit = false ∧ Dev.reset.fdb.sweepNext ≠ 262143) ∧
    (let e : CamEnt := { rows := [], copy := zeros 20, priority := 0, action := 0, cls := 0, flow := 0 }
     tget [(camKey 1 2, e)] (camKey 1 2) = some e) ∧
    (let x : Rebuild := { job := 1, ref := { ctx := 0, id := 0 }, what := .member 3 4, running := true }
     [x].find? (fun x => x.job == 1 && x.running) = some x) :=
    ⟨by decide, by decide +kernel, by decide, by decide, by decide, by decide, by decide⟩

theorem witness_SpillAndRefill :
    (let e : QEnt := { frame := 1, place := .writing, resv := [], src := none }
     let d0 : Dev := Dev.reset.modQueue 8 (fun y => { y with resv := [e] })
     let d := d0.hbmAsk 83 1 none (.spill 8 1)
     ((d.queue 8).refill ++ (d.queue 8).resv).find? (fun e => e.frame == 1 && e.place == .writing) = some e ∧ d.hbmReady (.spill 8 1) = true) ∧
    (let d : Dev := { Dev.reset with pool := { Dev.reset.pool with claims := [(8, 1)] } }
     d.pool.claims = [(8, 1)] ∧ d.selfRefresh = false ∧ d.pool.basin.length + d.pool.weirReserve + cellsOf (d.frmLen 1) ≤ Config.basinCells) ∧
    (let d0 : Dev := Dev.reset.modQueue 8 (fun y => { y with refill := [{ frame := 1, place := .reading, resv := [], src := none }] })
     let d := d0.hbmAsk 83 1 none (.refill 8 1)
     (d.queue 8).refill.any (fun e => e.frame == 1 && e.place == .reading) = true ∧ d.hbmReady (.refill 8 1) = true) ∧
    (let e : QEnt := { frame := 1, place := .readDone, resv := [], src := none }
     let d : Dev := Dev.reset.modQueue 8 (fun y => { y with refill := [e] })
     splitDone (d.queue 8).refill = ([e], [])) ∧
    (let d := { Dev.reset.hbmEnd (fun w => !w.isPile) with pool := { Dev.reset.pool with feederOn := false, hbmFault := true, hbmUsable := false, claims := [] } }
     Dev.reset.pool.queues = [] ∧ d.sluice.fifo.any (fun r => decide (r.op = HeavyOp.hbmRinse)) = false ∧ d.sluice.held.any (fun h => decide (h.op = HeavyOp.hbmRinse)) = false) :=
    ⟨by decide +kernel, by decide, by decide +kernel, by decide, by decide⟩

theorem witness_EgressAndShaping :
    ((treeDev litTree).gated = false ∧ (treeDev litTree).treeUp 0 = true) ∧
    ((Dev.reset.setLink 0x40 true 10).gated = false ∧ (Dev.reset.setLink 0x40 true 10).upLive 0x40 = true) ∧
    (let d : Dev := Dev.reset
     d.gated = false ∧ 0x61 - 0x60 ≠ d.dev.devAddr ∧ (Dev.firstPick 0x61 ((d.linked 0x61).filter (fun q => d.eligible 0x61 0 q)) (List.range 5)
       (d.refreshDrr 0x61 ((d.linked 0x61).filter (fun q => d.eligible 0x61 0 q)))).1 = none) ∧
    (Dev.reset.gated = false ∧ 0xA0 ≤ 0xA3 ∧ 0xA3 < 0xA4) ∧
    (({ Dev.reset with dev := { Dev.reset.dev with power := .doze } } : Dev).gated = true) ∧
    (let f : Fragment := { queue := 8, flow := 1, kp := false, twin := false, rest := [], firstFrame := 0, frameKey := 0 }
     f.firstFrame + 16 < 17) ∧
    (let b : Bucket := { Bucket.reset with mode := 1, rate := 1, tokens := -100000, entry := some 3 }
     (tset [] 5 b).filter (fun e => e.2.mode == 1 && e.2.entry.elim false (fun m => decide (m ≤ 3))) = [(5, b)]) ∧
    (let d : Dev := Dev.reset.modPoint 3 (fun p => { p with starve := 8, idleRun := 8 })
     0 < (d.point 3).starve ∧ (d.point 3).starveSeen + (d.point 3).starve ≤ (d.point 3).idleRun) :=
    ⟨by decide, by decide, by decide +kernel, by decide, by decide +kernel, by decide, by decide, by decide⟩

theorem witness_UplinkPortEvents :
    (let d : Dev := Dev.reset.modUp 0x40 (fun x => { x with gate := some wGate })
     (d.upPort 0x40).list.isSome = true) ∧
    (let d : Dev := Dev.reset.modUp 0x40 (fun x => { x with gatePend := some ({ ctx := 0, id := 1 }, wGate, 0) })
     (d.upPort 0x40).gatePend = some ({ ctx := 0, id := 1 }, wGate, 0) ∧ 0 ≤ d.ptpNs 0) ∧
    (let d : Dev := Dev.reset.modUp 0x40 (fun x => { x with verifyFrom := some 0 })
     (d.upPort 0x40).verifyFrom = some 0 ∧ 0 + 8 * (d.upPort 0x40).set.verifyMs ≤ 8000) ∧
    (let d : Dev := { Dev.reset with upl := { Dev.reset.upl with
       entries := [(0, [0, 1])],
       ports := tmod Dev.reset.upl.ports 0x40 (fun x => { x with up := true, set := { x.set with lpi := true } }) } }
     (d.upPort 0x40).up = true ∧ (d.upPort 0x40).set.lpi = true ∧ d.lpiAble 0x40 = true ∧ (d.upPort 0x40).list.isNone = true ∧
       (d.upPort 0x40).inLpi = false ∧ d.upIdle 0x40 0 = true) ∧
    (let d : Dev := { Dev.reset with upl := { Dev.reset.upl with entries := [(0, [0, 1])] } }
     d.linkAble 0x40 0 = true) :=
    ⟨by decide, by decide, by decide, by decide, by decide⟩

theorem witness_DoorbellAndCompletion :
    (let d : Dev := upDev.modCtx 0 (fun c => { c with enable := true })
     d.host.d3 = false ∧ (d.ctx 0).enable = true ∧ d.host.ready = true ∧ (d.ctx 0).pages.length < 8) ∧
    (let d : Dev := upDev.modCtx 0 (fun c => { c with enable := true })
     let p : MbPage := { addr := 4096, seq := 1, hostTag := 0, early := none }
     let f : Dev := d.modCtx 0 (fun c => { c with pages := List.replicate 8 p })
     d.host.d3 = false ∧ (upDev.ctx 0).enable = false ∧ (f.ctx 0).enable = true ∧ f.host.ready = true ∧ 8 ≤ (f.ctx 0).pages.length ∧ (d.ctx 0).enable = true ∧
       d.host.ready = true ∧ (d.ctx 0).pages.length < 8) ∧
    (let d : Dev := upDev.modCtx 7 (fun c => { c with enable := true })
     let e : Dev := { d with host := { d.host with d3 := true } }
     7 < 8 ∧ (e.ctx 7).enable = true ∧ e.host.serves = true ∧ e.host.d3 = true ∧ (upDev.ctx 0).enable = false ∧ Dev.reset.host.serves = false) ∧
    (let p : PageRead := { opcode := 0x0101, format := 1, reqLen := 0, hostTag := 0, payload := [] }
     headerCheck MbCtx.reset p = none ∧ bitOf MbCtx.reset.allow 0 = true ∧ opcodeListed 0x0101 = true ∧ requestBytes 0x0101 [] ≤ 0 ∧
       operationBad 0x0101 [] = false ∧ bitOf ({ MbCtx.reset with allow := 0 } : MbCtx).allow 0 = false ∧ opcodeListed 0x01FF = false) ∧
    (let r : MbResult := { ref := { ctx := 0, id := 0 }, status := some .ok, resp := [], noResponse := false }
     let d : Dev := ({ upDev with host := { upDev.host with results := [r] } } : Dev).modCtx 0 (fun c => { c with
       pages := [{ addr := 4096, seq := 1, hostTag := 0, early := none }] })
     d.host.d3 = false ∧ d.host.fatal = false ∧ d.host.pause = false ∧ d.host.ready = true ∧ takeResult 0 d.host.results = some (r, []) ∧ (d.ctx 0).pages.length = 1) ∧
    (let p : MbPage := { addr := 4096, seq := 1, hostTag := 0, early := some .invalid }
     let d : Dev := upDev.modCtx 0 (fun c => { c with pages := [p] })
     d.host.d3 = false ∧ d.host.fatal = false ∧ d.host.pause = false ∧ d.host.ready = true ∧ (d.ctx 0).pages = [p]) ∧
    (let d : Dev := (upDev.modRing 0 (fun r => r.ctrl 1)).raise 5
     d.host.idle = false ∧ d.host.d3 = false ∧ d.ev.staging.length = 1 ∧ (d.ring 0).enable = true ∧
       ((d.ring 0).head + 1) % (d.ring 0).entries ≠ (d.ring 0).tail % (d.ring 0).entries ∧ (d.ring 0).lastMsg = none) ∧
    (let d : Dev := ((upDev.modRing 0 (fun r => r.ctrl 1)).raise 5).modRing 0 (fun r => r.ctrl 0)
     d.host.idle = false ∧ d.host.d3 = false ∧ d.ev.staging.length = 1 ∧ (d.ring 0).enable = false) ∧
    (let x : TxDesc := { addr := 0, len := 64, own := true, first := true, last := true, data := zeros 64 }
     let d : Dev := (upDev.modPktRing 0 (fun r => { r.ctrl 1 with tail := 1 }))
     (d.pktRing 0).enable = true ∧ d.host.d3 = false ∧ d.backPressure = false ∧ d.gated = false ∧ frameDescs ([x].take (d.pktRing 0).posted) = some [x] ∧ txBad [x] = false) :=
    ⟨by decide, by decide, by decide, by decide, by decide, by decide, by decide, by decide, by decide⟩

theorem witness_HostRegisters :
    ((111 < 112) ∧ 112 ≤ 112 ∧ 119 < 120) ∧
    ((Dev.reset.ring 5).enable = false ∧ bitOf 0x301 0 = true ∧ field 0x301 8 4 ≤ 10) ∧
    ((7 < 8) ∧ 111 < 112 ∧ 0x3C < 0x40 ∧ 0x3C % 4 = 0 ∧ 511 < 512) ∧
    ((0x6011 : Nat) % 4 ≠ 0) ∧
    (let d : Dev := Dev.reset.modRing 5 (fun r => { r with msgDue := true, lastMsg := some 0 })
     (d.ring 5).expired (d.clk 10) = true) ∧
    (let u := upDev.rang 0 0x0D03
     u.served 0 0x0D03 = true) ∧
    (let u := upDev.rang 7 0x0101
     u.served 7 0x0101 = true) ∧
    (({ upDev with host := { upDev.host with rung := [{ ctx := 0, value := 0, page := none }], d3 := true } } : Dev).host.rung ≠ []) ∧
    (Dev.reset.host.ready = false ∧ Dev.reset.dev.power ≠ .offVbat ∧ Dev.reset.dev.mgmtRestartRef = none) :=
    ⟨by decide, by decide, by decide, by decide, by decide, by decide, by decide, by decide, by decide⟩

theorem witness_PowerAndBudget :
    (let u := upDev.rang 0 0x0102
     u.served 0 0x0102 = true ∧ u.upd.pause = none) ∧
    (let u := upDev.rang 0 0x0102
     u.served 0 0x0102 = true ∧ u.upd.pause = none) ∧
    (let b := le 2 1 ++ le 2 1 ++ zeros 8 ++ le 4 (crc32c (zeros 16)) ++ zeros 16
     let u := upDev.rang 0 0x0103
     u.served 0 0x0103 = true ∧ u.upd.session.elim false (fun x => decide (x.state = .verifying)) = false ∧ sectionOk 3 b = true ∧ sectionLength 3 = 32) ∧
    (let u := upDev.rang 0 0x0104
     u.served 0 0x0104 = true ∧ PowerState.trim ∈ [PowerState.active, .trim, .quiet, .doze]) ∧
    (let u := upDev.rang 0 0x0105
     u.served 0 0x0105 = true ∧ [0, 1, 2, 3, 0, 1, 2].all (fun p => decide (p ≤ 3)) = true ∧ [0, 1, 2, 3, 0, 1, 2].length = 7) ∧
    (let u := upDev.rang 0 0x0106
     u.served 0 0x0106 = true) :=
    ⟨by decide, by decide, by decide +kernel, by decide, by decide, by decide⟩

theorem witness_ResetsAndRails :
    (let d : Dev := { upDev with
       dev := { upDev.dev with resetAt := some 0 } }
     d.dev.power ≠ .offVbat ∧ d.dev.resetAt = some 0 ∧ 0 ≤ d.now) ∧
    (let e := upDev.booted upDev.dev.devAddr 2
     e.dev.devAddr = 0) ∧
    (Dev.reset.dev.power ≠ .offVbat) ∧
    (Dev.reset.dev.power ≠ .offVbat ∧ Dev.reset.coreHalted 3 = false) ∧
    (let l := (upDev.now :: upDev.dev.restarts).filter (fun t => decide (upDev.now < t + 60 * Config.ticksPerSecond))
     let d : Dev := ({ upDev with
       dev := { upDev.dev with restarts := l } } : Dev).raise 0x3A6 [] 1
     l.length = 1 ∧ d.sec.debug = .opened ∧ d.upd.trial.isSome = false) ∧
    (let d : Dev := { upDev with
       dev := { upDev.dev with restoreDue := true } }
     d.host.ready = true ∧ d.dev.restoreDue = true ∧ (d.upd.settings d.dev.slot).links = [] ∧ (d.upd.settings d.dev.slot).trees = []) ∧
    (Dev.reset.dev.power ≠ .offVbat ∧ Dev.reset.host.fatal = false ∧ Dev.reset.upd.trial = none) ∧
    (let d : Dev := { Dev.reset with
       dev := { Dev.reset.dev with power := .offVbat },
       sec := { Dev.reset.sec with vbat := { Dev.reset.sec.vbat with ownerKey := some 1 } } }
     d.dev.power = .offVbat ∧ d.sec.vbat.ownerKey.isSome = true) :=
    ⟨by decide, by decide, by decide, by decide, by decide, by decide, by decide, by decide⟩

theorem witness_TreeCommands :
    (let d : Dev := { upDev with
       profile := { upDev.profile with tree := some (zeros 528) } }
     let d := d.rang 0 0x0201
     d.served 0 0x0201 = true ∧ d.treePresent 0 = true ∧ (d.tree 0).attach = .detached ∧ d.tow.attachWait.any (fun e => e.2.1 == 0) = false ∧
       d.profile.tree.isSome = true ∧ d.dev.power ≠ .quiet ∧ d.dev.power ≠ .doze ∧ d.alignDue = false) ∧
    (let d := treeDev litTree
     let d := d.rang 0 0x0202
     d.served 0 0x0202 = true ∧ tget d.prot.ports 0 = none ∧ d.treePresent 0 = true ∧ (d.tree 0).attach = .attached ∧ (d.tree 0).detachPend = none) ∧
    (let u := (treeDev litTree).rang 0 0x0203
     u.served 0 0x0203 = true ∧ u.treePresent 0 = true) ∧
    (let u := (treeDev litTree).rang 0 0x0206
     u.served 0 0x0206 = true ∧ u.treePresent 63 = true) ∧
    (let u := (treeDev litTree).rang 0 0x0204
     u.served 0 0x0204 = true ∧ u.treeUp 0 = true) ∧
    (let u := (treeDev litTree).rang 0 0x0204
     u.served 0 0x0204 = true ∧ u.treeUp 0 = true) ∧
    (let u := (treeDev litTree).rang 0 0x0205
     u.served 0 0x0205 = true ∧ u.treeUp 0 = true) :=
    ⟨by decide, by decide, by decide, by decide, by decide, by decide, by decide⟩

theorem witness_TerminalCommands :
    (let u := (treeDev litTree).rang 0 0x0301
     u.served 0 0x0301 = true ∧ u.treeUp 0 = true ∧ litTree.bySerial 7 = none ∧ litTree.idTaken 7 9 = false ∧ litTree.terms.length < 256) ∧
    (let y := Term.listed_ 7 none false 0
     let d := treeDev { litTree with terms := [y] }
     let d := d.rang 0 0x0302
     d.served 0 0x0302 = true ∧ d.treeUp 0 = true ∧ (d.tree 0).named { tree := 0, id := 0, bySerial := true, serial := 7 } = some y ∧ y.removing = none ∧ y.id = none) ∧
    (let d := treeDev { litTree with terms := [term7] }
     let d := d.rang 0 0x0302
     d.served 0 0x0302 = true ∧ d.treeUp 0 = true ∧ (d.tree 0).named { tree := 0, id := 7, bySerial := false, serial := 0 } = some term7 ∧ term7.removing = none ∧
       term7.id = some 7) ∧
    (let d := treeDev { litTree with terms := [term7] }
     let d := d.rang 0 0x0303
     d.served 0 0x0303 = true ∧ d.treeUp 0 = true ∧ (d.tree 0).named { tree := 0, id := 7, bySerial := false, serial := 0 } = some term7) ∧
    (let d := treeDev { litTree with terms := [term7] }
     let e : Dev := { d with prot := (wPortDev (wPort .holder)).prot }
     let d := d.rang 0 0x0304
     let e := e.rang 0 0x0304
     (d.served 0 0x0304 = true ∧ d.port 0 = none ∧ d.treeUp 0 = true ∧ (d.tree 0).named { tree := 0, id := 7, bySerial := false, serial := 0 } = some term7) ∧
       e.served 0 0x0304 = true ∧ (e.port 0).isSome = true ∧ e.treeUp 0 = true ∧ (e.tree 0).named { tree := 0, id := 7, bySerial := false, serial := 0 } = some term7) ∧
    (let u := (treeDev litTree).rang 0 0x0305
     u.served 0 0x0305 = true ∧ u.treeUp 0 = true) :=
    ⟨by decide, by decide, by decide, by decide, by decide, by decide⟩

theorem witness_LaneAndClockEvents :
    (let w : WakeSeries := { failures := 0, phase := .waiting, ref := none }
     let l := { Tree.reset.lanes with state := .waking 3 false, wake := some w }
     let d := treeDev { litTree with lanes := l }
     (d.tree 0).lanes.state = .waking 3 false ∧ (d.tree 0).lanes.wake = some w) ∧
    (let w : WakeSeries := { failures := 3, phase := .waiting, ref := some { ctx := 0, id := 0 } }
     let l := { Tree.reset.lanes with wake := some w }
     ((treeDev { litTree with lanes := l }).tree 0).lanes.wake = some w) ∧
    (let w : WakeSeries := { failures := 1, phase := .pausing 0, ref := none }
     let l := { Tree.reset.lanes with wake := some w }
     ((treeDev { litTree with lanes := l }).tree 0).lanes.wake = some w) ∧
    (let l := { Tree.reset.lanes with nextSeries := some 0 }
     let d := treeDev { litTree with lanes := l }
     (d.tree 0).attached = true ∧ (d.tree 0).lanes.state = .idle ∧ (d.tree 0).lanes.wake = none ∧ d.wantsLit 0 = true ∧ (d.tree 0).lanes.nextSeries = some 0) ∧
    (let d := (treeDev litTree).askModule 0 true
     d.host.idle = false ∧ d.treePresent 0 = true ∧ d.dev.busFaulty.contains 0 = false ∧ (d.bus 0).queue = [{ tree := 0, identity := true }]) ∧
    (let r : ModulePoll := { tree := 0, data := none, failedRecoveries := 3 }
     3 ≤ r.failedRecoveries ∧ ({ r with failedRecoveries := 0, held := true }).failedRecoveries < 3 ∧ ({ r with failedRecoveries := 0, held := true }).held = true ∧
       ({ r with failedRecoveries := 2 }).failedRecoveries < 3 ∧ 0 < ({ r with failedRecoveries := 2 }).failedRecoveries ∧ ({ r with failedRecoveries := 0 }).held = false) ∧
    (let d := (treeDev litTree).askModule 0 true
     d.host.idle = false ∧ d.treePresent 0 = true ∧ d.dev.busFaulty.contains 0 = false ∧ (d.bus 0).queue = [{ tree := 0, identity := true }]) ∧
    (let x : RefClk := { Dev.reset.ref with goodA := true, goodB := true, selected := some 0, switchTo := none }
     let y : RefClk := { Dev.reset.ref with goodA := true, goodB := false, selected := some 0, switchTo := none }
     let z : RefClk := { Dev.reset.ref with goodA := true, goodB := true, selected := some 1, switchTo := none }
     (x.good 0 = true ∧ ((x.setGood 0 false).setFail 0 none).selected = some 0 ∧ ((x.setGood 0 false).setFail 0 none).good 1 = true) ∧
       (y.good 0 = true ∧ ((y.setGood 0 false).setFail 0 none).selected = some 0 ∧ ((y.setGood 0 false).setFail 0 none).good 1 = false) ∧
       z.good 0 = true ∧ ((z.setGood 0 false).setFail 0 none).selected ≠ some 0) ∧
    (let d : Dev := { Dev.reset with ref := { Dev.reset.ref with selected := none } }
     let e : Dev := { d with clock := { d.clock with cycle := 5, base := 781250 } }
     (d.ref.selected = none ∧ d.clocked = false) ∧ e.ref.selected = none ∧ e.clocked = true ∧ { e.ref with selected := some 1 }.selected = some 1) ∧
    (let d : Dev := { Dev.reset with ref := { Dev.reset.ref with switchTo := some 0 } }
     d.ref.pendPref = none ∧ d.ref.switchTo = some 0) ∧
    (let d : Dev := { Dev.reset with
       tow := { Dev.reset.tow with enabledAt := some 0, alignWait := 0 } }
     d.tow.enabledAt = some 0 ∧ d.tickRef = none ∧ 0 * 1000 + d.tow.alignWait * Config.ticksPerSecond ≤ d.now * 1000) :=
    ⟨by decide, by decide, by decide, by decide, by decide, by decide, by decide, by decide, by decide, by decide, by decide⟩

theorem witness_SluiceAndRinse :
    (Dev.reset.sluice.fifo.any (fun r => r.op == .hbmRinse) = false ∧ Dev.reset.sluice.held.any (fun h => h.op == .hbmRinse && h.ended.isNone) = false ∧
       Dev.reset.dev.power = .active ∧ Dev.reset.sluice.fifo.length < 1024 ∧
       Dev.reset.sluice.base + Dev.reset.sluice.reserve + HeavyOp.hbmRinse.cost ≤ Dev.reset.sluice.budget) ∧
    (let d : Dev := { Dev.reset with
       sluice := { Dev.reset.sluice with held := [{ op := .hbmRinse, admitted := 0, ended := none }] } }
     d.sluice.held.any (fun h => h.op == .hbmRinse && h.ended.isNone) = true) :=
    ⟨by decide, by decide⟩

theorem witness_FlowCommands :
    (let d := treeDev { litTree with terms := [term7] }
     let d := d.rang 0 0x0401
     (d.served 0 0x0401 = true ∧ d.flow 5 = none ∧ d.treePresent 0 = true ∧ ((d.tree 0).byId 7).map (fun x => x.serial) = some 7) ∧
       d.pointPresent 0x40 = true ∧ (List.replicate 8 0).any (fun p => decide (255 < p)) = false) ∧
    (let u := upDev.rang 0 0x0402
     u.served 0 0x0402 = true ∧ wFlowDev.flow 5 = some wFlow ∧ wFlow.deleting = none) ∧
    (wFlowDev.flow 5 = some wFlow) :=
    ⟨by decide, by decide, by decide⟩

theorem witness_GrantCommands :
    (let u := upDev.rang 0 0x0403
     u.served 0 0x0403 = true) ∧
    (let u := upDev.rang 0 0x0403
     u.served 0 0x0403 = true) ∧
    (let u := upDev.rang 0 0x0403
     u.served 0 0x0403 = true) ∧
    (let u := upDev.rang 0 0x0403
     u.served 0 0x0403 = true) ∧
    (let u := upDev.rang 0 0x0403
     u.served 0 0x0403 = true) ∧
    (let u := upDev.rang 0 0x0403
     u.served 0 0x0403 = true) ∧
    ((treeDev litTree).treeUp 0 = true) ∧
    ((treeDev litTree).treeUp 0 = true ∧ (some 131071 : Option Nat).elim true (fun f => decide (f ≤ 131071)) = true) ∧
    (let d := treeDev { litTree with terms := [term7] }
     (d.tree 0).byId 7 = some term7 ∧ startOk [] 1 0 320 (placeCost term7.fec 8) = true ∧ chooseStart [] 1 0 (placeCost term7.fec 8) = some 320 ∧
       d.loadOk 0 [{ tid := 7, start := 320, ncw := 8, fec := term7.fec, n := 1, phase := 0 }] (d.tree 0).keep.gq (d.tree 0).keep.poll = true) ∧
    (let d : Dev := { treeDev litTree with
       pool := { upDev.pool with flows := [(5, { wFlow with dir := 1 })] } }
     d.treeUp 0 = true ∧ d.grantFlowOk 0 5 = true) ∧
    (leAt (zeros 28) 1 1 = 0 ∧ leAt ([0, 1] ++ zeros 26) 1 1 = 1 ∧ leAt ([0, 2] ++ zeros 26) 1 1 = 2 ∧ leAt ([0, 3] ++ zeros 26) 1 1 = 3 ∧ leAt ([0, 4] ++ zeros 26) 1 1 = 4 ∧
       leAt ([0, 5] ++ zeros 26) 1 1 = 5 ∧ 6 ≤ leAt ([0, 255] ++ zeros 26) 1 1) ∧
    (upDev.grantFlowOk 0 5 = false) ∧
    ((treeDev litTree).treeUp 0 = true ∧ (treeDev litTree).loadOk 0 ((treeDev litTree).tree 0).standing ((treeDev litTree).tree 0).keep.gq 8 = true) :=
    ⟨by decide, by decide, by decide, by decide, by decide, by decide, by decide, by decide, by decide, by decide, by decide, by decide, by decide⟩

theorem witness_QueueAndPoolCommands :
    (let u := upDev.rang 0 0x0404
     u.served 0 0x0404 = true) ∧
    (let u := upDev.rang 0 0x0404
     u.served 0 0x0404 = true ∧ rangeOk 0 8 = true) ∧
    (let u := upDev.rang 0 0x0407
     u.served 0 0x0407 = true ∧ u.pool.hbmUsable = true ∧ (0 : Nat) ≠ 0xFFFF ∧ 65470 + 65 ≤ 65535) ∧
    (Dev.reset.pool.hbmUsable = true) ∧
    (let u := upDev.rang 0 0x0408
     u.served 0 0x0408 = true ∧ (List.replicate 83 0).length = 83 ∧ (List.replicate 83 0).any (fun q => decide (196608 < q)) = false) ∧
    (let u := upDev.rang 0 0x0408
     u.served 0 0x0408 = true) ∧
    (let u := upDev.rang 0 0x0406
     u.served 0 0x0406 = true ∧ rangeOk 1048568 8 = true) ∧
    (let u := upDev.rang 0 0x0406
     u.served 0 0x0406 = true ∧ rangeOk 0 1048576 = true) :=
    ⟨by decide, by decide, by decide, by decide, by decide, by decide, by decide, by decide⟩

theorem witness_PointAndUplinkCommands :
    (let u := wFlowDev.rang 0 0x0405
     u.served 0 0x0405 = true ∧ (u.flow 5).isSome = true ∧ bitOf 254 0 = false ∧ bitOf 15 7 = false) ∧
    ((wFlowDev.flow 5).isSome = true) ∧
    (let u := upDev.rang 0 0x0406
     u.served 0 0x0406 = true ∧ u.pointPresent 0x40 = true ∧ (-32 : Int) ≤ -32) ∧
    (let u := upDev.rang 0 0x0409
     u.served 0 0x0409 = true ∧ u.upPresent 0x40 = true ∧ wGate.entries ≠ [] ∧ wGate.entries.length ≤ 256 ∧ wGate.maxSdu.length = 8 ∧
       wGate.maxSdu.any (fun m => m != 0 && (decide (m < 64) || decide (16384 < m))) = false ∧
       wGate.entries.any (fun e => decide (2 < e.op) || decide (255 < e.states) || decide (e.interval < 16) || decide (1000000000 < e.interval)) = false ∧
       u.gateBad 0x40 wGate = false) ∧
    ((upDev.upPort 0x40).gatePend = none) ∧
    (let u := upDev.rang 0 0x0409
     u.served 0 0x0409 = true ∧ u.upPresent 0x40 = true ∧ ([] : List Nat).any (fun a => decide (2 ^ 48 ≤ a)) = false ∧ u.steering.contains 0 = false ∧ u.steering.length < 2) ∧
    (gatePortBad upDev (upDev.upPort 0x40).set = none) ∧
    (let u := upDev.rang 0 0x0409
     u.served 0 0x0409 = true ∧ steerBad u { rule := 3, valid := false, port := 0x40, vid := none, pcp := none, etype := none, cls := 0, flow := 5 } = false) ∧
    (steerBad wFlowDev { rule := 63, valid := true, port := 0xA4, vid := some 4095, pcp := some 7, etype := some 65535, cls := 7, flow := 5 } = false) :=
    ⟨by decide, by decide, by decide, by decide, by decide, by decide, by decide, by decide, by decide⟩

theorem witness_RuleSetStaging :
    (let d : Dev := upDev.modSlot 0 (fun v => { v with state := .staging })
     let n : ParseNode := { hdrType := 8, selOff := 62, selMask := 65535, advFixed := 64, advFoff := 0xFF, advFmask := 0, advFscale := 1, vbit := 0, transFirst := 511,
                            transCount := 64, defaultNext := 0xFE, extOff := 63, extLen := 32, extKey := 32 }
     let d := d.rang 0 0x0501
     d.served 0 0x0501 = true ∧ (d.slot 0).state = .staging ∧ [n].any nodeBad = false ∧ [(65535, 63)].any (fun t : Nat × Nat => decide (65535 < t.1) || (decide (63 < t.2) && t.2 != 0xFE)) = false) ∧
    (let u := upDev.rang 0 0x0502
     u.served 0 0x0502 = true ∧ ringOk 3 = true ∧ (List.range 4).find? (fun i => (u.slot i).state = .free) = some 0 ∧
       ((List.range 5).zip (List.replicate 5 (2, 7, 131071))).any (fun m => missBad m.1 m.2) = false ∧ (List.replicate 5 63).any (fun n => decide (63 < n)) = false) ∧
    (let r : Rule := { id := 1, priority := 0, value := zeros 80, mask := zeros 80, acts := [{ op := 0, a8 := 0, a16 := 0, a32 := 0 }] }
     let d : Dev := upDev.modSlot 0 (fun v => { v with state := .staging })
     let d := d.rang 0 0x0502
     d.served 0 0x0502 = true ∧ (d.slot 0).state = .staging ∧ [r].any ruleBad = false ∧ idsDistinct ((d.slot 0).rules.map (·.id) ++ [r].map (·.id)) = true) ∧
    (let d : Dev := upDev.modSlot 0 (fun v => { v with state := .staging })
     let d := d.rang 0 0x0502
     d.served 0 0x0502 = true ∧ (d.slot 0).state = .staging ∧ (d.slot 0).building = none ∧ (d.slot 0).closed = true ∧ (d.slot 0).rules.length ≤ 65536 ∧ d.sluice.fifo.length < 1024 ∧
       d.sluice.base + d.sluice.reserve + (HeavyOp.rulesetInstall 0).cost ≤ d.sluice.budget) ∧
    (let d : Dev := { upDev.modSlot 0 (fun v => { v with state := .staging, building := some { ctx := 0, id := 0 } }) with
       sluice := { upDev.sluice with held := [{ op := .rulesetInstall 0, admitted := 0, ended := none }] } }
     let e : Dev := d.modSlot 0 (fun v => { v with trans := [(0, (5, 9))] })
     (d.sluice.held.any (fun h => h.op == .rulesetInstall 0 && h.ended.isNone) = true ∧ (d.slot 0).building = some { ctx := 0, id := 0 } ∧
       sumOf (d.cls.slots.map (fun x => x.words)) + 131072 ≤ 131072 ∧ (d.slot 0).rules.length ≤ 65536 ∧ (d.slot 0).closed = true) ∧
       (e.sluice.held.any (fun h => h.op == .rulesetInstall 0 && h.ended.isNone) = true ∧ (e.slot 0).building = some { ctx := 0, id := 0 } ∧ (e.slot 0).closed = false) ∧
       131072 < sumOf (d.cls.slots.map (fun x => x.words)) + 131073) ∧
    (let d : Dev := (upDev.modSlot 3 (fun v => { v with state := .built })).modSlot 0 (fun v => { v with state := .staging })
     let d := d.rang 0 0x0502
     d.served 0 0x0502 = true ∧ (d.slot 3).state = .built ∧ (d.slot 0).state = .staging) ∧
    (let d : Dev := (upDev.modSlot 3 (fun v => { v with state := .built })).modSlot 0 (fun v => { v with state := .retiring })
     let d := d.rang 0 0x0503
     d.served 0 0x0503 = true ∧ (d.slot 3).state = .built ∧ (d.slot 0).state = .retiring ∧ d.cls.commit = none) ∧
    (let d : Dev := { upDev.modSlot 3 (fun v => { v with state := .built }) with
       cls := { (upDev.modSlot 3 (fun v => { v with state := .built })).cls with commit := some ({ ctx := 0, id := 0 }, 3, true) } }
     d.cls.commit = some ({ ctx := 0, id := 0 }, 3, true) ∧ (d.slot 3).state = .built ∧ (List.range 4).filter (fun i => (d.slot i).state = .retiring) = []) ∧
    (let u := upDev.rang 0 0x0504
     u.served 0 0x0504 = true) :=
    ⟨by decide, by decide, by decide, by decide, by decide, by decide, by decide, by decide, by decide⟩

theorem witness_FdbCommands :
    (let u := upDev.rang 0 0x0601
     u.served 0 0x0601 = true ∧ u.fdb.salt < 2 ^ 32 ∧ 2 ^ 32 - 1 ≠ u.fdb.salt ∧ u.sluice.fifo.length < 1024 ∧
       u.sluice.base + u.sluice.reserve + (HeavyOp.tableRebuild u.fdb.nextJob).cost ≤ u.sluice.budget) ∧
    (let u := upDev.rang 0 0x0601
     u.served 0 0x0601 = true ∧ ringOk 3 = true ∧ u.fdb.domains.any (fun e => e.1 != 4095 && e.2.flow == 131071) = false) ∧
    (upDev.domainBad { enable := true, learn := true, fid := 4095, flow := 131071, missAct := 2, mgmtRing := 3 } = false) ∧
    (let u := upDev.rang 0 0x0601
     u.served 0 0x0601 = true ∧ u.sourceOk 5 = true ∧ (u.fdb.members.filter (fun m => m.fid == 5)).length < 256 ∧ u.fdb.members.length < 32768 ∧ u.fdb.member 5 5 = none) ∧
    (upDev.memberBad { add := true, flood := true, fid := 4095, returnFlow := 131071, source := 5 } = none ∧ upDev.memberBad { add := false, flood := true, fid := 0, returnFlow := 0, source := 5 } = none) ∧
    (let u := upDev.rang 0 0x0601
     u.served 0 0x0601 = true ∧ u.scopeOk 5 = true ∧ u.scopeOk 0x4000 = true ∧ u.scopeOk 0x4020 = true ∧ u.scopeOk 0x407F = true ∧ (some 262144 : Option Nat).elim true (fun n => decide (n ≤ 262144)) = true) ∧
    (let u := wFdbDev.rang 0 0x0602
     (u.served 0 0x0602 = true ∧ u.fdbKeyOk 1 2 = true ∧ (u.fdb.lookup 1 2).isSome = true ∧ u.sourceOk 3 = true ∧
       u.fdb.overLimit 3 ((u.fdb.lookup 1 2).bind (fun p => if p.2.static then none else some p.2.source)) = none) ∧
       u.fdbKeyOk 1 3 = true ∧ u.fdb.lookup 1 3 = none ∧ u.fdb.overLimit 3 none = none) ∧
    (let u := wFdbDev.rang 0 0x0602
     u.served 0 0x0602 = true ∧ u.fdbKeyOk 1 2 = true) ∧
    (let u := wFdbDev.rang 0 0x0602
     u.served 0 0x0602 = true ∧ u.fdbKeyOk 1 2 = true) ∧
    (let u := wFdbDev.rang 0 0x0602
     u.served 0 0x0602 = true ∧ (some 1).elim true (fun n => decide (n ≤ 4095) && (tget u.fdb.domains n).isSome) = true ∧ (some 0x4001).elim true u.scopeOk = true ∧
       u.sluice.fifo.length < 1024 ∧ u.sluice.base + u.sluice.reserve + (HeavyOp.tableRebuild u.fdb.nextJob).cost ≤ u.sluice.budget) ∧
    (let u := upDev.rang 0 0x0602
     u.served 0 0x0602 = true) :=
    ⟨by decide, by decide, by decide, by decide, by decide, by decide, by decide +kernel, by decide, by decide, by decide +kernel, by decide⟩

theorem witness_CamCommands :
    (let u := upDev.rang 0 0x0603
     u.served 0 0x0603 = true ∧ u.cam.holds 7 = false ∧ ringOk 3 = true ∧ ([0, 20, 40, 60].take 4).any (fun o => decide (60 < o)) = false ∧
       u.cam.tables.any (fun e => e.1 != 7 && decide (e.2.firstBank < 12 + 4) && decide (12 < e.2.firstBank + e.2.banks)) = false) ∧
    (upDev.layoutBad { table := 7, enable := true, firstBank := 12, banks := 4, width := 4, inputMask := 31, segOff := [0, 20, 40, 60], mgmtRing := 3 } = none) ∧
    (let u := wCamDev.rang 0 0x0604
     u.served 0 0x0604 = true ∧ (u.camAt 1 4095).isSome = true) ∧
    (let u := wCamDev.rang 0 0x0604
     u.served 0 0x0604 = true ∧ (u.camAt 1 4095).isSome = true) ∧
    (let u := wCamDev.rang 0 0x0604
     u.served 0 0x0604 = true ∧ (u.camAt 1 0).isSome = true) :=
    ⟨by decide, by decide, by decide, by decide, by decide⟩

theorem witness_KeyCommands :
    (let r : SaInstallReq := { kind := 2, unit_ := 0, index := 0, tx := false, test := true, sub := 0, sci := 0, ssci := 0, an := 0, confOffset := 0, replay := 0, nextPn := 1, salt := 0, iv := 0, cipher := zeros 32, tag := 0 }
     let u := upDev.rang 0 0x0701
     u.served 0 0x0701 = true ∧ u.installOk r = true ∧ u.sec.lifecycle = .manufacture) ∧
    (let u := wKeyDev.rang 0 0x0702
     u.served 0 0x0702 = true ∧ u.sec.lifecycle ≠ .alarmed ∧ u.treeUp 0 = true ∧ u.keyed 0 7 = true ∧ u.rekeying 0 7 = false) ∧
    (let u := wKeyDev.rang 0 0x0702
     u.served 0 0x0702 = true ∧ u.treeUp 0 = true ∧ (u.inScope 1 0).any (fun p => u.rekeying p.1 p.2) = false ∧
       u.sluice.fifo.length < 1024 ∧ u.sluice.base + u.sluice.reserve + (HeavyOp.massRekey 0).cost ≤ u.sluice.budget) ∧
    (let u := wKeyDev.rang 0 0x0702
     u.served 0 0x0702 = true ∧ (u.inScope 2 0).any (fun p => u.rekeying p.1 p.2) = false ∧
       u.sluice.fifo.length < 1024 ∧ u.sluice.base + u.sluice.reserve + (HeavyOp.massRekey 0).cost ≤ u.sluice.budget) ∧
    (let u := wKeyDev.rang 0 0x0702
     u.served 0 0x0702 = true ∧ (tget u.sec.macsec (1 * 64 + 63)).elim false (fun x => x.tx) = true ∧ 1 < u.uplinkCount) ∧
    (let u := wKeyDev.rang 0 0x0702
     u.served 0 0x0702 = true ∧ (tget u.sec.macsec (1 * 64 + 63)).isSome = true ∧ 1 < u.uplinkCount ∧ tget u.sec.txActive 4 ≠ some 63) ∧
    (let u := upDev.rang 0 0x0703
     u.served 0 0x0703 = true ∧ u.uplinkCount ≤ 8 ∧ u.treePresent 64 = false) ∧
    (let u := wKeyDev.rang 0 0x0703
     u.served 0 0x0703 = true ∧ (tget u.sec.macsec (1 * 64 + 63)).isSome = true ∧ tget u.sec.macsec (1 * 64 + 62) = none ∧ 1 < u.uplinkCount) ∧
    (let u := wKeyDev.rang 0 0x0703
     u.served 0 0x0703 = true ∧ u.treePresent 0 = true ∧ (u.keys (globalIndex 0 7)).firstX = some 0) :=
    ⟨by decide, by decide, by decide, by decide, by decide, by decide, by decide, by decide, by decide⟩

theorem witness_TamperAndLifecycle :
    (let d : Dev := { upDev with
       sec := { upDev.sec with lifecycle := .secured, actions := List.replicate 6 .erase, failLimit := 3 } }
     let d := d.rang 0 0x0704
     let u := upDev.rang 0 0x0704
     (u.served 0 0x0704 = true ∧ u.sec.lifecycle = .manufacture) ∧ (d.served 0 0x0704 = true ∧ d.sec.lifecycle = .secured ∧ (lget d.sec.actions 5 .log).code ≤ 2 ∧ 3 ≤ d.sec.failLimit) ∧
       0 < (lget d.sec.actions 5 .log).code) ∧
    (let u := upDev.rang 0 0x0704
     u.served 0 0x0704 = true) ∧
    (let u := upDev.rang 0 0x0704
     u.served 0 0x0704 = true) ∧
    (upDev.dev.power ≠ .offVbat ∧ [5, 0, 9].filter (fun x => decide (x ≤ 5)) = [5, 0]) ∧
    (let d : Dev := { upDev with dev := { upDev.dev with power := .offVbat } }
     d.dev.power = .offVbat ∧ [5, 0, 4].filter (fun x => x == 0 || x == 4) = [0, 4]) ∧
    (let u := upDev.rang 0 0x0705
     u.served 0 0x0705 = true ∧ u.sec.lifecycle = .manufacture) ∧
    (let d : Dev := { upDev with
       sec := { upDev.sec with lifecycle := .provisioned } }
     let d := d.rang 0 0x0705
     d.served 0 0x0705 = true ∧ d.sec.lifecycle = .provisioned) ∧
    (let d : Dev := { upDev with
       sec := { upDev.sec with
         lifecycle := .alarmed, vbat := { upDev.sec.vbat with ownerKey := some 1 } } }
     let e : Dev := { upDev with
       sec := { upDev.sec with lifecycle := .alarmed } }
     let d := d.rang 0 0x0705
     let e := e.rang 0 0x0705
     (d.served 0 0x0705 = true ∧ d.sec.lifecycle = .alarmed ∧ d.sec.vbat.ownerKey ≠ none) ∧ e.served 0 0x0705 = true ∧ e.sec.lifecycle = .alarmed ∧ e.sec.vbat.ownerKey = none) ∧
    (let d : Dev := { upDev with
       sec := { upDev.sec with lifecycle := .secured } }
     let d := d.rang 0 0x0705
     let u := upDev.rang 0 0x0705
     (d.served 0 0x0705 = true ∧ d.sec.lifecycle = .secured) ∧ u.served 0 0x0705 = true ∧ u.sec.lifecycle = .manufacture) ∧
    (let d : Dev := { upDev with
       sec := { upDev.sec with lifecycle := .secured } }
     let d := d.rang 0 0x0705
     d.served 0 0x0705 = true ∧ d.sec.lifecycle = .secured) :=
    ⟨by decide, by decide, by decide, by decide, by decide, by decide, by decide, by decide, by decide, by decide⟩

theorem witness_DebugCommands :
    (let u := upDev.rang 0 0x0706
     u.served 0 0x0706 = true) ∧
    (let d : Dev := { upDev with
       sec := { upDev.sec with lifecycle := .secured } }
     let d := d.rang 0 0x0706
     d.served 0 0x0706 = true ∧ d.sec.lifecycle = .secured) ∧
    (let u := upDev.rang 0 0x0706
     u.served 0 0x0706 = true) ∧
    (let u := upDev.rang 0 0x0706
     u.served 0 0x0706 = true ∧ debugAllowed u.sec.lifecycle .opened = true) ∧
    (let d : Dev := { upDev with
       sec := { upDev.sec with debug := .challengeOpen 0 } }
     d.sec.debug = .challengeOpen 0 ∧ 0 ≤ d.now) ∧
    (let u := upDev.rang 0 0x0E01
     u.served 0 0x0E01 = true) :=
    ⟨by decide, by decide, by decide, by decide, by decide, by decide⟩

theorem witness_TimeCommands :
    (let r : ClockReq := { source := 2, profile := 1, aligned := false, ppsOut := true, holdLimit := 0, ppsWidth := 1, phaseAlarm := 0, phi0 := 124999, stepThreshold := 0 }
     let u := upDev.rang 0 0x0801
     u.served 0 0x0801 = true ∧ r.source ≤ 2 ∧ r.profile ≤ 1 ∧ 1 ≤ r.ppsWidth ∧ r.ppsWidth ≤ 500000 ∧ r.phi0 ≤ 124999 ∧ u.clock.everAttached = false) ∧
    (let u := upDev.rang 0 0x0801
     u.served 0 0x0801 = true ∧ u.netPort 0x40 = true) ∧
    (let r : TimeTreeReq := { tree := 0, asym := -1000000, fixed := 100000 }
     let u := upDev.rang 0 0x0801
     u.served 0 0x0801 = true ∧ u.treePresent r.tree = true ∧ r.asym.natAbs ≤ 1000000 ∧ r.fixed.natAbs ≤ 100000) ∧
    (let u := upDev.rang 0 0x0801
     u.served 0 0x0801 = true) ∧
    (let d : Dev := { upDev with time := { upDev.time with set := { upDev.time.set with source := 2 } } }
     let d := d.rang 0 0x0802
     d.served 0 0x0802 = true ∧ d.time.set.source = 2 ∧ 4995 * 2 ^ 32 ≤ 5 * 2 ^ 32 * 1000 ∧ 5 * 2 ^ 32 * 1000 ≤ 5005 * 2 ^ 32) ∧
    (let d : Dev := { upDev with time := { upDev.time with set := { upDev.time.set with source := 1 } } }
     let d := d.rang 0 0x0802
     d.served 0 0x0802 = true ∧ d.time.set.source = 1 ∧ 2 ^ 48 - 1 < 2 ^ 48) ∧
    (let d : Dev := { upDev with time := { upDev.time with set := { upDev.time.set with source := 2 } } }
     let d := d.rang 0 0x0802
     d.served 0 0x0802 = true ∧ d.time.set.source = 2) ∧
    (let u := upDev.rang 0 0x0803
     u.served 0 0x0803 = true) ∧
    (let d : Dev := { upDev with time := { upDev.time.modPin 3 (fun p => { p with mode := 1 }) with state := .locked } }
     let r : TevAddReq := { pin := 3, sec := 1, ns := 999999999, width := 10, period := 20, count := 0 }
     let d := d.rang 0 0x0803
     d.served 0 0x0803 = true ∧ r.pin ≤ 3 ∧ (lget d.time.pins r.pin TevPin.reset).mode = 1 ∧ (lget d.time.pins r.pin TevPin.reset).entries.length < 16 ∧ r.width ≤ 500000000 ∧
       2 * r.width ≤ r.period ∧ d.time.value 5 + 10000 * 2 ^ 32 ≤ (r.sec % 2 ^ 48 * 1000000000 + r.ns) * 2 ^ 32 ∧ d.time.state ≠ .unset) ∧
    (let u := upDev.rang 0 0x0803
     u.served 0 0x0803 = true ∧ 3 ≤ 3) ∧
    (let d0 := treeDev { litTree with terms := [term7] }
     let d : Dev := { d0 with time := { d0.time with state := .locked } }
     let r : TrigReq := { tree := 0, trigId := 255, output := 7, sec := 10, ns := 0, period := 0, repeats := 0, mask := 128 }
     let d := d.rang 0 0x0804
     d.served 0 0x0804 = true ∧ d.treeUp r.tree = true ∧ maskIds r.mask ≠ [] ∧ maskIds 0 = [] ∧ d.time.state ≠ .unset ∧ d.time.state ≠ .freeRun ∧
       ((maskIds r.mask).all (fun i => ((d.tree r.tree).byId i).elim false (fun x => x.state = .inService))) = true ∧
       d.time.atBoundary 0 + 4000000 * 2 ^ 32 ≤ (r.sec % 2 ^ 48 * 1000000000 + r.ns) * 2 ^ 32) ∧
    (let d0 := treeDev { litTree with terms := [term7] }
     let d : Dev := { d0 with time := { d0.time with state := .holdover } }
     let d := d.rang 0 0x0804
     d.served 0 0x0804 = true ∧ d.treeUp 0 = true ∧ maskIds 128 ≠ [] ∧ maskIds 0 = [] ∧ ((maskIds 128).all (fun i => ((d.tree 0).byId i).elim false (fun x => x.state = .inService))) = true ∧
       d.time.state ≠ .unset ∧ d.time.state ≠ .freeRun) :=
    ⟨by decide, by decide, by decide, by decide, by decide, by decide, by decide, by decide, by decide, by decide, by decide, by decide⟩

theorem witness_TimeEvents :
    (let d : Dev := { upDev with time := { upDev.time with state := .locked } }
     (d.host.idle = false ∧ d.time.set.source = 0 ∧ d.time.state = .locked) ∧ upDev.time.state ≠ .locked) ∧
    (let d : Dev := { upDev with time := { upDev.time with state := .freeRun, goodSamples := 4 } }
     d.time.state = .freeRun ∧ 4 ≤ d.time.goodSamples ∧ d.host.idle = false ∧ d.time.set.source ≠ 1) ∧
    (let d : Dev := { upDev with time := { upDev.time with state := .holdover, set := { upDev.time.set with holdLimit := 1 } }, clock := { upDev.clock with cycle := 8000, base := 1250000000 } }
     d.time.state = .holdover ∧ d.host.idle = false ∧ d.time.set.holdLimit ≠ 0 ∧ d.time.holdSince + d.time.set.holdLimit * Config.ticksPerSecond ≤ d.now) ∧
    (let d : Dev := { upDev with host := { upDev.host with pause := true } }
     let e : Dev := { upDev with time := { upDev.time with set := { upDev.time.set with source := 2 } } }
     let f : Dev := { upDev with time := { upDev.time with set := { upDev.time.set with source := 1 }, ppsOffset := none } }
     d.host.idle = true ∧ e.time.set.source = 2 ∧ f.time.set.source = 1 ∧ f.time.ppsOffset = none) ∧
    (let o : ServoOut := { inc := some (5 * 2 ^ 32), offset := -99, now := 0 }
     upDev.host.idle = false ∧ upDev.time.set.source ≠ 2 ∧ o.offset.natAbs ≤ upDev.time.set.stepThreshold ∧ incOk (5 * 2 ^ 32) = true) ∧
    (let o : ServoOut := { inc := none, offset := 10001, now := 0 }
     upDev.host.idle = false ∧ upDev.time.set.source ≠ 2 ∧ upDev.time.set.stepThreshold ≠ 0 ∧ upDev.time.set.stepThreshold < o.offset.natAbs) ∧
    (let d : Dev := { upDev with time := { upDev.time with state := .locked, set := { upDev.time.set with ppsOut := true }, base := 1000000000 * 2 ^ 32 + 1 } }
     d.time.state ≠ .unset ∧ d.time.set.ppsOut = true ∧ secOf (d.time.value 0 - d.time.inc) ≠ secOf (d.time.value 0)) ∧
    (upDev.time.basePeriod < periodsAt 100) ∧
    (let e : TevEntry := { entry := 0, start := 100, next := 100, width := 10, period := 0, left := none }
     let d : Dev := { upDev with time := { upDev.time.modPin 3 (fun p => { p with mode := 1, entries := [e] }) with base := 200 * 2 ^ 32 } }
     (lget d.time.pins 3 TevPin.reset).mode = 1 ∧ (lget d.time.pins 3 TevPin.reset).due (d.time.ns 0) = some e) ∧
    (let e : TevEntry := { entry := 0, start := 5, next := 5, width := 3, period := 9, left := some 1 }
     e.left = some 1 ∧ e.period ≠ 0 ∧ ({ e with left := some 2 } : TevEntry).left = some 2 ∧ ({ e with period := 0 } : TevEntry).period = 0) ∧
    (let d : Dev := { upDev with time := upDev.time.modPin 3 (fun p => { p with mode := 2, edges := 1 }) }
     let e : Dev := { d with ev := { d.ev with staging := List.replicate 64 { src := 0x30B, boundary := false, cause := 0, flag := false, index := 0, cycle := 0, data := [], ring := 0 } } }
     (lget d.time.pins 3 TevPin.reset).mode = 2 ∧ bitOf (lget d.time.pins 3 TevPin.reset).edges 0 = true ∧
       (lget d.time.pins 3 TevPin.reset).lastEdge.elim true (fun l => decide (l * 8 + 100 ≤ d.clk 9 * 8)) = true ∧ d.tevPending 3 < 64 ∧ 64 ≤ e.tevPending 3) ∧
    (let d : Dev := { Dev.reset with time := { Dev.reset.time with state := .locked, set := { Dev.reset.time.set with aligned := true } } }
     d.clock.everAttached = false ∧ d.clock.tickLengthened = false ∧ (d.time.set.aligned && d.time.state == .locked) = true) ∧
    (let d : Dev := wRefDev (List.replicate 1000 0)
     let e : Dev := { d with clock := { d.clock with tickLengthened := true }, time := { d.time with set := { d.time.set with aligned := true } } }
     d.tickRef = some 0 ∧ d.thetaOf 0 = some 0 ∧ d.tow.align = true ∧ d.dev.devAddr = 1 ∧ d.clock.everAttached = false ∧ d.clock.cycleLoaded = false ∧
       d.clock.tickLengthened = false ∧ d.time.set.aligned = false ∧ e.tickRef = some 0 ∧ e.clock.tickLengthened = true ∧ e.time.set.aligned = true) ∧
    (({ upDev with clock := { upDev.clock with everAttached := true } } : Dev).clock.everAttached = true) ∧
    (let p : PtpPort := { enable := true, oneStep := false, rxLat := 0, txLat := 0, rxStamp := none, txStamp := none }
     let d : Dev := { upDev.modUp 0x40 (fun x => { x with up := true }) with time := { upDev.time with ports := [(0x40, p)] } }
     (tget d.time.ports 0x40).elim false (fun p => p.enable) = true ∧ d.host.idle = false ∧ d.upLive 0x40 = true) ∧
    (let x : PtpPort := { enable := true, oneStep := false, rxLat := 0, txLat := 0, rxStamp := none, txStamp := none }
     let d : Dev := { upDev with time := { upDev.time with ports := [(1, x)] } }
     tget d.time.ports 1 = some x ∧ x.state ≠ 2) :=
    ⟨by decide, by decide, by decide, by decide, by decide, by decide, by decide, by decide, by decide, by decide, by decide, by decide, (wRefDev_all
    _ rfl), by decide, by decide, by decide⟩

theorem witness_ProtectionCommands :
    (let r := wGroup
     let u := upDev.rang 0 0x0901
     u.served 0 0x0901 = true ∧ r.pgid ≤ 1023 ∧ r.peerDev = u.dev.devAddr ∧ r.peerTree ≠ r.tree ∧ u.treePresent r.tree = true ∧
       u.treePresent r.peerTree = true ∧ u.prot.ports = [] ∧ u.port r.tree = none ∧ u.port r.peerTree = none ∧ r.pulse = none) ∧
    (let r := { wGroup with peerDev := 63, pulse := some 1 }
     let d : Dev := { upDev with tow := { upDev.tow with lockedDevs := [63] } }
     let d := d.rang 0 0x0901
     d.served 0 0x0901 = true ∧ r.pgid ≤ 1023 ∧ r.peerDev ≠ d.dev.devAddr ∧ r.peerDev ≤ 63 ∧ d.treePresent r.tree = true ∧ d.tickLocked r.peerDev = true ∧
       d.prot.ports = [] ∧ d.port r.tree = none ∧ r.pulse = some 1) ∧
    (let p := wPort .standby
     let d := wPortDev p
     let d := d.rang 0 0x0901
     d.served 0 0x0901 = true ∧ d.prot.ports.filter (fun e => e.2.pgid == 1023) = [(0, p)]) ∧
    (let p := wPort .holder
     let d := wPortDev p
     let d := d.rang 0 0x0901
     d.served 0 0x0901 = true ∧ d.prot.ports.filter (fun e => e.2.pgid == p.pgid) = [(0, p)] ∧ d.port 0 = some p ∧ p.state = .holder ∧ p.drill = none) ∧
    (let p := wPort .taking
     let d := wPortDev p
     let d := d.rang 0 0x0902
     d.served 0 0x0902 = true ∧ ((d.prot.ports.filter (fun e => e.2.pgid == 1023)).find? (fun e => e.2.primary)).or
       (d.prot.ports.filter (fun e => e.2.pgid == 1023)).head? = some (0, p)) ∧
    (let p := wPort .holder
     let d := wPortDev p
     let d := d.rang 0 0x0903
     d.served 0 0x0903 = true ∧ d.prot.ports.filter (fun e => e.2.pgid == 1023) = [(0, p)] ∧ p.state = .holder ∧ p.drill = none ∧ p.move = none ∧ p.take = none ∧ p.armed = true) ∧
    (let p := wPort .holder
     let d := wPortDev p
     let d := d.rang 0 0x0903
     d.served 0 0x0903 = true ∧ d.prot.ports.filter (fun e => e.2.pgid == 1023) = [(0, p)] ∧ p.state = .holder ∧ p.drill = none ∧ p.move = none ∧ p.take = none ∧ p.armed = true) ∧
    (let p := wPort .holder
     let d := wPortDev p
     let d := d.rang 0 0x0903
     d.served 0 0x0903 = true ∧ d.prot.ports.filter (fun e => e.2.pgid == 1023) = [(0, p)] ∧ p.state = .holder ∧ p.drill = none ∧ p.move = none ∧ p.take = none ∧ p.armed = true) ∧
    (let d : Dev := { wFlowDev with pool := { wFlowDev.pool with flows := [(5, { wFlow with dir := 1 })] } }
     let p : Pair := {
       devA := 0, devB := 63, flowA := 5, flowB := 6, pairHere := true, seqHere := false, backupHere := false, seqDev := 0, backupDev := 0, seq := 0, epoch := 0,
       up := none, down := none }
     let d := d.rang 0 0x0904
     d.served 0 0x0904 = true ∧ d.dev.devAddr = 0 ∧ d.flow 5 = some { wFlow with dir := 1 } ∧ (d.pairTrees p).1.1 ≠ (d.pairTrees p).2.1 ∧ d.prot.pairs.length < 16384) ∧
    (let p : Pair := {
       devA := 0, devB := 1, flowA := 5, flowB := 6, pairHere := true, seqHere := false, backupHere := false, seqDev := 0, backupDev := 0, seq := 0, epoch := 0,
       up := none, down := none }
     let d : Dev := { upDev with prot := { upDev.prot with pairs := [(5, p)] } }
     let d := d.rang 0 0x0904
     d.served 0 0x0904 = true ∧ tget d.prot.pairs (pairKey 0 5) = some p) :=
    ⟨by decide, by decide, by decide, by decide, by decide, by decide, by decide, by decide, by decide, by decide⟩

theorem witness_ProtectionEvents :
    (near (-12500) 0 12500 = true ∧ near 337500 312500 25000 = true ∧ near 912500 937500 25000 = true) ∧
    (let p : Port := { wPort .standby with pulse := some 1 }
     (wPortDev p).prot.ports.filter (fun e => e.2.pulse == some 1) = [(0, p)] ∧ p.pulseLost = false ∧ near (-12500) 0 12500 = true ∧
       near 337500 312500 25000 = true) ∧
    (let p : Port := { wPort .standby with lastRenew := some 1680, silentRun := 3, releaseAt := some 1360 }
     (wPortDev p).port 0 = some p ∧ p.state = .standby ∧ p.expired 2000 = true ∧ 3 ≤ p.silentRun ∧ p.releaseAt = some 1360 ∧ 1360 + 640 ≤ (wPortDev p).now) ∧
    (let p : Port := { wPort .standby with lastRenew := some 1680, silentRun := 0, witness := [true] }
     (wPortDev p).port 0 = some p ∧ p.state = .standby ∧ p.expired 2000 = true ∧ p.silentRun < 3 ∧ p.witness.head? = some true ∧ p.holdRaised = false) ∧
    (let p : Port := { wPort .init with initSince := 1360, silentRun := 3 }
     (wPortDev p).port 0 = some p ∧ p.state = .init ∧ p.primary = true ∧ p.initSince + 640 ≤ (wPortDev p).now ∧ 3 ≤ p.silentRun) ∧
    (let p : Port := { wPort .init with initSince := 1040, primary := false }
     (wPortDev p).port 0 = some p ∧ p.state = .init ∧ p.primary = false ∧ p.initSince + 960 ≤ (wPortDev p).now) ∧
    (let v : PeerView := readHeartbeat [] 1840
     let p : Port := { wPort .standby with peer := some v }
     (wPortDev p).port 0 = some p ∧ p.towLost = false ∧ p.peer.elim p.initSince (fun v => v.at_) + 160 ≤ (wPortDev p).now ∧ p.pulse = none) ∧
    (let v : PeerView := readHeartbeat [] 1841
     let p : Port := { wPort .standby with peer := some v, pulse := some 0, lastPulse := some 1984 }
     (wPortDev p).port 0 = some p ∧ (wPortDev p).now < p.peer.elim p.initSince (fun v => v.at_) + 160 ∧ p.pulse.isSome = true ∧ p.pulseLost = false ∧
       p.lastPulse.getD p.initSince + 16 ≤ (wPortDev p).now) ∧
    (let v : PeerView := readHeartbeat [] 1840
     let p : Port := { wPort .standby with peer := some v, pulse := some 0, lastPulse := some 1984 }
     (wPortDev p).port 0 = some p ∧ p.towLost = false ∧ p.peer.elim p.initSince (fun v => v.at_) + 160 ≤ (wPortDev p).now ∧ p.pulse.isSome = true ∧
       p.pulseLost = false ∧ p.lastPulse.getD p.initSince + 16 ≤ (wPortDev p).now) ∧
    (let b := withCrc32 (be 2 1023 ++ be 2 5 ++ be 1 0 ++ be 1 8 ++ be 1 1 ++ be 1 2 ++ zeros 20)
     let d := (wPortDev (wPort .standby)).modLink 0 (fun l => { l with state := .up })
     let r : TowRx := { link := 0, dst := 0, src := 1, hops := 0, cls := none, lseq := 0, payload := b, now := 0 }
     let a := d.towAccept r 2
     let v := readHeartbeat b a.1.now
     a.2 = true ∧ b.length = 32 ∧ crc32c (b.take 28) = beAt b 28 4 ∧
       (a.1.peerAnswered v).prot.ports.find? (fun e => e.2.pgid == beAt b 0 2 && e.2.peerDev == v.dev && e.2.peerTree == v.tree) = some (0, wPort .standby)) ∧
    (let p := wPort .standby
     (wPortDev p).port 0 = some p ∧ p.state = .standby ∧ p.towLost = false ∧ (readHeartbeat (be 2 1023 ++ be 2 5) 0).role = 0 ∧
       (readHeartbeat (be 2 1023 ++ be 2 5) 0).epoch = p.epoch) ∧
    (let d := (wPortDev (wPort .standby)).modLink 0 (fun l => { l with state := .up })
     let r : TowRx := { link := 0, dst := 0, src := 1, hops := 0, cls := none, lseq := 0, payload := [], now := 0 }
     let a := d.towAccept r 6
     a.2 = true ∧ a.1.port 0 = some (wPort .standby) ∧ (wPort .standby).peerDev = r.src) ∧
    (let d := (wPortDev (wPort .init)).modLink 0 (fun l => { l with state := .up })
     let r : TowRx := { link := 0, dst := 0, src := 1, hops := 0, cls := none, lseq := 0, payload := [], now := 0 }
     let a := d.towAccept r 6
     a.2 = true ∧ a.1.port 0 = some (wPort .init) ∧ (wPort .init).peerDev = r.src) ∧
    (let x : Drill := {
       op := .drill, ref := none, dwell := 64, a := 0, moveAt := 1937, ids := [], heard := [], maxOffset := 0, e := none, offsets := [], back := none }
     let p : Port := { wPort .holder with drill := some x }
     (wPortDev p).port 0 = some p ∧ p.drill = some x ∧ x.back = none ∧ p.state = .holder ∧ x.ref = none ∧ x.verdict 2001 = some 0) ∧
    (let x : Drill := {
       op := .drill, ref := some { ctx := 0, id := 1 }, dwell := 64, a := 0, moveAt := 1937, ids := [3], heard := [], maxOffset := 0, e := none, offsets := [], back := none }
     let p : Port := { wPort .standby with drill := some x }
     (wPortDev p).port 0 = some p ∧ p.drill = some x ∧ x.back = none ∧ p.state = .standby ∧ x.ref.isSome = true ∧ p.isLocal (wPortDev p) = false ∧
       ({ x with heard := [3] } : Drill).verdict 2001 = some 0) ∧
    (let p : Port := { wPort .holder with mean := some (2000, -18, 2) }
     let d := ((wPortDev p).modPort 0 (fun p => { p with mean := none })).modPort 0 (fun p => p.addCal (roundDiv (-18) 2))
     (wPortDev p).port 0 = some p ∧ p.mean = some (2000, -18, 2) ∧ 2000 ≤ (wPortDev p).now ∧ p.isLocal d = false ∧ 8 * 2 < (-18 : Int).natAbs) ∧
    (let p : Port := { wPort .holder with mean := some (2000, -16, 2), peerDev := 0 }
     let d := ((wPortDev p).modPort 0 (fun p => { p with mean := none })).modPort 0 (fun p => p.addCal (roundDiv (-16) 2))
     (wPortDev p).port 0 = some p ∧ p.mean = some (2000, -16, 2) ∧ 2000 ≤ (wPortDev p).now ∧ p.isLocal d = true ∧ (d.port 0).isSome = true) ∧
    (let p : Port := { wPort .holder with mean := some (2000, 0, 0) }
     (wPortDev p).port 0 = some p ∧ p.mean = some (2000, 0, 0) ∧ 2000 ≤ (wPortDev p).now) :=
    ⟨by decide, by decide, by decide, by decide, by decide, by decide, by decide, by decide, by decide, by decide +kernel, by decide, by decide, by
    decide, by decide, by decide, by decide, by decide, by decide⟩

theorem witness_TowpathUnits :
    (let d := wLinkDev .up
     let r := wUnit [1]
     r.link < 8 ∧ (d.link r.link).up = true ∧ (d.link r.link).peerIso = false ∧ d.tow.isolated = false ∧ r.dst = d.dev.devAddr) ∧
    (let d := wLinkDev .up
     let r := { wUnit [1] with dst := 1, hops := 0 }
     r.link < 8 ∧ (d.link r.link).up = true ∧ (d.link r.link).peerIso = false ∧ d.tow.isolated = false ∧ r.dst ≠ d.dev.devAddr ∧ r.hops = 0) ∧
    (((wLinkDev .up).link 0).up = true) ∧
    (let a := (wLinkDev .up).towAccept (wUnit [1]) 0
     a.2 = true ∧ (wUnit [1]).cls = none) ∧
    (let a := (wLinkDev .up).towAccept { wUnit [1] with cls := some (5, 7) } 0
     a.2 = true ∧ a.1.prot.pairs = []) ∧
    (let p : Pair := {
       devA := 0, devB := 1, flowA := 5, flowB := 6, pairHere := true, seqHere := true, backupHere := false, seqDev := 0, backupDev := 0, seq := 0, epoch := 0,
       up := none, down := none }
     let a := ({ wLinkDev .up with prot := { upDev.prot with pairs := [(5, p)] } } : Dev).towAccept { wUnit [1] with cls := some (5, 7) } 0
     a.2 = true ∧ a.1.prot.pairs.find? (fun e => e.2.seqHere && e.2.flowA == 5) = some (5, p)) ∧
    (let d := { wLinkDev .up with pool := { upDev.pool with flows := [(5, { wFlow with dir := 0 })] } }
     let a := d.towAccept { wUnit [1] with cls := some (5, 0) } 1
     a.2 = true ∧ a.1.flow 5 = some { wFlow with dir := 0 }) ∧
    (let p : Pair := {
       devA := 0, devB := 1, flowA := 5, flowB := 6, pairHere := true, seqHere := true, backupHere := false, seqDev := 0, backupDev := 0, seq := 0, epoch := 0,
       up := none, down := none }
     let a := ({ wLinkDev .up with prot := { upDev.prot with pairs := [(5, p)] } } : Dev).towAccept { wUnit (zeros 5) with cls := some (5, 7) } 1
     a.2 = true ∧ a.1.flow 5 = none ∧ a.1.prot.pairs.find? (fun e => e.2.pairHere && e.2.flowA == 5) = some (5, p) ∧ (a.1.pairCopy 5 0 0 0).1 = true) ∧
    (let d := { wLinkDev .up with trees := [(0, litTree)] }
     let a := d.towAccept (wUnit (zeros 12)) 5
     a.2 = true ∧ beAt (zeros 12) 10 2 / 64 = d.dev.devAddr ∧ a.1.treeUp (beAt (zeros 12) 10 2 % 64) = true) ∧
    (let r := wBulkTag 0
     let a := wBulkDev.towAccept r 7
     a.2 = true ∧ a.1.sec.fabricKey = some 1 ∧ a.1.sec.fabricSalt = 2 ∧ a.1.tow.bulk = [] ∧ beAt r.payload 0 6 = 7 ∧ beAt r.payload 6 2 = 0 ∧
       gcmOpen 1 (bulkIv 2 1 7 0) (r.payload.take 16) ((r.payload.drop 16).take 0) (BitVec.ofNat 128 (ofBE ((r.payload.drop 16).drop 0))) = some []) ∧
    (let r := wBulkTag 1
     let a := wBulkDev.towAccept r 7
     a.2 = true ∧ a.1.sec.fabricKey = some 1 ∧ a.1.sec.fabricSalt = 2 ∧ a.1.tow.bulk = [] ∧ beAt r.payload 0 6 = 7 ∧ beAt r.payload 6 2 = 0 ∧
       gcmOpen 1 (bulkIv 2 1 7 0) (r.payload.take 16) ((r.payload.drop 16).take 0) (BitVec.ofNat 128 (ofBE ((r.payload.drop 16).drop 0))) = none) ∧
    (let b : BulkRx := { src := 1, object := 0, consumer := 0, next := 0, last := 0, void := false, released := [] }
     let d : Dev := { wLinkDev .up with tow := { (wLinkDev .up).tow with bulk := [b] } }
     d.tow.bulk.find? (fun b => b.src == 1 && b.object == 0) = some b ∧ b.void = false ∧ b.complete = false ∧ b.last + 10 * clocksPerMs ≤ d.clk 0) ∧
    (((wLinkDev .up).towAccept (wUnit [1]) 8).2 = true) ∧
    (((wLinkDev .up).towAccept (wUnit [1]) 9).2 = true) :=
    ⟨by decide, by decide, by decide, by decide, by decide, by decide, by decide, by decide, by decide, ⟨rfl, rfl, rfl, rfl, rfl, rfl, (wBulkTag_open
    0).trans (if_pos rfl)⟩, ⟨rfl, rfl, rfl, rfl, rfl, rfl, (wBulkTag_open 1).trans (if_neg (by decide))⟩, by decide, by decide, by decide⟩

theorem witness_TowpathLinks :
    (let d : Dev := { wLinkDev .disabled with tow := { (wLinkDev .disabled).tow with enabledAt := some 0 }, profile := { upDev.profile with towpath := some (zeros 208) } }
     let d := d.rang 0 0x0A01
     d.served 0 0x0A01 = true ∧ d.towEnabled 7 = true ∧ (d.link 7).state = .disabled ∧ (((d.begun 0).modLink 7 (fun l => { l with attempt := 1 })).wakeLink 7 0).2 = true) ∧
    (let d : Dev := { wLinkDev .dormant with tow := { (wLinkDev .dormant).tow with enabledAt := some 0 }, profile := { upDev.profile with towpath := some (zeros 208) } }
     let d := d.rang 0 0x0A01
     d.served 0 0x0A01 = true ∧ d.towEnabled 0 = true ∧ (d.link 0).state = .dormant) ∧
    (let d : Dev := { wLinkDev .up with tow := { (wLinkDev .up).tow with enabledAt := some 0 }, profile := { upDev.profile with towpath := some (zeros 208) } }
     let d := d.rang 0 0x0A01
     d.served 0 0x0A01 = true ∧ d.towEnabled 0 = true ∧ (d.link 0).up = true) ∧
    (let d : Dev := { wLinkDev .backoff with tow := { (wLinkDev .backoff).tow with enabledAt := some 0 }, profile := { upDev.profile with towpath := some (zeros 208) } }
     let d := d.rang 0 0x0A01
     d.served 0 0x0A01 = true ∧ d.towEnabled 0 = true ∧ (d.link 0).state = .backoff) ∧
    (let d : Dev := { wLinkDev .up with tow := { (wLinkDev .up).tow with enabledAt := some 0 }, profile := { upDev.profile with towpath := some (zeros 208) } }
     let d := d.rang 0 0x0A01
     d.served 0 0x0A01 = true ∧ d.towEnabled 0 = true ∧ (d.link 0).state ≠ .disabled) ∧
    (let d : Dev := { wLinkDev .up with tow := { (wLinkDev .up).tow with enabledAt := some 0 }, profile := { upDev.profile with towpath := some (zeros 208) } }
     let d := d.rang 0 0x0A01
     d.served 0 0x0A01 = true ∧ d.towEnabled 0 = true ∧ (d.link 0).state ≠ .disabled) ∧
    (let d : Dev := { upDev with tow := { upDev.tow with isolated := true }, clock := { upDev.clock with everAttached := true } }
     let d := d.rang 0 0x0A01
     d.served 0 0x0A01 = true ∧ 10000 ≤ 10000 ∧ d.clock.everAttached = true ∧ tget d.tow.lsas d.dev.devAddr = none) ∧
    (let u := upDev.rang 0 0x0A02
     u.served 0 0x0A02 = true) ∧
    (let u := upDev.rang 0 0x0A02
     u.served 0 0x0A02 = true) ∧
    (let u := upDev.rang 0 0x0A02
     u.served 0 0x0A02 = true) ∧
    (let d := wLinkDev .training
     let u := withCrc16 (0xA5 :: zeros 13)
     (d.link 0).state = .training ∧ (bytesBits u).length = 128 ∧ packBits (bytesBits u) = u ∧ beAt u 0 1 = 0xA5 ∧ beAt u 14 2 = crc16 (u.take 14) ∧
       (d.link 0).ackLanes = []) ∧
    (let d := (wLinkDev .training).modLink 0 (fun l => { l with ack := true, seenLanes := [0, 1], ackLanes := [1] })
     let u := withCrc16 ([0xA5, 0, 0, 1, 1] ++ zeros 9)
     (d.link 0).state = .training ∧ (bytesBits u).length = 128 ∧ packBits (bytesBits u) = u ∧ beAt u 0 1 = 0xA5 ∧ beAt u 14 2 = crc16 (u.take 14) ∧
       (d.link 0).ack = true ∧ beAt u 4 1 = 1 ∧ (d.link 0).seenLanes = [0, 1] ∧ (d.link 0).ackLanes = [1]) ∧
    (let d := (wLinkDev .training).modLink 0 (fun l => { l with attempt := 8 })
     (d.link 0).state = .training ∧ (d.link 0).since + 100 * clocksPerMs ≤ d.clk 0 ∧ 9 = (d.link 0).attempt + 1) ∧
    (let d := (wLinkDev .backoff).modLink 0 (fun l => { l with attempt := 2 })
     (d.link 0).state = .backoff ∧ (d.link 0).since + 2 ^ ((d.link 0).attempt - 2) * 1000 * clocksPerMs ≤ d.clk 0) ∧
    (((wLinkDev .dormant).link 0).state = .dormant) ∧
    (let d := { wLinkDev .dormant with sluice := { upDev.sluice with budget := 100000 } }
     (d.link 0).wakeReq = false ∧ d.sluice.fifo.length < 1024 ∧ d.sluice.base + d.sluice.reserve + HeavyOp.cost (.wakeTowpath 0) ≤ d.sluice.budget) ∧
    (let d := wLinkDev .up
     (d.link 0).up = true ∧ (d.link 0).lastHello + 4 * clocksPerMs ≤ d.clk 0) ∧
    (((wLinkDev .up).link 0).up = true) ∧
    (let a := (wLinkDev .up).towAccept (wUnit (zeros 48)) 3
     a.2 = true ∧ beAt (zeros 48) 36 6 = 0 ∧ beAt (zeros 48) 42 4 = 0) ∧
    (let d : Dev := { upDev with clock := { upDev.clock with cycle := 8000, base := 1250000000 } }
     d.tow.isolated = false ∧ d.host.idle = false ∧ d.coreHalted 0 = false ∧ d.tow.lsaSent + 1000 * clocksPerMs ≤ d.clk 0) ∧
    (let x : Lsa := { flags := 0, seq := 0, unitId := 0, ageMs := 0, entries := [], at_ := 0 }
     let d := { wLinkDev .up with tow := { (wLinkDev .up).tow with lsas := [(1, x)] } }
     let p := [1, 0, 0, 1] ++ zeros 28
     let a := d.towAccept (wUnit p) 4
     a.2 = true ∧ beAt p 0 1 ≠ a.1.dev.devAddr ∧ a.1.tow.isolated = false ∧ tget a.1.tow.lsas (beAt p 0 1) = some x ∧ newer (beAt p 2 2) x.seq = true ∧
       x.unitId = beAt p 4 8) ∧
    (let x : Lsa := { flags := 0, seq := 0, unitId := 0, ageMs := 0, entries := [], at_ := 0 }
     let d := { wLinkDev .up with tow := { (wLinkDev .up).tow with lsas := [(1, x)] } }
     let p := [1, 0, 0, 0] ++ zeros 28
     let a := d.towAccept (wUnit p) 4
     a.2 = true ∧ beAt p 0 1 ≠ a.1.dev.devAddr ∧ a.1.tow.isolated = false ∧ tget a.1.tow.lsas (beAt p 0 1) = some x ∧ newer (beAt p 2 2) x.seq = false) ∧
    (let x : Lsa := { flags := 0, seq := 0, unitId := 0, ageMs := 0, entries := [], at_ := 0 }
     let d : Dev := { wLinkDev .up with tow := { (wLinkDev .up).tow with lsas := [(1, x)] } }
     d.tow.lsas.filter (fun e => decide (e.2.at_ + 3500 * clocksPerMs ≤ d.clk 0)) = [(1, x)]) ∧
    (0 < 8 ∧ ((wLinkDev .up).link 0).up = true) ∧
    (let u : TowUnit := { dst := 1, src := 0, typ := 3, hops := 8, cls := none, payload := [1] }
     let d := (wLinkDev .up).modLink 0 (fun l => { l with txq := [u], limits := [1, 1, 1, 1, 1] })
     (d.link 0).up = true ∧ (d.link 0).pick d.now = some u ∧ 1 = linkClass u.typ) :=
    ⟨by decide, by decide, by decide, by decide, by decide, by decide, by decide, by decide, by decide, by decide, by decide +kernel, by
    decide +kernel, by decide, by decide, by decide, by decide, by decide, by decide, by decide, by decide, by decide, by decide, by decide, by
    decide, by decide⟩

theorem witness_RecorderCommands :
    (let r : RecGlobalReq := { run := true, tevMask := 15, ring := 2048, preMs := 10000, postMs := 60000, maxMs := 600000 }
     let u := upDev.rang 0 0x0B01
     u.served 0 0x0B01 = true ∧ u.recd.set.run = false ∧ r.ring % 64 = 0 ∧ r.postMs ≤ r.maxMs) ∧
    (let r : RecGlobalReq := { run := true, tevMask := 255, ring := 64, preMs := 10000, postMs := 60000, maxMs := 600000 }
     recGlobalBad upDev r = none) ∧
    (let r : RecStreamReq := {
       stream := 255, enable := true, goose := false, bounded := true, trig := false, k := 8, appid := 65535, source := 0x4000, nch := 32, smpWrap := 65535 }
     let u := upDev.rang 0 0x0B01
     u.served 0 0x0B01 = true ∧ u.sourceOk r.source = true ∧ r.nch ≤ 32 ∧ r.k ≤ 8) ∧
    (let u := upDev.rang 0 0x0B01
     u.served 0 0x0B01 = true ∧ (u.stream 255).elim false (fun x => x.set.goose) = false) ∧
    (let r : RecStoreReq := { nsids := [1, 2, 3, 2 ^ 32 - 1], slots := 0, format := false, absent := false }
     let u := upDev.rang 0 0x0B01
     u.served 0 0x0B01 = true ∧ u.recd.set.run = false ∧ r.nsids ≠ [] ∧ r.nsids.length ≤ 4 ∧ (∀ n ∈ r.nsids, n ≠ 0 ∧ n < 2 ^ 32) ∧ r.absent = false) ∧
    (recStoreBad upDev { nsids := [1], slots := 0, format := true, absent := false, lba := [4096], metadata := false } = none) ∧
    (let d := wRecDev (fun r => { r with set := { r.set with run := true } })
     let d := d.rang 0 0x0B02
     d.served 0 0x0B02 = true ∧ d.recd.set.run = true ∧ d.recd.full = false) ∧
    (let d := wRecDev (fun r => { r with set := { r.set with run := true } })
     d.recd.set.run = true ∧ d.recd.full = false) ∧
    (let u := upDev.rang 0 0x0B03
     u.served 0 0x0B03 = true ∧ 32 ≤ 32) ∧
    (let d := wRecDev (fun r => { r with dir := [wEnt] })
     let d := d.rang 0 0x0B03
     d.served 0 0x0B03 = true ∧ d.recd.dir.any (fun e => e.id == 1) = true) ∧
    (let d := wRecDev (fun r => { r with dir := [wEnt] })
     let d := d.rang 0 0x0B03
     d.served 0 0x0B03 = true ∧ d.recd.dir.any (fun e => e.id == 1) = true) ∧
    (let d := wRecDev (fun r => { r with dir := [wEnt] })
     let d := d.rang 0 0x0B03
     d.served 0 0x0B03 = true ∧ d.recd.captures.any (fun c => c.ent.id == 1) = false ∧ d.recd.dir.any (fun e => e.id == 1) = true) ∧
    (let d := wRecDev (fun r => { r with dir := [wEnt], storeSlots := 128, store := [(64, [1, 2])] })
     let d := d.rang 0 0x0B03
     d.served 0 0x0B03 = true ∧ d.recd.dir.find? (fun e => e.id == 1) = some wEnt ∧ 0 < wEnt.piles ∧ (wEnt.slots d.recd.area)[0]? = some 64 ∧ tget d.recd.store 64 = some [1, 2]) :=
    ⟨by decide, by decide, by decide, by decide, by decide, by decide, by decide, by decide, by decide, by decide, by decide, by decide, by decide⟩

theorem witness_RecorderEvents :
    (let a : Asdu := { st := { cycle := 0, pos := 0, tod := 0, valid := false, inc := 0 }, smpCnt := 0, confRev := 0, smpSynch := 0, data := [] }
     let q : RecStreamReq := { stream := 3, enable := true, goose := false, bounded := false, trig := false, k := 1, appid := 0, source := 0xFFFF, nch := 1, smpWrap := 0 }
     let x : Stream := { Stream.fresh q with block := [a] }
     let d := wRecDev (fun r => { r with streams := [(3, x)] })
     d.stream 3 = some x ∧ x.block = [a] ∧ a.st.clk + 16 * Config.clocksPerTick ≤ d.clk 0) ∧
    (let p : OpenPile := {
       opened := 0, gap := false, first := { cycle := 0, pos := 0, tod := 0, valid := false, inc := 0 }, lastCycle := 0, clocks := [], records := [] }
     let d := wRecDev (fun r => { r with pile := some p })
     d.recd.pile = some p ∧ p.opened + 128 * Config.clocksPerTick ≤ d.clk 0) ∧
    (let d := wRecDev (fun r => { r with captures := [wCapture .waiting] })
     d.recd.captures.find? (fun c => c.ent.id == 1 && !c.ended) = some (wCapture .waiting) ∧ (wCapture .waiting).e ≤ d.clk 0) ∧
    (let w : NvmeWrite := { pin := 1, slot := 64, retried := false }
     let c : Capture := { wCapture .piles with writing := [w] }
     let d := wRecDev (fun r => { r with captures := [c] })
     d.recd.active = some c ∧ c.phase = .piles ∧ c.writing[0]? = some w) ∧
    (let d := wRecDev (fun r => { r with captures := [wCapture .flush1] })
     d.recd.active = some (wCapture .flush1) ∧ (wCapture .flush1).phase = .flush1) ∧
    (let d := wRecDev (fun r => { r with captures := [wCapture .entry] })
     d.recd.active = some (wCapture .entry) ∧ (wCapture .entry).phase = .entry) ∧
    (let d := wRecDev (fun r => { r with captures := [wCapture .flush2] })
     d.recd.active = some (wCapture .flush2) ∧ (wCapture .flush2).phase = .flush2) ∧
    (let d := wRecDev (fun r => { r with captures := [wCapture .flush2], dir := wEnt :: List.replicate 65535 wEnt })
     d.recd.active = some (wCapture .flush2) ∧ (wCapture .flush2).phase = .flush2 ∧ dirEntries ≤ d.recd.dir.length ∧ d.recd.dir.find? (fun e => !e.keep) = some wEnt) ∧
    (let d := wRecDev (fun r => { r with nvme := [.read { ctx := 0, id := 0 } 65536 [1]] })
     d.host.d3 = false ∧ 0 < Config.nvmeSlots - d.recd.active.elim 0 (fun c => c.writing.length) ∧ d.recd.nvme[0]? = some (.read { ctx := 0, id := 0 } 65536 [1])) ∧
    (let d := wRecDev (fun r => { r with nvme := [.deallocate [64]] })
     0 < Config.nvmeSlots - d.recd.active.elim 0 (fun c => c.writing.length) ∧ d.recd.nvme[0]? = some (.deallocate [64])) ∧
    (2 ≤ ({ cmd := 0, ok := false, opcode := 6, status := 1, kind := 2 } : NvmeDone).kind) ∧
    (let w : NvmeWrite := { pin := 1, slot := 64, retried := false }
     let c : Capture := { wCapture .piles with writing := [w] }
     let d := wRecDev (fun r => { r with captures := [c] })
     d.recd.active = some c ∧ c.phase = .piles ∧ c.writing[0]? = some w ∧ w.retried = false) ∧
    (let c : Capture := { wCapture .entry with retried := true }
     let d := wRecDev (fun r => { r with captures := [c] })
     d.recd.active = some c ∧ c.phase ≠ .piles ∧ c.retried = true) ∧
    (upDev.recd.link ≠ true) :=
    ⟨by decide, by decide, by decide, by decide, by decide, by decide, by decide, ⟨rfl, rfl, wFullDir, rfl⟩, by decide, by decide, by decide, by
    decide, by decide, by decide⟩

theorem witness_CounterCommands :
    (let r : DumpReq := { enable := true, slots := 256, period := 8, base := 65536, slotSize := 65536, select := [(21, 0, groupSize 21)] }
     let u := upDev.rang 0 0x0D01
     u.served 0 0x0D01 = true ∧ dumpReqValid r = true) ∧
    (let r : ProgramReq := { mode := 2, counter := 4095, kind := 2, group := 9, stat := 0, first := 0, last := 0 }
     let u := upDev.rang 0 0x0D02
     u.served 0 0x0D02 = true ∧ programReqValid r = true) ∧
    (let r : ClearGroupReq := { group := 21, first := groupSize 21 - 1, count := 1 }
     let u := upDev.rang 0 0x0D02
     u.served 0 0x0D02 = true ∧ r.group ≤ 21 ∧ r.first + r.count ≤ groupSize r.group) ∧
    (let u := upDev.rang 0 0x0D02
     u.served 0 0x0D02 = true ∧ 255 ≤ 255) ∧
    (let u := upDev.rang 0 0x0D02
     u.served 0 0x0D02 = true ∧ 1048512 % 64 = 0 ∧ 1048512 + 64 ≤ 1048576 ∧ u.ctr.futureBlocks.any (fun b => b.1 != 255 && b.2 == 1048512) = false) ∧
    (let u := upDev.rang 0 0x0D02
     u.served 0 0x0D02 = true ∧ groupSize 21 - 1 < groupSize 21) ∧
    (let u := upDev.rang 0 0x0D02
     u.served 0 0x0D02 = true ∧ 21 ≤ 21) ∧
    (let d := treeDev litTree
     let d := d.rang 0 0x0D04
     d.served 0 0x0D04 = true ∧ (d.pmEntity false 0 0).isSome = true ∧ 8 ≤ 8) ∧
    (let d := treeDev { litTree with terms := [term7] }
     let d := d.rang 0 0x0D04
     d.served 0 0x0D04 = true ∧ (d.pmEntity true 0 7).isSome = true) :=
    ⟨by decide, by decide, by decide, by decide, by decide, by decide, by decide, by decide, by decide⟩

theorem witness_ImageSessions :
    (let u := upDev.rang 0 0x0C01
     u.served 0 0x0C01 = true ∧ u.upd.trial = none ∧ u.upd.session = none ∧ u.sec.lifecycle ≠ .decommissioned) ∧
    (let x : Session := { wSession .receiving with idle := idleLimit + 1 }
     let d := wUpdDev (fun u => { u with session := some x })
     let d := d.rang 0 0x0C01
     d.served 0 0x0C01 = true ∧ d.upd.trial = none ∧ d.upd.session = some x ∧ x.digest ≠ 1 ∧ idleLimit < x.idle ∧ d.sec.lifecycle ≠ .decommissioned) ∧
    (let x := wSession .receiving
     let d := wUpdDev (fun u => { u with session := some x })
     let d := d.rang 0 0x0C01
     d.served 0 0x0C01 = true ∧ d.upd.trial = none ∧ d.upd.session = some x ∧ x.digest = 0 ∧ 2 = x.blocks ∧ d.sec.lifecycle ≠ .decommissioned) ∧
    (let u := upDev.rang 0 0x0C01
     u.served 0 0x0C01 = true ∧ u.sec.lifecycle ≠ .decommissioned) ∧
    (let d := wUpdDev (fun u => { u with session := some (wSession .receiving) })
     let d := d.rang 0 0x0C02
     d.served 0 0x0C02 = true ∧ d.host.d3 = false ∧ (wSession .receiving).parties.contains 0 = true ∧ 1 < (wSession .receiving).blocks ∧ (wSession .receiving).received.contains 1 = false) ∧
    (let x : Session := { wSession .receiving with received := [1] }
     let d := wUpdDev (fun u => { u with session := some x })
     let d := d.rang 0 0x0C02
     d.served 0 0x0C02 = true ∧ d.host.d3 = false ∧ d.upd.session = some x ∧ x.parties.contains 0 = true ∧ 1 < x.blocks ∧ x.received.contains 1 = true) ∧
    (let x : Session := wSession .receiving
     let d := wUpdDev (fun u => { u with session := some x })
     let d := d.rang 0 0x0C02
     d.served 0 0x0C02 = true ∧ d.host.d3 = false ∧ d.upd.session = some x ∧ x.parties.contains 0 = true ∧ 1 < x.blocks ∧ x.received.contains 1 = false ∧ 2 ≤ 2) ∧
    (let d := wUpdDev (fun u => { u with session := some (wSession .verifying) })
     d.upd.session = some (wSession .verifying) ∧ (wSession .verifying).state = .verifying) ∧
    (let u := upDev.rang 0 0x0C03
     u.served 0 0x0C03 = true) ∧
    (let d := wUpdDev (fun u => { u with session := some (wSession .ready) })
     let d := d.rang 0 0x0C04
     d.served 0 0x0C04 = true ∧ d.upd.trial = none ∧ d.upd.session = some (wSession .ready) ∧ (wSession .ready).state = .ready ∧ (d.begun 0).activateBusy (d.refOf 0) = false) ∧
    (let p : Pause := { why := .activate { ctx := 0, id := 0 }, p := 9, begun := true }
     (wUpdDev (fun u => { u with pause := some p })).upd.pause = some p ∧ p.begun = true) ∧
    (let p : Pause := { why := .activate { ctx := 0, id := 0 }, p := 9, begun := true }
     (wUpdDev (fun u => { u with pause := some p })).upd.pause = some p ∧ p.begun = true) ∧
    (let d := wUpdDev (fun u => { u with trial := some 6000000, session := some (wSession .receiving) })
     let d := d.rang 0 0x0C05
     d.served 0 0x0C05 = true ∧ d.upd.trial = some 6000000 ∧ d.now ≤ 6000000 + trialTicks ∧ d.upd.session.isSome = true) ∧
    (let d := wUpdDev (fun u => { u with session := some (wSession .ready) })
     let d := d.rang 0 0x0C06
     d.served 0 0x0C06 = true ∧ d.upd.session = some (wSession .ready)) ∧
    (let d := wUpdDev (fun u => { u with trial := some 5 })
     let d := d.rang 0 0x0C06
     d.served 0 0x0C06 = true ∧ d.upd.trial = some 5) ∧
    (let d := wUpdDev (fun u => { u with trial := some 5000000 })
     d.upd.trial = some 5000000 ∧ 5000000 + trialTicks ≤ d.now) ∧
    (let p : Pause := { why := .rollback none, p := 9, begun := true }
     (wUpdDev (fun u => { u with pause := some p })).upd.pause = some p ∧ p.begun = true) ∧
    (let p : Pause := { why := .handBack { ctx := 0, id := 0 }, p := 9, begun := true }
     (wUpdDev (fun u => { u with pause := some p })).upd.pause = some p ∧ p.begun = true) ∧
    (let d := wUpdDev (fun u => { u with session := some (wSession .receiving) })
     d.upd.session = some (wSession .receiving) ∧ Config.ticksPerSecond ≤ (wSession .receiving).idle) ∧
    (let e := Pkt.make (zeros 12 ++ [0x88, 0xB5, 0x4C, 0x01, 0x0C, 0x03]) 0 0 0 0 0 0
     let d := { wUpdDev (fun u => { u with agents := [(1, (0, 9))] }) with cls := { upDev.cls with redirects := [(3, e), (0xFF, e)] } }
     d.host.ready = true ∧ d.host.fatal = false ∧ d.upd.pause = none ∧ takeFirst (fun e => e.1 == 0xFF) d.cls.redirects = some ((0xFF, e), [(3, e)]) ∧
       afterTags e.data (e.data.length / 4 + 1) 12 = (0x88B5, 12) ∧ beAt e.data (12 + 2) 2 = 0x4C01 ∧
       d.upd.agents.find? (fun a => a.2.1 == beAt e.data 6 6) = some (1, (0, 9)) ∧ beAt e.data (12 + 4) 2 ∈ [0x0C01, 0x0C02, 0x0C03, 0x0C06]) ∧
    (let e := Pkt.make (zeros 12 ++ [0x88, 0xB5, 0x4C, 0x01, 0x0C, 0x03]) 0 0 0 0 0 0
     let d := { wUpdDev (fun u => { u with agents := [(1, (1, 9))] }) with cls := { upDev.cls with redirects := [(0xFF, e)] } }
     d.host.ready = true ∧ d.host.fatal = false ∧ d.upd.pause = none ∧ takeFirst (fun e => e.1 == 0xFF) d.cls.redirects = some ((0xFF, e), []) ∧
       afterTags e.data (e.data.length / 4 + 1) 12 = (0x88B5, 12) ∧ beAt e.data (12 + 2) 2 = 0x4C01 ∧
       d.upd.agents.find? (fun a => a.2.1 == beAt e.data 6 6) = none) ∧
    (4104 ≤ (zeros 4104).length) ∧
    (64 ≤ (zeros 64).length ∧ leAt (zeros 64) 0 1 = 0) ∧
    (1 ≤ (zeros 1).length ∧ leAt (zeros 1) 0 1 = 0) ∧
    (let x : Session := { wSession .ready with owner := 1 }
     let d := wUpdDev (fun u => { u with trial := some 5, session := some x })
     leAt [1] 0 1 = 1 ∧ d.upd.trial.isSome = true ∧ d.upd.session = some x ∧ x.owner = 0 + 1) :=
    ⟨by decide, by decide +kernel, by decide +kernel, by decide, by decide, by decide, by decide, by decide +kernel, by decide, by decide +kernel, by
    decide, by decide, by decide +kernel, by decide +kernel, by decide, by decide +kernel, by decide, by decide, by decide +kernel, by decide, by
    decide, by decide +kernel, by decide, by decide, by decide +kernel⟩

theorem witness_TerminalImages :
    (let r : PushReq := { tree := 0, perFrame := 8, rounds := 16, len := 65535000, mask := 128, digest := 0, reportFlows := zeros 7 |>.map (fun _ => 0) |>.append [5], image := [] }
     let d := wPushDev { wPush [] with state := 0 }
     let d := d.rang 0 0x0C07
     d.served 0 0x0C07 = true ∧ (d.push 0).running = false ∧ d.treeUp 0 = true ∧ pushIds r = [7] ∧ d.pushTargetOk 0 7 (lget r.reportFlows 7 0) = true) ∧
    (let u := upDev.rang 0 0x0C07
     u.served 0 0x0C07 = true ∧ u.treePresent 0 = true) ∧
    (let d := wPushDev (wPush [(7, (1, [0])), (8, (2, []))])
     let d := d.rang 0 0x0C07
     d.served 0 0x0C07 = true ∧ d.treePresent 0 = true ∧ (d.push 0).running = true) ∧
    (let d := wPushDev { wPush [(7, (1, [0]))] with state := 2 }
     let d := d.rang 0 0x0C07
     d.served 0 0x0C07 = true ∧ d.treePresent 0 = true ∧ (d.push 0).running = false) ∧
    (let d := wPushDev (wPush [(7, (2, [])), (8, (2, []))])
     let d := d.rang 0 0x0C07
     d.served 0 0x0C07 = true ∧ d.treePresent 0 = true ∧ (d.push 0).targets = [(7, (2, [])), (8, (2, []))]) ∧
    (let u : PlainUnit := { tree := 0, tid := 7, flow := 5, twinTag := none, frame := [0, 3, 1, 4, 64] }
     let p : Push := { wPush [(7, (1, [0]))] with deadline := some 9 }
     let d := { wPushDev p with sec := { upDev.sec with released := [u] } }
     takeFirst (fun u => d.isReport u) d.sec.released = some (u, []) ∧ d.push u.tree = p ∧ p.running = true ∧ beAt u.frame 0 2 = p.id ∧ beAt u.frame 2 1 = p.round ∧
       p.deadline.isSome = true ∧ beAt u.frame 3 1 ≤ 4 ∧ beAt u.frame 4 1 ≤ 64) ∧
    (let p : Push := { wPush [(7, (1, [2]))] with deadline := some 1000 }
     let d := wPushDev p
     d.push 0 = p ∧ p.running = true ∧ 1000 ≤ d.now ∧ p.round ≤ p.rounds) :=
    ⟨by decide +kernel, by decide, by decide +kernel, by decide +kernel, by decide +kernel, by decide +kernel, by decide +kernel⟩

theorem witness_DebugPort :
    (({ upDev with sec := { upDev.sec with lifecycle := .secured } } : Dev).sec.lifecycle = .secured) ∧
    (let d : Dev := { wDbgDev with dev := { upDev.dev with power := .quiet } }
     d.debugOn = true ∧ d.dev.power = .quiet) ∧
    (let d : Dev := { wDbgDev with sec := { wDbgDev.sec with debug := .closed } }
     d.debugOn = false ∧ upDev.dev.power ≠ .quiet) ∧
    (wDbgDev.debugOn = true) ∧
    (wDbgDev.debugOn = true ∧ wDbgDev.coreHalted 3 = false) ∧
    (let d := wDbgDev.modCore 3 (fun c => { c with halted := true })
     d.debugOn = true ∧ (d.core 3).halted = true) ∧
    (let d := wDbgDev.modCore 3 (fun c => { c with halted := true })
     d.debugOn = true ∧ (d.core 3).halted = true) ∧
    (wDbgDev.debugOn = true) ∧
    (wDbgDev.debugOn = true ∧ 8 ≤ 11) ∧
    (wDbgDev.debugOn = true ∧ Config.mgmtBytes - 1 < Config.mgmtBytes) ∧
    (let d : Dev := { wDbgDev with dbg := { wDbgDev.dbg with mgmtMem := [(9, 7)] } }
     d.debugOn = true ∧ 9 < Config.mgmtBytes ∧ memRead d.dbg.mgmtMem 9 = some 7) ∧
    (wDbgDev.debugOn = true ∧ 0 < Config.mgmtBytes ∧ memRead wDbgDev.dbg.mgmtMem 0 = none) ∧
    (wDbgDev.debugOn = true) ∧
    (wDbgDev.debugOn = true ∧ 3 ≤ 3 ∧ Config.mgmtBytes ≤ Config.mgmtBytes) :=
    ⟨by decide, by decide, by decide, by decide, by decide, by decide, by decide, by decide, by decide, by decide, by decide, by decide, by decide, by
    decide⟩

theorem witness_TieRule :
    (tieOrder 0 (fun f => f) [5, 9]).head? = some 5 ∧ ([5, 9] : List Nat) ≠ [] :=
    by decide

theorem witness_LowestStart :
    lowestFit [] 100 = some 0 ∧ (lowestFit [(0, Config.bitsPerTick)] 100).isNone = true :=
    by decide

theorem witness_IdChoice :
    litTree.chooseId (Term.listed_ 7 none false 0) = some 0 ∧ (Term.listed_ 7 none false 0).staticId = none ∧ (Term.listed_ 7 (some 5) false 0).staticId = some 5 :=
    by decide

theorem witness_HeartbeatRoundTrip :
    let v := readHeartbeat (zeros 28) 0; (1 : Nat) < 65536 ∧ v.epoch < 65536 ∧ v.role < 256 ∧ v.dev < 256 ∧ v.tree < 256 ∧ v.cycle < 2 ^ 48 ∧ -2147483648 ≤ v.cal ∧ v.cal ≤ 2147483647 :=
    by decide

theorem witness_ReprogramCounter :
    (tget [(3, wProg)] 3 = some wProg) ∧
    (let c : CounterUnit := { upDev.ctr with permit := 2 ^ 21, windows := [(0, (21, 2))], snapProgs := [(3, wProg)] }; tget c.windows 0 = some (21, 2) ∧ bitOf c.permit 21 = true ∧ 1 < winCount 21 2 ∧ tget c.snapProgs (2 + 1) = some wProg) :=
    ⟨by decide, by decide⟩

theorem witness_SoftwareTrigger :
    (upDev.rang 0 0x0B02).served 0 0x0B02 = true ∧ (upDev.rang 0 0x0B02).recd.set.run = false ∧ (let d : Dev := (wRecDev (fun r => { r with set := { r.set with run := true } })).rang 0 0x0B02; d.served 0 0x0B02 = true ∧ d.recd.set.run = true ∧ d.recd.full = false) :=
    by decide

theorem witness_FoldBound :
    (1 : Nat) ≤ 3 ∧ (3 : Nat) ≤ 8 ∧ rice 0 (zigzag (quantise 7 ChanRun.start.predict 1000).1) = none ∧ 2147483647 < (quantise 1 ({ ChanRun.start with n := 1, y1 := 2 } : ChanRun).predict 2147483647).2 :=
    by decide

theorem witness_FdbLookup :
    (tsorted wFdbEnts = true ∧ wFdbEnts ≠ []) ∧
    (tsorted wFdbEnts = true ∧ wFdbEnts ≠ []) :=
    ⟨by decide, by decide⟩

theorem witness_CamRanking :
    (tsorted [(1, wCamEnt), (65540, wCamEnt)] = true ∧ wCamEnt.rows = [] ∧ 65540 / 65536 = 1) ∧
    ((camVerify [] [(1, { wCamEnt with copy := [1] }), (4, wCamEnt)]).1 = some wCamEnt) :=
    ⟨by decide, by decide⟩

theorem witness_EventRouting :
    (tgetD upDev.ev.routes 7 0 = 0 ∧ (0 : Nat) ≠ 255 ∧ (let d : Dev := { upDev with ev := { upDev.ev with routes := [(7, 255)] } }; tgetD d.ev.routes 7 0 = 255) ∧ (upDev.ring 3).enable = false ∧ (let d : Dev := { upDev with ev := { upDev.ev with routes := [(7, 3)] } }; tgetD d.ev.routes 7 0 = 3)) ∧
    (let d : Dev := ({ upDev with ev := { upDev.ev with staging := [{ src := 7, cause := 0, flag := false, index := 0, cycle := 0, data := [], ring := 3, boundary := false }] } } : Dev).modRing 3 (fun r => { r with enable := true }); d.host.idle = false ∧ d.host.d3 = false ∧ d.ev.staging.length = 1 ∧ (d.ring 3).enable = true ∧ ((d.ring 3).head + 1) % (d.ring 3).entries ≠ (d.ring 3).tail % (d.ring 3).entries ∧ (d.ring 3).lastMsg = none) :=
    ⟨by decide, by decide⟩

theorem witness_SluiceBudgetSet :
    (upDev.rang 0 0x0105).served 0 0x0105 = true ∧ (80 : Nat) ≤ 200 ∧ (200 : Nat) ≤ 480 ∧ ¬ (80 : Nat) ≤ 79 ∧ ([0, 1, 1, 2, 2, 2, 3] : List Nat).all (fun p => decide (p ≤ 3)) = true ∧ (let d : Dev := { upDev with sluice := { upDev.sluice with pend := [({ ctx := 0, id := 0 }, 200, 20, [0, 1, 1, 2, 2, 2, 3])] } }; d.sluice.pend.length = 1) :=
    by decide

/-- A tag as the last 16 bytes of a segment reads back as itself, whatever the authentication function is. -/
theorem tag_bytes (t : BitVec 128) : BitVec.ofNat 128 (ofBE (be 16 t.toNat)) = t := by
  rw [ofBE_be, Nat.mod_eq_of_lt (by have := t.isLt; omega), BitVec.ofNat_toNat, BitVec.setWidth_eq]
theorem witness_bulkSegmentRx :
    ∃ (key iv : Nat) (p : Bytes), p.length = 32 ∧ (({ wLinkDev .up with sec := { upDev.sec with fabricKey := some 1 } } : Dev).towAccept (wUnit p) 7).2 = true ∧
      (gcmOpen key iv (p.take 16) ((p.drop 16).take ((p.drop 16).length - 16)) (BitVec.ofNat 128 (ofBE ((p.drop 16).drop ((p.drop 16).length - 16))))).isSome = true := by
  refine ⟨1, 0, zeros 16 ++ be 16 (Config.gcmTag 1 0 (zeros 16) []).toNat, by simp [zeros], by decide, ?_⟩
  have h : (zeros 16 ++ be 16 (Config.gcmTag 1 0 (zeros 16) []).toNat).drop 16 = be 16 (Config.gcmTag 1 0 (zeros 16) []).toNat :=
    List.drop_left' (by simp [zeros])
  have t : (zeros 16 ++ be 16 (Config.gcmTag 1 0 (zeros 16) []).toNat).take 16 = zeros 16 :=
    List.take_left' (by simp [zeros])
  rw [h, t]
  simp only [be_length, Nat.sub_self, List.take_zero, List.drop_zero, tag_bytes]
  simp [gcmOpen]
theorem witness_bulkSegmentRx_fails :
    ∃ (key iv : Nat) (p : Bytes), p.length = 32 ∧ (({ wLinkDev .up with sec := { upDev.sec with fabricKey := some 1 } } : Dev).towAccept (wUnit p) 7).2 = true ∧
      gcmOpen key iv (p.take 16) ((p.drop 16).take ((p.drop 16).length - 16)) (BitVec.ofNat 128 (ofBE ((p.drop 16).drop ((p.drop 16).length - 16)))) = none := by
  refine ⟨1, 0, zeros 16 ++ be 16 (Config.gcmTag 1 0 (zeros 16) [] + 1).toNat, by simp [zeros], by decide, ?_⟩
  have h : (zeros 16 ++ be 16 (Config.gcmTag 1 0 (zeros 16) [] + 1).toNat).drop 16 = be 16 (Config.gcmTag 1 0 (zeros 16) [] + 1).toNat :=
    List.drop_left' (by simp [zeros])
  have t : (zeros 16 ++ be 16 (Config.gcmTag 1 0 (zeros 16) [] + 1).toNat).take 16 = zeros 16 :=
    List.take_left' (by simp [zeros])
  rw [h, t]
  simp only [be_length, Nat.sub_self, List.take_zero, List.drop_zero, tag_bytes]
  simp [gcmOpen]
/-- A block of 4,092 bytes with its CRC-32C is one that fits (R457). -/
theorem witness_blockFits (p : Bytes) (h : p.length = 4092) : blockFits (p ++ le 4 (crc32c p)) = true := by
  simp only [blockFits, List.length_append, le_length, h, List.take_left' h, List.drop_left' h, ofLE_le, Nat.mod_eq_of_lt (show crc32c p < 256 ^ 4 from crc32c_lt p)]
  simp
end

section
/-!
PROOFS. The tie rule of R9: the contenders of a tick stand in the order of the index, rising in an even tick and falling in an odd one.
-/
namespace Sys2Proof.Machine

/-- `i` goes before `j`, or beside it, in tick `c`: the order of the indexes that R9 names by bit 0 of the cycle number. -/
def ServedBy (c i j : Nat) : Prop := if c % 2 = 0 then i ≤ j else j ≤ i

theorem servedBy_refl (c i : Nat) : ServedBy c i i := by
  unfold ServedBy; split <;> exact Nat.le_refl i

/-- The contenders are served in the order of R9: the sorted list in an even tick, its reverse in an odd one. -/
theorem tieOrder_pairwise {α : Type} (c : Nat) (key : α → Nat) (l : List α) :
    (tieOrder c key l).Pairwise (fun a b => ServedBy c (key a) (key b)) := by
  have sorted := sortBy_sorted key l
  by_cases even : c % 2 = 0
  · simpa only [tieOrder, ServedBy, even, if_true] using sorted
  · simpa only [tieOrder, ServedBy, even, if_false, List.pairwise_reverse] using sorted

/-- The party served first is one of those that ask, and none of them goes before it. -/
theorem tieOrder_head {α : Type} {c : Nat} {key : α → Nat} {l : List α} {w : α} (first : (tieOrder c key l).head? = some w) :
    w ∈ l ∧ ∀ p ∈ l, ServedBy c (key w) (key p) := by
  have perm := tieOrder_perm c key l
  have order := tieOrder_pairwise c key l
  obtain ⟨rest, e⟩ := List.head?_eq_some_iff.1 first
  rw [e] at perm order
  refine ⟨perm.subset List.mem_cons_self, fun p hp => ?_⟩
  rcases List.mem_cons.1 (perm.symm.subset hp) with rfl | later
  · exact servedBy_refl c _
  · exact List.rel_of_pairwise_cons order later

/-- Where anyone asks, someone is served. -/
theorem tieOrder_ne_nil {α : Type} (c : Nat) (key : α → Nat) {l : List α} (asked : l ≠ []) : tieOrder c key l ≠ [] :=
  fun empty => asked (List.nil_perm.1 (empty ▸ tieOrder_perm c key l))

end Sys2Proof.Machine

open Sys2Proof.Machine

/-- Settles O46: the order of service is a permutation of the parties in the order of R9, so its head is the winner. -/
theorem tieRule : Obligations.TieRule := by
  unfold Obligations.TieRule
  intro c index parties
  exact ⟨fun _ first => tieOrder_head first, fun asked => List.isSome_head?.2 (tieOrder_ne_nil c index asked),
    fun p => (tieOrder_perm c index parties).count_eq p⟩
end

section
/-!
PROOFS. The boundary of a tick and the events about it (R20, R21, R64, R166, R318, R325): what each does, one lemma per event and case.
-/
namespace Sys2Proof.Machine
open Sys2Proof

/-! ### What the events run -/

theorem exec_tickBoundary (i : TickIn) (s : State) : exec (.tickBoundary i) s = .next (s.withDev (tickBoundary i s.dev)) := rfl

theorem exec_manifestDeadline (missed : List Nat) (s : State) : exec (.manifestDeadline missed) s = .next (s.withDev (manifestDeadline missed s.dev)) := rfl

theorem exec_errorBlockEnd (s : State) : exec .errorBlockEnd s = .next (s.withDev (errorBlockEnd s.dev)) := rfl

theorem exec_pmSecondEnd (s : State) : exec .pmSecondEnd s = .next (s.withDev (pmSecondEnd s.dev)) := rfl

theorem exec_namedTickReached (t : Nat) (s : State) :
    exec (.namedTickReached t) s = .next (s.withDev ((namedTickReached t s.dev).syncDrr 0 (· == t))) := rfl

/-! ### The clock -/

/-- The key clock advances by one at each boundary (R359). -/
@[simp] theorem Clock.next_snd (c : Clock) : c.next.2 = c.keyClock + 1 := rfl

/-- The cycle number advances by one where none is loaded (R20). -/
theorem Clock.next_fst_of_unloaded {c : Clock} (unloaded : c.loadCycle = none) : c.next.1 = c.cycle + 1 := by
  simp [Clock.next, unloaded]

/-- A change of the DRR levels leaves the clock. -/
@[simp] theorem Dev.syncDrr_clock (d : Dev) (now : Nat) (mine : Nat → Bool) : (d.syncDrr now mine).clock = d.clock := by
  obtain ⟨points, queues, e⟩ := syncDrr_cases d now mine
  rw [e]

/-! ### TICK_BOUNDARY -/

/-- The clock of a device when a boundary ends: the next cycle number and key clock of the clock `c` before it. -/
def Dev.endBoundary (d : Dev) (c : Clock) : Dev :=
  ({ d with
    sched := { d.sched with points := tmap d.sched.points (fun _ (p : Point) => p.tick) },
    clock := { d.clock with cycle := c.next.1, keyClock := c.next.2, inBoundary := false } } : Dev).syncDrr 0 (fun _ => true)

theorem Dev.endBoundary_clock (d : Dev) (c : Clock) :
    (d.endBoundary c).clock = { d.clock with cycle := c.next.1, keyClock := c.next.2, inBoundary := false } :=
  Dev.syncDrr_clock _ _ _

/-- The trees whose receive lane showed energy in the tick that ends. -/
def Dev.heardTrees (d : Dev) (i : TickIn) : List Nat :=
  (tkeys d.trees).filter (fun t => i.line.any (fun e => e.1 == t && anyEnergy e.2) || (d.line t).energy)

/-- The trees that are sealed. -/
def Dev.sealedTrees (d : Dev) : List Nat := (tkeys d.trees).filter (fun t => (d.tree t).sealed)

/-- The boundary of a tick that ends runs the steps of R21 in order. -/
theorem tickBoundary_of_ticks (i : TickIn) {d : Dev} (ends : d.ticks = true) :
    ∃ d1 d4 d6 d7 : Dev,
      d1 = d.endTick.advance.stepsOneToThree (if d.clock.everAttached then 0 else d.clock.lengthenTo.getD 0) i.timeInfo ∧
      d4 = (d1.stepFour (d.heardTrees i)).thermal i.tj ∧
      d6 = (d4.windowsBoundary d.sealedTrees).stepSix ∧
      d7 = (d6.stepSeven i.maps i.fec).dumpStart ∧
      tickBoundary i d = d7.endBoundary d.clock := by
  refine ⟨_, _, _, _, rfl, rfl, rfl, rfl, ?_⟩
  unfold tickBoundary
  rw [if_neg (by simp [ends])]
  unfold Dev.endBoundary Dev.heardTrees Dev.sealedTrees
  with_reducible rfl

/-- Without main power or a clock no tick ends (R36). -/
theorem tickBoundary_of_not_ticks (i : TickIn) {d : Dev} (stands : d.ticks = false) : tickBoundary i d = d :=
  if_pos (by simp [stands])

/-- The clock after the boundary of a tick that ends. -/
theorem tickBoundary_clock (i : TickIn) {d : Dev} (ends : d.ticks = true) :
    (tickBoundary i d).clock.keyClock = d.clock.keyClock + 1 ∧ (tickBoundary i d).clock.inBoundary = false ∧
      (tickBoundary i d).clock.cycle = d.clock.next.1 := by
  obtain ⟨_, _, _, d7, -, -, -, -, e⟩ := tickBoundary_of_ticks i ends
  rw [e, Dev.endBoundary_clock]
  exact ⟨Clock.next_snd _, rfl, rfl⟩

/-! ### MANIFEST_DEADLINE -/

/-- A build in time whose entries all pass the check, after one in time, is released as it stands (R165, R166). -/
theorem manifestTree_released {d : Dev} {t : Nat} {m : Manifest} (built : (d.tree t).keep.building = some m) (inTime : (d.tree t).keep.missRun = 0)
    (passes : (d.tree t).check m.target (fun g => (d.tree t).keep.stateOk.contains (g.tid, g.kind)) m.grants = (m.grants, 0)) :
    d.manifestTree t false = (d.modTree t (fun y => { y with
      keep := { (y.keep.charge m) with
        manifests := tset (y.keep.manifests.filter (fun e => decide (d.now ≤ e.1 + 1))) m.target m,
        building := none, missRun := 0 } })).sendMirror t := by
  unfold Dev.manifestTree
  rw [built]
  simp only [Bool.false_eq_true, if_false, passes, inTime, ne_eq, not_true_eq_false, if_true]

/-! ### ERROR_BLOCK_END and PM_SECOND_END -/

/-- In the last tick of a block its end is marked (R318). -/
theorem errorBlockEnd_in_last_tick {d : Dev} (last : (d.now + 1) % 4000 = 0) :
    errorBlockEnd d = { d with clock := { d.clock with blockDue := true } } :=
  if_pos last

/-- At a boundary that has not ended it, the block ends, and then every holder is tested for release (R318, R294). -/
theorem errorBlockEnd_at_boundary {d : Dev} (boundary : d.now % 4000 = 0) (notEnded : d.clock.blockDone ≠ some d.now) :
    errorBlockEnd d = ((tkeys d.trees).filter (fun t => d.treeUp t)).foldl (fun (d : Dev) t =>
      (d.port t).elim d (fun p => if p.state = .holder then d.releaseTest t p else d)) d.endBlocks := by
  unfold errorBlockEnd
  rw [if_neg (by omega), if_pos ⟨boundary, notEnded⟩]

/-- At C mod 8,000 = 0 the second of every attached tree ends (R325). -/
theorem pmSecondEnd_at_boundary {d : Dev} (boundary : d.now % 8000 = 0) :
    pmSecondEnd d = ((tkeys d.trees).filter (fun t => d.treeUp t)).foldl (fun d t => d.pmTree t) d :=
  if_neg (not_not_intro boundary)

/-! ### NAMED_TICK_REACHED -/

/-- A terminal whose ADMIT_FROM alone is reached is admitted (R126). -/
theorem namedTick_admits {d : Dev} (t : Nat) {x : Term} {f : Nat} (admission : x.admitFrom = some f) (reached : f ≤ d.now)
    (noAdj : x.adj = none) (noFec : x.fecSet = none) (noDoze : x.doze = none) : d.namedTick t x = d.admitNow t x := by
  have admits : x.admitFrom.elim false (fun f => decide (f ≤ d.now)) = true := by rw [admission]; exact decide_eq_true reached
  unfold Dev.namedTick
  rw [if_pos admits, noAdj, noFec, noDoze]

end Sys2Proof.Machine

open Sys2Proof Sys2Proof.Machine

/-- Settles O5: each event is one case of its meaning; the clock after a boundary is set by its end alone. -/
theorem tickBoundaryAdvances : Obligations.TickBoundaryAdvances := by
  unfold Obligations.TickBoundaryAdvances
  refine ⟨fun i s ends => ?clock, fun i s ends => ?steps, fun i s stands => ?stands, fun s missed => exec_manifestDeadline missed s,
    fun _ _ _ built inTime passes => manifestTree_released built inTime passes, fun s last => ?lastTick,
    fun s boundary notEnded => ⟨_, _, rfl, rfl, ?block⟩, fun s boundary => ?second, fun s t => exec_namedTickReached t s,
    fun _ t _ _ admission reached noAdj noFec noDoze => namedTick_admits t admission reached noAdj noFec noDoze⟩
  case clock =>
    obtain ⟨key, ended, cycle⟩ := tickBoundary_clock i ends
    exact ⟨_, exec_tickBoundary i s, key, ended, cycle, fun unloaded => cycle.trans (Clock.next_fst_of_unloaded unloaded)⟩
  case steps =>
    obtain ⟨d1, d4, d6, d7, h1, h4, h6, h7, e⟩ := tickBoundary_of_ticks i ends
    refine ⟨d1, d4, d6, d7, h1, h4, h6, h7, ?_⟩
    rw [exec_tickBoundary, e]
    rfl
  case stands =>
    rw [exec_tickBoundary, tickBoundary_of_not_ticks i stands]
    rfl
  case lastTick => rw [exec_errorBlockEnd, errorBlockEnd_in_last_tick last]
  case block =>
    rw [exec_errorBlockEnd, errorBlockEnd_at_boundary boundary notEnded]
    rfl
  case second => rw [exec_pmSecondEnd, pmSecondEnd_at_boundary boundary]
end

section
/-!
PROOFS. The ends of spill writes, refill claims and refill reads, and an uncorrectable fault of the HBM (R31, R181, R191 to R196, R200).
-/
namespace Sys2Proof.Machine
open Sys2Proof

theorem exec_spillWriteComplete (q f : Nat) (s : State) : exec (.spillWriteComplete q f) s = .next (s.withDev (spillComplete q f s.dev)) := rfl

theorem exec_refillClaimGrant (s : State) : exec .refillClaimGrant s = .next (s.withDev (refillGrant s.dev)) := rfl

theorem exec_refillReadComplete (q f : Nat) (s : State) : exec (.refillReadComplete q f) s = .next (s.withDev (refillRead q f s.dev)) := rfl

theorem exec_hbmUncorrectableFault (s : State) : exec .hbmUncorrectableFault s = .next (s.withDev (hbmFault s.dev)) := rfl

/-- An entry whose spill write ends stands in reservoir and has no other copy; any other is left. -/
def QEnt.written (frame : Nat) (e : QEnt) : QEnt :=
  if e.frame = frame ∧ e.place = .writing then { e with place := .reservoir, src := none } else e

/-- The device when the spill write of a frame has ended and the queue's entry stands in reservoir. -/
def Dev.spillWritten (d : Dev) (q frame : Nat) : Dev :=
  (d.hbmEnd (fun w => w == .spill q frame)).modQueue q (fun y =>
    { y with refill := y.refill.map (QEnt.written frame), resv := y.resv.map (QEnt.written frame) })

/-- What the data stood in goes: the reference of the frame copied from, or the frame's own basin cells (R191). -/
def Dev.leaveBasin (d : Dev) (frame : Nat) : Option Nat → Dev
  | some k => d.release k ((tget d.pool.frames frame).elim 0 (fun x => x.req))
  | none => (d.freeBasin ((tget d.pool.frames frame).elim [] (fun x => x.cells)) ((tget d.pool.frames frame).elim 0 (fun x => x.req))).modFrm frame
      (fun x => { x with cells := [] })

/-- A spill write that is running and whose transactions have been made ends (R31, R191, R194). -/
theorem spillComplete_of_ready {d : Dev} {q frame : Nat} {e : QEnt}
    (writing : ((d.queue q).refill ++ (d.queue q).resv).find? (fun e => e.frame == frame && e.place == .writing) = some e)
    (ready : d.hbmReady (.spill q frame) = true) :
    spillComplete q frame d =
      if ((d.spillWritten q frame).leaveBasin frame e.src).pool.hbmFault then (d.spillWritten q frame).leaveBasin frame e.src
      else ((d.spillWritten q frame).leaveBasin frame e.src).issueRefill q := by
  unfold spillComplete
  rw [writing]
  dsimp only
  rw [if_neg (by simp [ready])]
  rcases e.src <;> rfl

/-- The device when the claim of a frame has been granted its cells and the queue's entry is being read. -/
def Dev.claimGranted (d : Dev) (q frame : Nat) (rest : List (Nat × Nat)) (cells : List Nat) : Dev :=
  ((({ d with pool := { d.pool with claims := rest } } : Dev).holdBasin cells 83).modFrm frame (fun x => { x with cells, req := 83 })).modQueue q
    (fun y => { y with refill := y.refill.map (fun e => if e.frame = frame then { e with place := .reading } else e) })

/-- Outside self-refresh the oldest claim is granted where cells enough are free (R181, R194); the order of its read among the HBM's requests is a free
value, which is the model's choice (log entry 118). -/
theorem refillGrant_of_room {d : Dev} {q frame : Nat} {rest : List (Nat × Nat)} (oldest : d.pool.claims = (q, frame) :: rest)
    (awake : d.selfRefresh = false) (room : d.pool.basin.length + d.pool.weirReserve + cellsOf (d.frmLen frame) ≤ Config.basinCells) :
    refillGrant d =
      let g := d.claimGranted q frame rest (lowestFree d.pool.basin (cellsOf (d.frmLen frame)))
      (g.draw.2.hbmAsk 83 (cellsOf (d.frmLen frame)) (if g.draw.1 % 2 = 0 then none else g.pool.hbm.getLast?.bind (·.asked)) (.refill q frame)).poolUp := by
  unfold refillGrant
  rw [oldest]
  dsimp only
  rw [if_neg (by simp [awake]; omega)]
  rfl

/-- A refill read that is running and whose transactions have been made ends (R31, R194). -/
theorem refillRead_of_ready {d : Dev} {q frame : Nat} (reading : (d.queue q).refill.any (fun e => e.frame == frame && e.place == .reading) = true)
    (ready : d.hbmReady (.refill q frame) = true) :
    refillRead q frame d = ((d.hbmEnd (fun w => w == .refill q frame)).modQueue q (fun y => { y with
      refill := y.refill.map (fun e => if e.frame = frame then { e with place := .readDone } else e) })).linkRefilled q :=
  if_neg (by simp [reading, ready])

/-- The queues with a spilled part. -/
def Dev.spilledQueues (d : Dev) : List Nat := (d.pool.queues.filter (fun e => e.2.spilled)).map (·.1)

/-- The reservoir cells of the spilled parts of the queues. -/
def Dev.spilledCells (d : Dev) : Nat :=
  sumOf (d.spilledQueues.map (fun q => sumOf (((d.queue q).refill ++ (d.queue q).resv).map (fun e => e.resv.length))))

/-- The device when the spilled parts are dropped and the Feeder has stopped (R196, R200). -/
def Dev.feederStopped (d : Dev) : Dev :=
  let d := d.spilledQueues.foldl Dev.dropSpilled (d.hbmEnd (fun w => !w.isPile))
  { d with pool := { d.pool with feederOn := false, hbmFault := true, hbmUsable := false, claims := [] } }

/-- The loss of reservoir cells is counted, and the fault reported. -/
def Dev.reportLost (d : Dev) (lost : Nat) : Dev := (if lost = 0 then d else d.countDev .resvLostCells lost).raise 0x328 (le 4 lost)

/-- A rinse of the HBM waits or runs. -/
def Dev.rinsing (d : Dev) : Bool :=
  d.sluice.fifo.any (fun r => decide (r.op = HeavyOp.hbmRinse)) || d.sluice.held.any (fun h => decide (h.op = HeavyOp.hbmRinse))

/-- An uncorrectable fault of the HBM ends in a request of a rinse where none waits or runs (R196). -/
theorem hbmFault_eq (d : Dev) :
    hbmFault d = if (d.feederStopped.reportLost d.spilledCells).rinsing then d.feederStopped.reportLost d.spilledCells
      else ((d.feederStopped.reportLost d.spilledCells).request .hbmRinse 14 none).1 := rfl

/-- Where no rinse waits or runs, one is asked for. -/
theorem hbmFault_asks_rinse {d d3 : Dev} (reported : d3 = d.feederStopped.reportLost d.spilledCells)
    (waits : d3.sluice.fifo.any (fun r => decide (r.op = HeavyOp.hbmRinse)) = false)
    (runs : d3.sluice.held.any (fun h => decide (h.op = HeavyOp.hbmRinse)) = false) :
    hbmFault d = (d3.request .hbmRinse 14 none).1 := by
  have noRinse : ¬ d3.rinsing = true := by unfold Dev.rinsing; rw [waits, runs]; exact Bool.false_ne_true
  rw [hbmFault_eq, ← reported, if_neg noRinse]

end Sys2Proof.Machine

open Sys2Proof Sys2Proof.Machine

/-- Settles O11: each event is the case of its meaning in which its HBM work is made, its claim has room, or no rinse is on the way. -/
theorem spillAndRefill : Obligations.SpillAndRefill := by
  unfold Obligations.SpillAndRefill
  refine ⟨?spill, ?grant, fun s q f reading ready => ?read, ?link, ?fault⟩
  case spill =>
    rintro s q f e _ _ _ writing ready rfl rfl rfl
    rw [exec_spillWriteComplete, spillComplete_of_ready writing ready]
    rcases e.src <;> rfl
  case grant =>
    rintro s q f rest _ _ _ oldest awake room rfl rfl rfl
    rw [exec_refillClaimGrant, refillGrant_of_room oldest awake room]
    rfl
  case read => rw [exec_refillReadComplete, refillRead_of_ready reading ready]
  case link =>
    intro d q done rest parts
    simp only [Dev.linkRefilled, parts]
  case fault =>
    rintro s _ _ _ _ d3 rfl rfl rfl rfl reported waits runs
    rw [exec_hbmUncorrectableFault, hbmFault_asks_rinse reported waits runs]
end

section
/-!
PROOFS. The reset state (R20, R332, R345, R350, R407, R432, R493, R507).
-/
open Sys2Proof Sys2Proof.Machine

/-- Settles O53: every clause reads a field of the reset state; host memory at reset has no cell, so no address reads a byte. -/
theorem resetState : Obligations.ResetState := by
  unfold Obligations.ResetState
  have noCells : ∀ a, memRead State.reset.hostMem a = none := fun _ => rfl
  have pinsOff : (State.reset.dev.time.pins.all (fun p => p.mode == 0)) = true := by decide
  have linksDisabled : (State.reset.dev.tow.links.all (fun l => l.state == .disabled)) = true := by decide
  exact ⟨rfl, rfl, noCells, rfl, rfl, rfl, rfl, rfl, rfl, pinsOff, rfl, rfl, linksDisabled, rfl, rfl⟩
end

section
/-!
PROOFS. The scrambler and the ballast of a lane (R41 to R44): a second scrambling undoes the first, and the receiver of ballast follows the transmitter bit by bit.
-/
namespace Sys2Proof.Machine

/-! ### The scrambler -/

/-- The first bit meets the keystream bit of the state; the rest is scrambled from the state after it. -/
theorem scramble_cons (s : Nat) (b : Bool) (t : List Bool) :
    scramble s (b :: t) = ((b != (scrStep s).1) :: (scramble (scrStep s).2 t).1, (scramble (scrStep s).2 t).2) := rfl

@[simp] theorem scramble_length (s : Nat) (bits : List Bool) : (scramble s bits).1.length = bits.length := by
  induction bits generalizing s with
  | nil => rfl
  | cons b t ih => rw [scramble_cons, List.length_cons, ih, List.length_cons]

/-- The keystream does not depend on the bits, and each bit meets the same keystream bit twice. -/
theorem scramble_scramble (s : Nat) (bits : List Bool) : scramble s (scramble s bits).1 = (bits, (scramble s bits).2) := by
  induction bits generalizing s with
  | nil => rfl
  | cons b t ih =>
    have twice : ((b != (scrStep s).1) != (scrStep s).1) = b := by simp
    rw [scramble_cons, scramble_cons, ih, twice]

/-! ### Ballast -/

/-- The run count after a ballast bit that is the complement of `b`. -/
def Run.ballast (r : Run) (b : Bool) : Run := { r with run := 1, last := !b, used := r.used + 1 }

/-- A bit that does not make 64 identical ones is sent alone. -/
theorem ballastTx_cons_free {r : Run} {b : Bool} (free : (r.bit b).run ≠ 64) (t : List Bool) :
    ballastTx r (b :: t) = (b :: (ballastTx (r.bit b) t).1, (ballastTx (r.bit b) t).2) := if_neg free

/-- The last of 64 identical bits is followed by its complement. -/
theorem ballastTx_cons_full {r : Run} {b : Bool} (full : (r.bit b).run = 64) (t : List Bool) :
    ballastTx r (b :: t) = (b :: (!b) :: (ballastTx ((r.bit b).ballast b) t).1, (ballastTx ((r.bit b).ballast b) t).2) := if_pos full

/-- A bit that does not make 64 identical ones is a payload bit, and nothing is deleted after it. -/
theorem ballastRx_cons_free {r : Run} {b : Bool} (free : (r.bit b).run ≠ 64) (n : Nat) {l rest bits : List Bool} {q : Run} {k : Nat}
    (read : ballastRx n (r.bit b) l = (bits, q, rest, k)) : ballastRx (n + 1) r (b :: l) = (b :: bits, q, rest, k + 1) := by
  unfold ballastRx
  rw [if_neg free, read]

/-- The complement after 64 identical bits is deleted and is no violation. -/
theorem ballastRx_cons_full {r : Run} {b : Bool} (full : (r.bit b).run = 64) (n : Nat) {l rest bits : List Bool} {q : Run} {k : Nat}
    (read : ballastRx n ((r.bit b).ballast b) l = (bits, q, rest, k)) : ballastRx (n + 1) r (b :: (!b) :: l) = (b :: bits, q, rest, k + 2) := by
  have complement : b2n ((!b) == b) = 0 := by cases b <;> rfl
  unfold Run.ballast at read
  rw [ballastRx, if_pos full]
  simp only [complement, Nat.add_zero, read]

/-- The receiver of the payload takes the ballast off and ends in the run state of the transmitter. -/
theorem ballastRx_ballastTx (r : Run) (bits rest : List Bool) :
    ballastRx bits.length r ((ballastTx r bits).1 ++ rest) = (bits, (ballastTx r bits).2, rest, (ballastTx r bits).1.length) := by
  induction bits generalizing r with
  | nil => rfl
  | cons b t ih =>
    by_cases full : (r.bit b).run = 64
    · rw [ballastTx_cons_full full]
      exact ballastRx_cons_full full t.length (ih ((r.bit b).ballast b))
    · rw [ballastTx_cons_free full]
      exact ballastRx_cons_free full t.length (ih (r.bit b))

end Sys2Proof.Machine

open Sys2Proof.Machine

/-- Settles O44: the keystream bit and the next state of a step are those of R41. -/
theorem scramblerStep : Obligations.ScramblerStep := by
  unfold Obligations.ScramblerStep
  intro seed b t
  exact ⟨rfl, (scrStep seed).1, rfl, scramble_cons seed b t⟩

/-- Settles O45: the ballast comes off the scrambled bits, whatever they are, and a second scrambling gives the bits back. -/
theorem lineCodeRoundTrip : Obligations.LineCodeRoundTrip := by
  unfold Obligations.LineCodeRoundTrip
  intro seed r bits rest
  have offLine := ballastRx_ballastTx r (scramble seed bits).1 rest
  rw [scramble_length] at offLine
  exact ⟨offLine, scramble_scramble seed bits⟩
end

section
/-!
PROOFS. The commands of a tree port (R57, R59, R136, R139, R140, R509 to R512): the case of each in which no check fails.
-/
namespace Sys2Proof.Machine
open Sys2Proof

/-- A mailbox instruction on a served context begins its command and runs its body. -/
theorem exec_mailbox_served {s : State} {ctx op : Nat} {i : Instr} {body : CmdRef → Dev → Dev}
    (runs : exec i s = s.onDev (fun d => d.mailbox ctx op body)) (served : s.dev.served ctx op = true) :
    exec i s = .next (s.withDev (body (s.dev.refOf ctx) (s.dev.begun ctx))) := by
  rw [runs, ← mailbox_served s.dev ctx body served]
  rfl

/-! ### What each does where its checks pass -/

/-- A present detached tree that nothing attaches yet starts its attach, with main power and where no alignment must come first (R405, R509). -/
theorem treeAttach_starts {d : Dev} {t : Nat} (present : d.treePresent t = true) (detached : (d.tree t).attach = .detached)
    (first : d.tow.attachWait.any (fun e => e.2.1 == t) = false) (profile : d.profile.tree.isSome = true) (awake : d.dev.power ≠ .quiet)
    (noDoze : d.dev.power ≠ .doze) (aligned : d.alignDue = false) (sealIt : Bool) (ref : CmdRef) :
    treeAttach t sealIt ref d = d.startAttach t sealIt ref := by
  have valid : ¬ ((!d.treePresent t) = true ∨ (d.tree t).attach ≠ .detached ∨ d.tow.attachWait.any (fun e => e.2.1 == t) = true ∨
      d.profile.tree.isNone = true) := by
    simp only [present, detached, first, Option.isNone_eq_false_iff.2 profile]
    decide
  unfold treeAttach
  rw [if_neg valid, if_neg (not_or.2 ⟨awake, noDoze⟩), if_neg (by rw [aligned]; exact Bool.false_ne_true)]

/-- An attached tree outside a protection group takes one detach, which waits for the boundary (R510). -/
theorem treeDetach_waits {d : Dev} {t : Nat} (unprotected : tget d.prot.ports t = none) (present : d.treePresent t = true)
    (attached : (d.tree t).attach = .attached) (first : (d.tree t).detachPend = none) (ref : CmdRef) :
    treeDetach t ref d = d.modTree t (fun x => { x with detachPend := some ref }) := by
  unfold treeDetach
  simp [unprotected, present, attached, first]

/-- An attached tree takes a seal or an unseal, which waits for the boundary (R136, R140). -/
theorem treeSeal_waits {d : Dev} {t : Nat} (up : d.treeUp t = true) (sealIt : Bool) (ref : CmdRef) :
    treeSeal t sealIt ref d = d.modTree t (fun x => { x with sealPend := x.sealPend ++ [(ref, sealIt)] }) :=
  if_neg (by simp [up])

/-- The settings of a present tree's module, and the bus speed for all trees of its bus, are taken at once (R511). -/
theorem treeConfig_writes {d : Dev} {r : TreeConfigReq} (present : d.treePresent r.tree = true) (ref : CmdRef) :
    treeConfig r ref d = (({ d with dev := { d.dev with
        busFast := if r.fast then r.tree / 8 :: d.dev.busFast.filter (· != r.tree / 8) else d.dev.busFast.filter (· != r.tree / 8) } } : Dev).modTree r.tree
      (fun x => { x with lanes := { x.lanes with mset := { x.lanes.mset with
        txDisableIdle := r.txDisableIdle, rateSelect := r.rateSelect } } })).complete ref .ok :=
  if_neg (by simp [present])

/-- Settings in range are queued (R139). -/
theorem quietWindowSet_queues {d : Dev} {r : QwSetReq} (up : d.treeUp r.tree = true) (reach : r.reach ≤ 1) (mode : r.mode ≤ 1) (low : 16 ≤ r.period)
    (high : r.period ≤ 4096) (phase : r.phase < r.period) (ref : CmdRef) :
    quietWindowSet r ref d = (d.modTree r.tree (fun x => { x with disc := { x.disc with
      settingsPend := x.disc.settingsPend ++ [{ reach := r.reach, mode := r.mode, period := r.period, phase := r.phase }] } })).complete ref .ok :=
  if_neg (by simp [up]; omega)

/-- A present tree has a status (R512). -/
theorem treeStatus_answers {d : Dev} {t : Nat} (present : d.treePresent t = true) (ref : CmdRef) :
    treeStatus t ref d = d.complete ref .ok (treeStatusResp d t) :=
  if_neg (by simp [present])

end Sys2Proof.Machine

open Sys2Proof Sys2Proof.Machine

/-- Settles O18: a command of a served context runs its body, and each body is the case of its meaning in which the checks pass. -/
theorem treeCommands : Obligations.TreeCommands := by
  unfold Obligations.TreeCommands
  refine ⟨?attach, fun d d2 t b ref begun => ?start, ?detach, fun s ctx r served present => ?config, fun s ctx t served present => ?status,
    fun s ctx t served up => ?sealed, fun s ctx t served up => ?unsealed, ?window⟩
  case attach =>
    intro s ctx t b served present detached first profile awake noDoze aligned
    rw [exec_mailbox_served (body := treeAttach t b) rfl served,
      treeAttach_starts (d := s.dev.begun ctx) present detached first profile awake noDoze aligned]
  case start => rw [begun]; rfl
  case detach =>
    intro s ctx t served unprotected present attached first
    rw [exec_mailbox_served (body := treeDetach t) rfl served,
      treeDetach_waits (d := s.dev.begun ctx) unprotected present attached first]
  case config =>
    rw [exec_mailbox_served (body := treeConfig r) rfl served, treeConfig_writes (d := s.dev.begun ctx) present]
    rfl
  case status =>
    rw [exec_mailbox_served (body := treeStatus t) rfl served, treeStatus_answers (d := s.dev.begun ctx) present]
    rfl
  case sealed => rw [exec_mailbox_served (body := treeSeal t true) rfl served, treeSeal_waits (d := s.dev.begun ctx) up]
  case unsealed => rw [exec_mailbox_served (body := treeSeal t false) rfl served, treeSeal_waits (d := s.dev.begun ctx) up]
  case window =>
    intro s ctx r served up reach mode low high phase
    rw [exec_mailbox_served (body := quietWindowSet r) rfl served, quietWindowSet_queues (d := s.dev.begun ctx) up reach mode low high phase]
    rfl
end

section
/-!
PROOFS. The events of lanes, modules and main references (R36, R37, R59 to R62, R405): each event in the cases of its meaning.
-/
namespace Sys2Proof.Machine
open Sys2Proof

/-! ### What the events run -/

theorem exec_laneWakeFail (t : Nat) (s : State) : exec (.laneWakeFail t) s = .next (s.withDev (laneWakeFail t s.dev)) := rfl

theorem exec_wakeRetry (t : Nat) (s : State) : exec (.wakeRetry t) s = .next (s.withDev (wakeRetry t s.dev)) := rfl

theorem exec_wakeSeriesRestart (t : Nat) (s : State) : exec (.wakeSeriesRestart t) s = .next (s.withDev (wakeSeriesRestart t s.dev)) := rfl

theorem exec_modulePoll (r : ModulePoll) (s : State) : exec (.modulePoll r) s = .next (s.withDev (modulePoll r s.dev)) := rfl

theorem exec_refclkFail (i : Nat) (s : State) : exec (.refclkFail i) s = .next (s.withDev (refclkFail i s.dev)) := rfl

theorem exec_refclkRestore (a b : Bool) (s : State) : exec (.refclkRestore a b) s = .next (s.withDev (refclkRestore a b s.dev)) := rfl

theorem exec_alignWaitExpiry (s : State) : exec .alignWaitExpiry s = .next (s.withDev (alignWaitExpiry s.dev)) := rfl

/-! ### The wake of a lane (R59) -/

/-- The device when a wake attempt of a series has failed: the failure is counted and reported, and the pause of 1 s runs. -/
def Dev.wakeFailed (d : Dev) (t since : Nat) (w : WakeSeries) : Dev :=
  ((d.modTree t (fun x => { x with lanes := { x.lanes with
    state := .waking since true, wake := some { w with failures := w.failures + 1, phase := .pausing (d.now + Config.ticksPerSecond) } } })).countTree t
      .wakeFail).lineEvent t 5 none

/-- An attempt that has not failed yet fails, and the third failure ends its series. -/
theorem laneWakeFail_of_waking {d : Dev} {t since : Nat} {w : WakeSeries} (waking : (d.tree t).lanes.state = .waking since false)
    (series : (d.tree t).lanes.wake = some w) :
    laneWakeFail t d = if 3 ≤ w.failures + 1 then (d.wakeFailed t since w).endSeries t .noResource else d.wakeFailed t since w := by
  unfold laneWakeFail
  rw [waking, series]
  rfl

/-- The device when a series has ended: the next may start after 60 s. -/
def Dev.seriesOver (d : Dev) (t : Nat) : Dev :=
  d.modTree t (fun x => { x with lanes := { x.lanes with wake := none, nextSeries := some (d.now + 60 * Config.ticksPerSecond) } })

/-- The end of a series of an attach returns the tree to detached and completes the command. -/
theorem Dev.endSeries_of_wake {d : Dev} {t : Nat} {w : WakeSeries} (series : (d.tree t).lanes.wake = some w) (st : Status) :
    d.endSeries t st = w.ref.elim (d.seriesOver t) (fun ref =>
      ((d.seriesOver t).modTree t (fun x => { x with attach := .detached, since := (d.seriesOver t).now })).complete ref st) := by
  unfold Dev.endSeries
  rw [series]
  dsimp only
  cases w.ref <;> rfl

/-- When the pause is over the next attempt is requested. -/
theorem wakeRetry_of_pause_ended {d : Dev} {t a : Nat} {w : WakeSeries} (series : (d.tree t).lanes.wake = some w) (pause : w.phase = .pausing a)
    (ended : a ≤ d.now) :
    wakeRetry t d = (d.modTree t (fun x => { x with lanes := { x.lanes with wake := some { w with phase := .waiting } } })).requestWake t 9 := by
  unfold wakeRetry
  rw [series]
  dsimp only
  rw [pause]
  exact if_pos ended

/-- An attached tree with an idle transmit lane, while R57 calls for a lit one, starts a series 60 s after the last. -/
theorem wakeSeriesRestart_of_due {d : Dev} {t n : Nat} (attached : (d.tree t).attached = true) (idle : (d.tree t).lanes.state.txIdle = true)
    (noSeries : (d.tree t).lanes.wake = none) (wanted : d.wantsLit t = true) (next : (d.tree t).lanes.nextSeries = some n) (due : n ≤ d.now) :
    wakeSeriesRestart t d = d.startSeries t none 9 :=
  if_pos ⟨attached, idle, by rw [noSeries]; rfl, wanted, by rw [next]; exact decide_eq_true due⟩

/-! ### Module accesses (R60 to R62) -/

/-- The access of a poll is made: the bus serves, and the head of its queue is this tree's. -/
structure Dev.Polls (d : Dev) (r : ModulePoll) (a : BusAccess) (rest : List BusAccess) : Prop where
  works : d.host.idle = false
  present : d.treePresent r.tree = true
  sound : d.dev.busFaulty.contains (r.tree / 8) = false
  queue : (d.bus (r.tree / 8)).queue = a :: rest
  head : a.tree = r.tree

/-- The device when the recoveries of a poll have failed: the bus is faulty and serves no access, and its eight trees are reported (R62). -/
def Dev.busFailed (d : Dev) (r : ModulePoll) : Dev :=
  (rangeFrom (8 * (r.tree / 8)) 8).foldl (fun d t => d.lineEvent t 6 none)
    (({ d with dev := { d.dev with busFaulty := r.tree / 8 :: d.dev.busFaulty } } : Dev).modBus (r.tree / 8)
      (fun b => { b with queue := [], done := busRecoveries r }))

/-- The transfers of a poll whose access is made, with the identity or without. -/
def Dev.pollOps (d : Dev) (r : ModulePoll) (identity : Bool) : List BusOp :=
  busRecoveries r ++ accessOps (r.tree % 8) identity (d.tree r.tree).lanes.mset

/-- The device when the access of a poll has been made: the bus is left with the rest of its queue, and the tree's module is known (R60, R61). -/
def Dev.accessMade (d : Dev) (r : ModulePoll) (rest : List BusAccess) (identity : Bool) (data : Bytes × Bytes × Bytes × Nat × Nat × Nat) : Dev :=
  (d.modBus (r.tree / 8) (fun _ =>
    { queue := rest, done := d.pollOps r identity, connected := (d.pollOps r identity).foldl BusOp.connected 0 })).modTree r.tree
      (fun x => { x with lanes := x.lanes.access identity data })

/-- A poll that is served is decided by its recoveries and by what it read. -/
theorem modulePoll_of_polls {d : Dev} {r : ModulePoll} {a : BusAccess} {rest : List BusAccess} (polls : d.Polls r a rest) :
    modulePoll r d = if 3 ≤ r.failedRecoveries then d.busFailed r
      else r.data.elim (d.modBus (r.tree / 8) (fun b => { b with queue := rest, done := busRecoveries r }))
        (d.accessMade r rest (a.identity || (d.tree r.tree).lanes.module.isNone)) := by
  obtain ⟨works, present, sound, queue, head⟩ := polls
  have serves : ¬ (d.host.idle = true ∨ (!d.treePresent r.tree) = true ∨ d.dev.busFaulty.contains (r.tree / 8) = true) := by
    simp only [works, present, sound]
    decide
  unfold modulePoll
  rw [if_neg serves, queue]
  dsimp only
  rw [if_neg (not_not_intro head)]
  cases r.data <;> rfl

/-- Three failed recoveries are the most in a row. -/
theorem busRecoveries_of_faulty {r : ModulePoll} (failed : 3 ≤ r.failedRecoveries) : busRecoveries r = List.replicate 3 BusOp.recover := by
  unfold busRecoveries; rw [if_pos failed]

/-- A bus that was held, or whose recoveries failed at first, was freed by one more. -/
theorem busRecoveries_of_freed {r : ModulePoll} (freed : r.failedRecoveries < 3) (held : r.held = true ∨ 0 < r.failedRecoveries) :
    busRecoveries r = List.replicate (r.failedRecoveries + 1) BusOp.recover := by
  unfold busRecoveries; rw [if_neg (Nat.not_le.2 freed), if_pos held]

/-- A free bus needs no recovery. -/
theorem busRecoveries_of_free {r : ModulePoll} (unfailed : r.failedRecoveries = 0) (free : r.held = false) : busRecoveries r = [] := by
  simp [busRecoveries, unfailed, free]

/-! ### The main references (R36, R37) -/

/-- The references when `i` has failed: it is bad, and waits 80,000 ticks for its restore where the part is clocked (log entry 103). -/
def Dev.refFailed (d : Dev) (i : Nat) : RefClk := (d.ref.setGood i false).setFail i (if d.clocked then some (d.up + 80000) else none)

/-- A good reference that fails loses the selection where it has it, to the other where that is good. -/
theorem refclkFail_of_good {d : Dev} {i : Nat} {r : RefClk} (known : i ≤ 1) (good : d.ref.good i = true) (failed : r = d.refFailed i) :
    refclkFail i d =
      if r.selected = some i then
        if r.good (1 - i) = true then ({ d with ref := { r with selected := some (1 - i), switchTo := none } } : Dev).raise 0x302
        else ({ d with ref := { r with selected := none, switchTo := none } } : Dev).raise (0x300 + i)
      else { d with ref := { r with
        switchTo := if r.selected.isNone then r.best else if r.switchTo = some i then none else r.switchTo } } := by
  have wasGood : ¬ (!d.ref.good i) = true := by simp [good]
  subst failed
  unfold refclkFail
  rw [if_neg (Nat.not_lt.2 known)]
  dsimp only
  rw [if_neg wasGood]
  rfl

/-- The references when those named have become good after their wait. -/
def Dev.refRestored (d : Dev) (a b : Bool) : RefClk :=
  { d.ref with goodA := d.ref.goodA || (a && d.refWaited 0), goodB := d.ref.goodB || (b && d.refWaited 1) }

/-- Where none is selected the best is taken: at the next boundary, or at once by a part not clocked yet. -/
theorem refclkRestore_of_none {d : Dev} {a b : Bool} {r : RefClk} (restored : r = d.refRestored a b) (unselected : r.selected = none) :
    refclkRestore a b d =
      if d.clocked = true then { d with ref := { r with switchTo := r.best } } else { d with ref := { r with selected := r.best } } := by
  subst restored
  unfold refclkRestore
  dsimp only
  split
  · split <;> rfl
  next i selected => nomatch unselected.symm.trans selected

/-- Where one is selected the preferred reference takes over at the next boundary, in revertive mode and where it becomes good. -/
theorem refclkRestore_of_some {d : Dev} {a b : Bool} {i : Nat} {r : RefClk} (restored : r = d.refRestored a b) (selected : r.selected = some i) :
    refclkRestore a b d = { d with ref :=
      if i ≠ r.pref ∧ r.revertive = true ∧ r.good r.pref = true ∧ d.ref.good r.pref = false then { r with switchTo := some r.pref } else r } := by
  subst restored
  unfold refclkRestore
  dsimp only
  split
  next unselected => nomatch selected.symm.trans unselected
  next j other =>
    obtain rfl : i = j := Option.some.inj (selected.symm.trans other)
    simp only [Bool.not_eq_true']
    rfl

/-- A waiting switch takes place at the boundary, to a reference that is good. -/
theorem Dev.refBoundary_of_switch {d : Dev} {i : Nat} (noSection : d.ref.pendPref = none) (switch : d.ref.switchTo = some i) :
    d.refBoundary = { d with ref := { d.ref with switchTo := none, selected := if d.ref.good i then some i else d.ref.selected } } := by
  unfold Dev.refBoundary
  simp only [noSection, switch]

/-! ### ALIGN_WAIT (R405) -/

/-- Without a tick reference within ALIGN_WAIT of the enable, waiting attaches go on. -/
theorem alignWaitExpiry_of_expired {d : Dev} {e : Nat} (enabled : d.tow.enabledAt = some e) (noReference : d.tickRef = none)
    (expired : e * 1000 + d.tow.alignWait * Config.ticksPerSecond ≤ d.now * 1000) :
    alignWaitExpiry d = ({ d with tow := { d.tow with alignOver := true } } : Dev).releaseAttach := by
  unfold alignWaitExpiry
  rw [enabled]
  exact if_pos ⟨by rw [noReference]; rfl, expired⟩

end Sys2Proof.Machine

open Sys2Proof Sys2Proof.Machine

/-- Settles O20: each event is a case of its meaning, named by its hypotheses. -/
theorem laneAndClockEvents : Obligations.LaneAndClockEvents := by
  unfold Obligations.LaneAndClockEvents
  refine ⟨?wakeFail, ?seriesEnd, ?retry, ?restart, ?access, fun r => ⟨busRecoveries_of_faulty, busRecoveries_of_freed, busRecoveries_of_free⟩,
    ?faulty, ?fail, ?restore, fun d i noSection switch => Dev.refBoundary_of_switch noSection switch, ?alignWait⟩
  case wakeFail =>
    rintro s t since w _ waking series rfl
    rw [exec_laneWakeFail, laneWakeFail_of_waking waking series]
    rfl
  case seriesEnd =>
    rintro d _ t st w series rfl
    exact Dev.endSeries_of_wake series st
  case retry =>
    intro s t a w series pause ended
    rw [exec_wakeRetry, wakeRetry_of_pause_ended series pause ended]
  case restart =>
    intro s t n attached idle noSeries wanted next due
    rw [exec_wakeSeriesRestart, wakeSeriesRestart_of_due attached idle noSeries wanted next due]
  case access =>
    rintro s r a rest i ops data works present sound queue head freed read rfl rfl
    rw [exec_modulePoll, modulePoll_of_polls ⟨works, present, sound, queue, head⟩, if_neg (Nat.not_le.2 freed), read]
    rfl
  case faulty =>
    rintro s r a rest _ works present sound queue head failed rfl
    rw [exec_modulePoll, modulePoll_of_polls ⟨works, present, sound, queue, head⟩, if_pos failed]
    rfl
  case fail =>
    intro s i r known good failed
    rw [exec_refclkFail, refclkFail_of_good known good failed]
    refine ⟨fun selected other => ?_, fun selected bad => ?_, fun unselected => ?_⟩
    · rw [if_pos selected, if_pos other]
    · rw [if_pos selected, if_neg (by rw [bad]; exact Bool.false_ne_true)]
    · rw [if_neg unselected]
  case restore =>
    intro s a b r restored
    rw [exec_refclkRestore]
    refine ⟨fun unselected unclocked => ?_, fun unselected clocked => ?_, fun i selected => ?_⟩
    · rw [refclkRestore_of_none restored unselected, if_neg (by rw [unclocked]; exact Bool.false_ne_true)]
    · rw [refclkRestore_of_none restored unselected, if_pos clocked]
    · rw [refclkRestore_of_some restored selected]
  case alignWait =>
    intro s e enabled noReference expired
    rw [exec_alignWaitExpiry, alignWaitExpiry_of_expired enabled noReference expired]
end

section
/-!
PROOFS. A heartbeat between the ports of a protected tree (R290): its bytes stand one field after another, and a field is read where the fields before it end.
-/
namespace Sys2Proof.Machine
open Sys2Proof

/-! ### Fields of a big-endian structure -/

/-- A field that begins a structure reads as the number written, if that fits the bytes of the field. -/
theorem beAt_be_first {n x : Nat} (fits : x < 256 ^ n) (l : Bytes) : beAt (be n x ++ l) 0 n = x := by
  have whole : slice (be n x ++ l) 0 n = be n x := slice_append (a := []) rfl (be_length n x)
  rw [beAt, whole, ofBE_be, Nat.mod_eq_of_lt fits]

/-- A field that stands after another is read past the bytes of that one. -/
theorem beAt_be_later {m o : Nat} (later : m ≤ o) (n x : Nat) (l : Bytes) : beAt (be m x ++ l) o n = beAt l (o - m) n := by
  have past : (be m x ++ l).drop o = l.drop (o - m) := by
    rw [List.drop_append, List.drop_eq_nil_of_le (by rwa [be_length]), List.nil_append, be_length]
  simp only [beAt, slice, past]

/-- A signed field is its two's complement number written as bytes. -/
theorem beInt_eq_be (n : Nat) (x : Int) : beInt n x = be n (x % (2 ^ (8 * n) : Nat)).toNat := rfl

/-- A 32-bit two's complement number reads back with its sign. -/
theorem signed_32_of_range {x : Int} (low : -2147483648 ≤ x) (high : x ≤ 2147483647) : signed 32 (x % (2 ^ 32 : Nat)).toNat = x := by
  unfold signed
  dsimp only
  split <;> omega

/-! ### The layout of a heartbeat -/

/-- FLAGS of R290. -/
def heartbeatFlags (release heard sf armed : Bool) : Nat := b2n release + 2 * b2n heard + 4 * b2n sf + 8 * b2n armed

theorem heartbeatFlags_lt : ∀ release heard sf armed, heartbeatFlags release heard sf armed < 256 ^ 1 := by decide

/-- Each flag is read at its own bit. -/
theorem bitOf_heartbeatFlags : ∀ release heard sf armed,
    bitOf (heartbeatFlags release heard sf armed) 0 = release ∧ bitOf (heartbeatFlags release heard sf armed) 1 = heard ∧
      bitOf (heartbeatFlags release heard sf armed) 2 = sf ∧ bitOf (heartbeatFlags release heard sf armed) 3 = armed := by decide

/-- Bytes 0 to 27 of a heartbeat, which its CRC covers. -/
def heartbeatBody (v : PeerView) (pgid : Nat) (release : Bool) : Bytes :=
  be 2 pgid ++ be 2 v.epoch ++ be 1 v.role ++ be 1 (heartbeatFlags release v.heard v.sf v.armed) ++ be 1 v.dev ++ be 1 v.tree ++ be 6 v.cycle ++
    be 2 0 ++ beInt 4 v.cal ++ be 8 0

theorem heartbeatBody_length (v : PeerView) (pgid : Nat) (release : Bool) : (heartbeatBody v pgid release).length = 28 := by
  simp [heartbeatBody]

theorem heartbeatBytes_eq (v : PeerView) (pgid : Nat) (release : Bool) :
    heartbeatBytes v pgid release = heartbeatBody v pgid release ++ be 4 (crc32c (heartbeatBody v pgid release)) := rfl

theorem heartbeatBytes_length (v : PeerView) (pgid : Nat) (release : Bool) : (heartbeatBytes v pgid release).length = 32 := by
  rw [heartbeatBytes_eq, List.length_append, heartbeatBody_length, be_length]

/-- The CRC-32C at the end is that of the bytes before it (R69). -/
theorem heartbeatBytes_crc (v : PeerView) (pgid : Nat) (release : Bool) :
    crc32c ((heartbeatBytes v pgid release).take 28) = beAt (heartbeatBytes v pgid release) 28 4 := by
  have crcLast := slice_append (b := []) (heartbeatBody_length v pgid release) (be_length 4 (crc32c (heartbeatBody v pgid release)))
  rw [List.append_nil] at crcLast
  rw [heartbeatBytes_eq, List.take_left' (heartbeatBody_length v pgid release), beAt, crcLast, ofBE_be]
  exact (Nat.mod_eq_of_lt (crc32c_lt _)).symm

/-- The fields of a heartbeat fit the bytes that R290 gives them. -/
structure PeerView.Fits (v : PeerView) : Prop where
  epoch : v.epoch < 256 ^ 2
  role : v.role < 256 ^ 1
  dev : v.dev < 256 ^ 1
  tree : v.tree < 256 ^ 1
  cycle : v.cycle < 256 ^ 6
  calLow : -2147483648 ≤ v.cal
  calHigh : v.cal ≤ 2147483647

theorem beAt_heartbeatBytes_pgid (v : PeerView) (release : Bool) {pgid : Nat} (fits : pgid < 256 ^ 2) :
    beAt (heartbeatBytes v pgid release) 0 2 = pgid := by
  simp only [heartbeatBytes_eq, heartbeatBody, List.append_assoc]
  exact beAt_be_first fits _

theorem beAt_heartbeatBytes_flags (v : PeerView) (pgid : Nat) (release : Bool) :
    beAt (heartbeatBytes v pgid release) 5 1 = heartbeatFlags release v.heard v.sf v.armed := by
  simp only [heartbeatBytes_eq, heartbeatBody, List.append_assoc]
  simp only [beAt_be_later, beAt_be_first, heartbeatFlags_lt, Nat.reduceLeDiff, Nat.reduceSub]

/-- Reading gives each field back, with the tick of reception. -/
theorem readHeartbeat_heartbeatBytes {v : PeerView} (fits : v.Fits) (pgid now : Nat) (release : Bool) :
    readHeartbeat (heartbeatBytes v pgid release) now = { v with at_ := now } := by
  obtain ⟨epoch, role, dev, tree, cycle, calLow, calHigh⟩ := fits
  obtain ⟨-, heard, sf, armed⟩ := bitOf_heartbeatFlags release v.heard v.sf v.armed
  have cal : (v.cal % (2 ^ 32 : Nat)).toNat < 256 ^ 4 := by omega
  unfold readHeartbeat
  simp only [beAt_heartbeatBytes_flags, heard, sf, armed]
  simp only [heartbeatBytes_eq, heartbeatBody, beInt_eq_be, List.append_assoc]
  simp only [beAt_be_later, beAt_be_first, epoch, role, dev, tree, cycle, cal, signed_32_of_range calLow calHigh, Nat.reduceLeDiff, Nat.reduceSub,
    Nat.reduceMul]

end Sys2Proof.Machine

open Sys2Proof Sys2Proof.Machine

/-- Settles O50: every field of R290 is read where it was written. -/
theorem heartbeatRoundTrip : Obligations.HeartbeatRoundTrip := by
  unfold Obligations.HeartbeatRoundTrip
  intro v pgid now release pgidFits epoch role dev tree cycle calLow calHigh
  have fits : v.Fits := ⟨epoch, role, dev, tree, cycle, calLow, calHigh⟩
  obtain ⟨releaseBit, -⟩ := bitOf_heartbeatFlags release v.heard v.sf v.armed
  refine ⟨_, rfl, heartbeatBytes_length v pgid release, readHeartbeat_heartbeatBytes fits pgid now release,
    beAt_heartbeatBytes_pgid v release pgidFits, ?_, heartbeatBytes_crc v pgid release⟩
  rw [beAt_heartbeatBytes_flags, releaseBit]
end

section
/-!
PROOFS. The selection of an egress point, a fragment abort, a calendar slot and the starvation of a DRR level (R84, R206 to R216, R225, R226, R451, R490).
-/
namespace Sys2Proof.Machine
open Sys2Proof

theorem exec_egressSelect (o : Egress) (s : State) :
    exec (.egressSelect o) s = .next { s with dev := (egressSelect o s.dev s.hostMem).1, hostMem := (egressSelect o s.dev s.hostMem).2 } := rfl

/-- A selection that leaves host memory as it is changes the device alone. -/
theorem exec_egressSelect_of_dev {o : Egress} {s : State} {d : Dev} (selected : egressSelect o s.dev s.hostMem = (d, s.hostMem)) :
    exec (.egressSelect o) s = .next (s.withDev d) := by
  rw [exec_egressSelect, selected]
  rfl

theorem exec_fragmentAbort (t : Nat) (s : State) : exec (.fragmentAbort t) s = .next (s.withDev (fragmentAbort t s.dev)) := rfl

theorem exec_calendarSlot (k : Nat) (s : State) : exec (.calendarSlot k) s = .next (s.withDev (calendarSlot k s.dev)) := rfl

theorem exec_drrStarve (p : Nat) (s : State) : exec (.drrStarve p) s = .next (s.withDev (drrStarve p s.dev)) := rfl

/-! ### Selection (R207) -/

section
variable {o : Egress} {d : Dev} (mem : List Host.Cell)

/-- While the pipelines are gated nothing is selected (R490); that this holds of host receive rings too is the model's choice (log entry 102). -/
theorem egressSelect_of_gated (gated : d.gated = true) : egressSelect o d mem = (d, mem) := if_pos gated

/-- At an attached tree the next header position is selected. -/
theorem egressSelect_tree (awake : d.gated = false) (tree : o.point < 0x40) (up : d.treeUp o.point = true) :
    egressSelect o d mem = (d.treeSelect o.point o.now, mem) := by
  simp only [egressSelect, awake, tree, up, Bool.false_eq_true, if_false, if_true]

/-- At a live uplink port or the service port its next frame is selected. -/
theorem egressSelect_uplink (awake : d.gated = false) (uplink : (0x40 ≤ o.point ∧ o.point < 0x60) ∨ o.point = 0xA4) (live : d.upLive o.point = true) :
    egressSelect o d mem = (d.upSelect o.point o.now, mem) := by
  have noTree : ¬ o.point < 0x40 := by omega
  have port : o.point < 0x60 ∨ o.point = 0xA4 := uplink.imp_left And.right
  simp only [egressSelect, awake, noTree, port, live, Bool.false_eq_true, if_false, if_true]

/-- What the levels of a point pick among its eligible queues, with the active list brought up to date (R206, R207). -/
def Dev.pickAt (d : Dev) (p now : Nat) : Option Nat × Dev :=
  let eligible := (d.linked p).filter (fun q => d.eligible p now q)
  Dev.firstPick p eligible (List.range 5) (d.refreshDrr p eligible)

/-- At the point of another device the pick, if there is one, goes over Towpath (R406). -/
theorem egressSelect_towpath (awake : d.gated = false) (low : 0x60 ≤ o.point) (high : o.point < 0xA0) (other : o.point - 0x60 ≠ d.dev.devAddr) :
    egressSelect o d mem =
      ((d.pickAt o.point o.now).1.elim (d.pickAt o.point o.now).2 (fun q => (d.pickAt o.point o.now).2.towSend o.point q o.now), mem) := by
  have noTree : ¬ o.point < 0x40 := by omega
  have noUplink : ¬ (o.point < 0x60 ∨ o.point = 0xA4) := by omega
  simp only [egressSelect, awake, noTree, noUplink, high, other, Bool.false_eq_true, if_false, if_true]
  unfold Dev.pickAt
  split
  next nothing => rw [nothing]; rfl
  next pick => rw [pick]; rfl

/-- At a host receive ring the ring's own selection runs (R451). -/
theorem egressSelect_ring (awake : d.gated = false) (low : 0xA0 ≤ o.point) (high : o.point < 0xA4) :
    egressSelect o d mem = d.ringSelect o mem := by
  have noTree : ¬ o.point < 0x40 := by omega
  have noUplink : ¬ (o.point < 0x60 ∨ o.point = 0xA4) := by omega
  have noTowpath : ¬ o.point < 0xA0 := by omega
  simp only [egressSelect, awake, noTree, noUplink, noTowpath, high, Bool.false_eq_true, if_false, if_true]

end

/-! ### Starvation (R225) -/

/-- A level that has sent nothing for a further STARVE ticks is counted and reported. -/
theorem drrStarve_of_starved {d : Dev} {p : Nat} (enabled : 0 < (d.point p).starve)
    (idle : (d.point p).starveSeen + (d.point p).starve ≤ (d.point p).idleRun) :
    drrStarve p d = ((d.modPoint p (fun y => { y with starveSeen := y.starveSeen + y.starve })).count 6 .drrStarve p).raise 0x331 (le 1 p) :=
  if_neg (by omega)

end Sys2Proof.Machine

open Sys2Proof Sys2Proof.Machine

/-- Settles O12: a selection by the kind of its point, the other three as their definitions give them. -/
theorem egressAndShaping : Obligations.EgressAndShaping := by
  unfold Obligations.EgressAndShaping
  refine ⟨fun s o awake tree up => ?tree, fun s o awake uplink live => ?uplink, ?towpath, fun s o awake low high => ?ring,
    fun s o gated => ?gated, fun s t => ?abort, ?slot, fun s p enabled idle => ?starve⟩
  case tree => exact exec_egressSelect_of_dev (egressSelect_tree s.hostMem awake tree up)
  case uplink => exact exec_egressSelect_of_dev (egressSelect_uplink s.hostMem awake uplink live)
  case towpath =>
    intro s o x d awake low high other picked
    have pick : s.dev.pickAt o.point o.now = (x, d) := picked
    have sent := egressSelect_towpath s.hostMem awake low high other
    rw [pick] at sent
    exact exec_egressSelect_of_dev sent
  case ring => rw [exec_egressSelect, egressSelect_ring s.hostMem awake low high]
  case gated => exact exec_egressSelect_of_dev (egressSelect_of_gated s.hostMem gated)
  case abort => exact exec_fragmentAbort t s
  case slot =>
    rintro s k _ _ _ rfl rfl rfl
    exact exec_calendarSlot k s
  case starve => rw [exec_drrStarve, drrStarve_of_starved enabled idle]
end

section
/-!
PROOFS. Hails, the end of a quiet window and the hold of an id (R113, R120, R121, R131).
-/
namespace Sys2Proof.Machine
open Sys2Proof

theorem exec_hailReceive (r : HailRx) (s : State) : exec (.hailReceive r) s = .next (s.withDev (hailReceive r s.dev)) := rfl

theorem exec_quietWindowEnd (t : Nat) (s : State) :
    exec (.quietWindowEnd t) s = .next (s.withDev ((quietWindowEnd t s.dev).syncDrr 0 (· == t))) := rfl

theorem exec_idHoldExpiry (t id : Nat) (s : State) : exec (.idHoldExpiry t id) s = .next (s.withDev (idHoldExpiry t id s.dev)) := rfl

/-! ### HAIL_RECEIVE -/

/-- The device when the energy of a stretch of line bits of a tree has been noted (R106). -/
def Dev.hear (d : Dev) (t : Nat) (bits : List Bool) : Dev := d.modLine t (fun l => { l with energy := l.energy || anyEnergy bits })

/-- In an open window the bursts of the line's bits are taken in their order (R113). -/
theorem hailReceive_of_open {d : Dev} {r : HailRx} {w : QwOpen}
    (inWindow : (d.tree r.tree).disc.windows.find? (fun w => decide (w.q ≤ d.now) && decide (d.now ≤ w.q + w.w)) = some w) :
    hailReceive r d = (bursts r.first r.bits).foldl (fun d e => d.hailBurst r.tree w r e) (d.hear r.tree r.bits) := by
  simp only [hailReceive, inWindow, Dev.hear]

/-- Outside every window line bits are no hails. -/
theorem hailReceive_of_closed {d : Dev} {r : HailRx}
    (outside : (d.tree r.tree).disc.windows.find? (fun w => decide (w.q ≤ d.now) && decide (d.now ≤ w.q + w.w)) = none) :
    hailReceive r d = d := by
  simp only [hailReceive, outside]

/-! ### QUIET_WINDOW_END -/

/-- The device when the window `w` of a tree is closed, COLL_SEEN being due in frame Q + W + 1 where it collided (R121). -/
def Dev.closeWindow (d : Dev) (t : Nat) (w : QwOpen) : Dev :=
  d.modTree t (fun x => { x with disc := { x.disc with
    windows := x.disc.windows.filter (fun v => v.q != w.q),
    collSeen := if w.collided then some (w.q + w.w + 1) else x.disc.collSeen } })

/-- A window that has ended is closed and its hails are handled in order of their ranges, those of one serial as duplicates (R120, R123). -/
theorem quietWindowEnd_of_ended {d : Dev} {t : Nat} {w : QwOpen} {hs : List Hail}
    (ended : (d.tree t).disc.windows.find? (fun w => decide (w.q + w.w ≤ d.now)) = some w)
    (byRange : hs = sortBy (fun (a b : Hail) => decide (a.d ≤ b.d)) w.hails) :
    quietWindowEnd t d = hs.foldl (fun (d : Dev) h =>
        d.handleHail t w.q (w.q + w.w + 1) (decide (1 < (hs.filter (fun k => k.serial == h.serial)).length))
          ((hs.filter (fun k => k.serial == h.serial)).head? == some h) h)
      (d.closeWindow t w) := by
  subst byRange
  unfold quietWindowEnd
  rw [ended]
  rfl

/-- The only hail of a serial that is not listed is deferred, logged and reported (R123, R143). -/
theorem handleHail_of_unlisted {d : Dev} {t : Nat} {h : Hail} (q f : Nat) (unlisted : (d.tree t).bySerial h.serial = none) :
    d.handleHail t q f false true h = ((d.modTree t (fun x =>
      (x.queueMsg (hailDefer h.serial h.nonce f)).logHail
        { cycle := q, serial := h.serial, range := h.d - 512, outcome := 2, id := 0xFF })).discEvent t 5 none (le 8 h.serial)) := by
  unfold Dev.handleHail
  rw [if_neg Bool.false_ne_true, unlisted]

/-! ### ID_HOLD_EXPIRY -/

section
variable {d : Dev} {t id : Nat} {h : IdHold} (held : (d.tree t).holds.find? (fun h => h.id == id) = some h) (expired : h.until_ ≤ d.now)
include held expired

/-- The hold of a dynamic id ends: no terminal keeps the id, and its keys are erased (R131, R371). -/
theorem idHoldExpiry_of_dynamic (dynamic : (d.tree t).terms.any (fun y => y.staticId == some id) = false) :
    idHoldExpiry t id d = (d.modTree t (fun x => { x with
      holds := x.holds.filter (fun k => k.id != id),
      terms := x.terms.map (fun y => if y.id == some id then { y with id := none } else y) })).eraseAll t id := by
  simp only [idHoldExpiry, held, Nat.not_lt.2 expired, dynamic, Bool.false_eq_true, if_false]

/-- A static id only loses its hold. -/
theorem idHoldExpiry_of_static (static : (d.tree t).terms.any (fun y => y.staticId == some id) = true) :
    idHoldExpiry t id d = d.modTree t (fun x => { x with holds := x.holds.filter (fun k => k.id != id) }) := by
  simp only [idHoldExpiry, held, Nat.not_lt.2 expired, static, if_true, if_false]

end

end Sys2Proof.Machine

open Sys2Proof Sys2Proof.Machine

/-- Settles O6: each clause is one case of the meaning of its event. -/
theorem hailOutcome : Obligations.HailOutcome := by
  unfold Obligations.HailOutcome
  refine ⟨fun s r w inWindow => ?inside, fun s r outside => ?outside, fun s t w ended => ⟨_, rfl, ?ended⟩,
    fun _ _ q f _ unlisted => handleHail_of_unlisted q f unlisted, fun s t id h held expired dynamic => ?dynamic,
    fun s t id h held expired static => ?static⟩
  case inside =>
    rw [exec_hailReceive, hailReceive_of_open inWindow]
    rfl
  case outside =>
    rw [exec_hailReceive, hailReceive_of_closed outside]
    rfl
  case ended =>
    rw [exec_quietWindowEnd, quietWindowEnd_of_ended ended rfl]
    rfl
  case dynamic => rw [exec_idHoldExpiry, idHoldExpiry_of_dynamic held expired dynamic]
  case static => rw [exec_idHoldExpiry, idHoldExpiry_of_static held expired static]
end

section
/-!
PROOFS. The place of a barge at the holder and at the standby, and the time limits of a terminal (R102, R107 to R109, R114, R126, R144, R302).
-/
namespace Sys2Proof.Machine
open Sys2Proof

theorem exec_bargeReceive (r : BargeRx) (s : State) :
    exec (.bargeReceive r) s = .next (s.withDev ((bargeReceive r s.dev).syncDrr 0 (· == r.tree))) := rfl

theorem exec_reasmTimeout (t id : Nat) (s : State) : exec (.reasmTimeout t id) s = .next (s.withDev (reasmTimeout t id s.dev)) := rfl

theorem exec_terminalLost (t n : Nat) (s : State) :
    exec (.terminalLost t n) s = .next (s.withDev ((terminalLost t n s.dev).syncDrr 0 (· == t))) := rfl

/-! ### BARGE_RECEIVE at the holder (R107 to R109) -/

@[simp] theorem Dev.hear_prot (d : Dev) (t : Nat) (bits : List Bool) : (d.hear t bits).prot = d.prot := rfl

/-- The command's place is the place `pl` of a lit attached tree that this device holds, and is not the calibration place. -/
structure Dev.AtPlace (d : Dev) (r : BargeRx) (pl : PlaceAt) : Prop where
  holder : (tget d.prot.ports r.tree).filter (fun p => p.state ≠ .holder) = none
  up : d.treeUp r.tree = true
  lit : (d.tree r.tree).lit = true
  notCal : d.calPlace r.tree ≠ some (r.tid, r.start)
  place : (d.tree r.tree).placeNow d.now r.tid r.start = some pl

/-- The tree of such a place is attached and lit. -/
theorem Dev.AtPlace.not_down {d : Dev} {r : BargeRx} {pl : PlaceAt} (here : d.AtPlace r pl) :
    ¬((!d.treeUp r.tree) = true ∨ (!(d.tree r.tree).lit) = true) := by
  simp [here.up, here.lit]

/-- The opening of the next window after the place, where its bits end (R109). -/
def Dev.cutAt (d : Dev) (r : BargeRx) (pl : PlaceAt) : Option Nat := (d.tree r.tree).nextOpening d.now pl.start

/-- The bits of the place: those before the cut. -/
def Dev.uncutBits (d : Dev) (r : BargeRx) (pl : PlaceAt) : List Bool := (d.cutAt r pl).elim r.bits (fun w => r.bits.take (w - r.first))

/-- What the hunt of the place with the tracked offset `o` ends in (R107). -/
def Dev.huntPlace (d : Dev) (r : BargeRx) (pl : PlaceAt) (o : Int) : Hunt := hunt r.first (d.uncutBits r pl) d.now r.tid pl.start o

/-- The tracked offset with which a terminal's place is hunted: none at a ranging place (R126). -/
def Term.huntOffset (y : Term) (pl : PlaceAt) : Int := if pl.kind = 2 then 0 else y.offset

section
variable {d e : Dev} {r : BargeRx} {pl : PlaceAt} (heard : d.hear r.tree r.bits = e) (here : e.AtPlace r pl)
include heard here

/-- At a shadow place energy is looked for (R144). -/
theorem bargeReceive_of_shadow (shadow : pl.kind = 8) :
    bargeReceive r d = e.shadowPlace r.tree r.tid r.start (anyEnergy (pl.bitsOf r.first r.bits)) := by
  unfold Dev.hear at heard
  simp only [bargeReceive, heard, here.holder, here.not_down, here.notCal, here.place, shadow, if_false, if_true]

/-- A granted place whose terminal is gone is hunted without a tracked offset and only counted, which is the model's choice (log entry 80). -/
theorem bargeReceive_of_gone (granted : pl.kind ≠ 8) (gone : (e.tree r.tree).byId r.tid = none) :
    bargeReceive r d = (e.countMiss r.tree (some r.tid) (e.huntPlace r pl 0)).modLine r.tree (fun l => { l with counted := true }) := by
  unfold Dev.hear at heard
  simp only [bargeReceive, heard, here.holder, here.not_down, here.notCal, here.place, granted, gone, if_false, Dev.huntPlace, Dev.uncutBits, Dev.cutAt]

variable {y : Term} (granted : pl.kind ≠ 8) (listed : (e.tree r.tree).byId r.tid = some y)
include granted listed

/-- A barge found is accepted, cut off at the next window that opens (R108, R109). -/
theorem bargeReceive_of_found {p : Nat} {h : HeadRead} (found : e.huntPlace r pl (y.huntOffset pl) = .found p h) :
    bargeReceive r d = e.accepted r.tree y pl p h ((lineAt r.first (e.uncutBits r pl) p).drop 64)
      ((e.cutAt r pl).elim false (fun w => decide (w ≤ r.first + r.bits.length))) := by
  unfold Dev.hear at heard
  simp only [Dev.huntPlace, Dev.uncutBits, Dev.cutAt, Term.huntOffset] at found ⊢
  simp only [bargeReceive, heard, here.holder, here.not_down, here.notCal, here.place, granted, listed, found, if_false]

/-- Any other outcome of the hunt is counted, and the place is missed (R107, R114). -/
theorem bargeReceive_of_missed {m : Hunt} (outcome : e.huntPlace r pl (y.huntOffset pl) = m) (missed : ∀ p h, m ≠ .found p h) :
    bargeReceive r d = (e.countMiss r.tree y.id m).placeMissed r.tree y pl (decide (m = .dark)) := by
  unfold Dev.hear at heard
  simp only [Dev.huntPlace, Dev.uncutBits, Dev.cutAt, Term.huntOffset] at outcome
  cases m with
  | found p h => exact absurd rfl (missed p h)
  | dark | delim | mismatch =>
    simp only [bargeReceive, heard, here.holder, here.not_down, here.notCal, here.place, granted, listed, outcome, if_false]

end

/-! ### BARGE_RECEIVE at the standby (R302) -/

/-- A device that does not hold the tree hunts in the place its mirror grants. -/
theorem bargeReceive_of_standby {d : Dev} {r : BargeRx} {p : Port} (port : tget d.prot.ports r.tree = some p) (standby : p.state ≠ .holder) :
    bargeReceive r d = (d.hear r.tree r.bits).standbyHunt r.tree p r := by
  have hunts : (tget (d.hear r.tree r.bits).prot.ports r.tree).filter (fun p => p.state ≠ .holder) = some p := by
    rw [Dev.hear_prot, port]
    exact Option.filter_some_pos (decide_eq_true standby)
  unfold Dev.hear at hunts ⊢
  simp only [bargeReceive, hunts]

/-! ### The time limits of a terminal -/

/-- Incomplete parcels whose last fragment has not come by the end of tick X + 16 go and are counted (R102; log entry 87). -/
theorem reasmTimeout_of_late {d : Dev} {t id : Nat} {y : Term} {late : List Reasm} (listed : (d.tree t).byId id = some y)
    (overdue : late = y.reasm.filter (fun r => decide (r.cycle + 16 < d.now))) (some_late : late ≠ []) :
    reasmTimeout t id d = (d.modTerm t y.serial (fun y => { y with
      reasm := y.reasm.filter (fun r => !decide (r.cycle + 16 < d.now)) })).countTerm t y.id .reasmTimeout late.length := by
  subst overdue
  have counted : (y.reasm.filter (fun r => decide (r.cycle + 16 < d.now))).length ≠ 0 := mt List.length_eq_zero_iff.1 some_late
  simp only [reasmTimeout, listed, counted, if_false]

/-- A terminal in service whose lost time has passed becomes LOST (R126). -/
theorem terminalLost_of_overdue {d : Dev} {t n : Nat} {y : Term} (listed : (d.tree t).bySerial n = some y) (serving : y.state = .inService)
    (overdue : y.aliveAt + lostTimeOf (d.tree t) y < d.now) : terminalLost t n d = d.becomeLost t y := by
  unfold terminalLost
  rw [listed]
  exact if_pos ⟨serving, overdue⟩

end Sys2Proof.Machine

open Sys2Proof Sys2Proof.Machine

/-- Settles O7: the hunt of a place by its kind, its terminal and its outcome, the hunt of a standby, and the two time limits. -/
theorem bargeAndLoss : Obligations.BargeAndLoss := by
  unfold Obligations.BargeAndLoss
  refine ⟨?found, ?missed, ?gone, ?shadow, fun s r p port standby => ?standby, fun s t id y late listed overdue some_late => ?late, ?lost⟩
  case found =>
    rintro s r d pl y w p h heard holder up lit notCal place granted listed rfl found
    subst heard
    rw [exec_bargeReceive, bargeReceive_of_found rfl ⟨holder, up, lit, notCal, place⟩ granted listed found]
    rfl
  case missed =>
    rintro s r d pl y w m heard holder up lit notCal place granted listed rfl outcome missed
    subst heard
    rw [exec_bargeReceive, bargeReceive_of_missed rfl ⟨holder, up, lit, notCal, place⟩ granted listed outcome missed]
    rfl
  case gone =>
    intro s r d pl heard holder up lit notCal place granted gone
    subst heard
    rw [exec_bargeReceive, bargeReceive_of_gone rfl ⟨holder, up, lit, notCal, place⟩ granted gone]
    rfl
  case shadow =>
    intro s r d pl heard holder up lit notCal place shadow
    subst heard
    rw [exec_bargeReceive, bargeReceive_of_shadow rfl ⟨holder, up, lit, notCal, place⟩ shadow]
    rfl
  case standby =>
    rw [exec_bargeReceive, bargeReceive_of_standby port standby]
    rfl
  case late => rw [exec_reasmTimeout, reasmTimeout_of_late listed overdue some_late]
  case lost =>
    rintro s t n x y rfl listed serving overdue
    rw [exec_terminalLost, terminalLost_of_overdue listed serving overdue]
end

section
/-!
PROOFS. The choice of the id that a hail receives (R124, R131).
-/
namespace Sys2Proof.Machine
open Sys2Proof

variable {x : Tree} {y : Term}

/-- A static id is the terminal's own. -/
theorem Tree.chooseId_of_static {i : Nat} (static : y.staticId = some i) : x.chooseId y = some i := by
  simp only [Tree.chooseId, static]

section
variable (dynamic : y.staticId = none) (noId : y.id = none)
include dynamic noId

/-- A dynamic terminal without an id receives the one held for its serial (R131). -/
theorem Tree.chooseId_of_held {h : IdHold} (held : x.holds.find? (fun h => h.serial == y.serial) = some h) : x.chooseId y = some h.id := by
  simp only [Tree.chooseId, dynamic, noId, held]

variable (unheld : x.holds.find? (fun h => h.serial == y.serial) = none)
include unheld

/-- Without a held id the ids are tried in rising order. -/
theorem Tree.chooseId_of_unheld : x.chooseId y = (List.range 256).find? (fun i => !x.idTaken y.serial i) := by
  simp only [Tree.chooseId, dynamic, noId, unheld]

/-- An id so found is free, and every lower one is taken. -/
theorem Tree.chooseId_lowest {i : Nat} (chosen : x.chooseId y = some i) :
    i < 256 ∧ x.idTaken y.serial i = false ∧ ∀ j, j < i → x.idTaken y.serial j = true := by
  rw [Tree.chooseId_of_unheld dynamic noId unheld, List.find?_range_eq_some] at chosen
  obtain ⟨free, below, lower⟩ := chosen
  exact ⟨List.mem_range.1 below, by simpa using free, fun j less => by simpa using lower j less⟩

/-- Where none is found every id is taken. -/
theorem Tree.idTaken_of_chooseId_none (exhausted : x.chooseId y = none) {j : Nat} (below : j < 256) : x.idTaken y.serial j = true := by
  rw [Tree.chooseId_of_unheld dynamic noId unheld, List.find?_range_eq_none] at exhausted
  simpa using exhausted j below

end

end Sys2Proof.Machine

open Sys2Proof Sys2Proof.Machine

/-- Settles O49: the static id, else the held one, else the first free one of the range. -/
theorem idChoice : Obligations.IdChoice := by
  unfold Obligations.IdChoice
  exact fun x y => ⟨fun i static => Tree.chooseId_of_static static,
    fun dynamic noId unheld => ⟨fun i chosen => Tree.chooseId_lowest dynamic noId unheld chosen,
      fun exhausted _ below => Tree.idTaken_of_chooseId_none dynamic noId unheld exhausted below⟩,
    fun h dynamic noId held => Tree.chooseId_of_held dynamic noId held⟩
end

section
/-!
PROOFS. The commands of a terminal (R126, R132, R141 to R143, R287): the case of each in which no check fails.
-/
namespace Sys2Proof.Machine
open Sys2Proof

/-! ### TERMINAL_ADMIT (R141) -/

/-- An id that a listing may carry: a dynamic one, or one of a byte that is free for the serial (R124, R141). -/
def Dev.AdmitIdOk (d : Dev) (r : AdmitReq) : Prop :=
  r.dynamic = true ∨ (r.id ≤ 255 ∧ (d.tree r.tree).idTaken r.serial r.id = false)

/-- A serial that is not listed is listed, with the id of the request or dynamic. -/
theorem terminalAdmit_lists {d : Dev} {r : AdmitReq} (up : d.treeUp r.tree = true) (unlisted : (d.tree r.tree).bySerial r.serial = none)
    (idOk : d.AdmitIdOk r) (lostOk : r.lostTime = 0 ∨ (8 ≤ r.lostTime ∧ r.lostTime ≤ 1048576)) (room : (d.tree r.tree).terms.length < 256)
    (ref : CmdRef) :
    terminalAdmit r ref d = (d.modTree r.tree (fun x => { x with
      terms := x.terms ++ [Term.listed_ r.serial (if r.dynamic then none else some r.id) r.fec r.lostTime] })).complete ref .ok := by
  have idValid : (!r.dynamic && (decide (255 < r.id) || (d.tree r.tree).idTaken r.serial r.id)) = false := by
    rcases idOk with dynamic | ⟨low, free⟩
    · simp [dynamic]
    · simp [free, low]
  have lostValid : (r.lostTime != 0 && (decide (r.lostTime < 8) || decide (1048576 < r.lostTime))) = false := by
    rcases lostOk with unset | ⟨low, high⟩
    · simp [unset]
    · simp [low, high]
  simp only [terminalAdmit, up, unlisted, idValid, lostValid, Nat.not_le.2 room, Option.isSome_none, Bool.not_true, Bool.or_false,
    Bool.false_eq_true, if_false]

/-! ### TERMINAL_REMOVE (R132, R142) -/

/-- The doze of a terminal that is dozing. -/
def Term.dozeNow (x : Term) : Option Doze := if x.state = .dozing then x.doze else none

/-- The frame from which REMOVE is sent: the next tick's, or 4 before a doze's first wake that it can still reach (R132, R135). -/
def Dev.removeAt (d : Dev) (t : Nat) (z : Option Doze) : Nat := z.elim (d.now + 1) (fun z => (d.tree t).wakeToName z d.nextFrame - 4)

/-- A tree from which the terminal `x` of an id is being removed: its grants are withdrawn, its id is held and REMOVE is queued. -/
def Dev.removingFrom (d : Dev) (r : RemoveReq) (x : Term) (id : Nat) (ref : CmdRef) (y : Tree) : Tree :=
  (((y.withdrawGrants x d.nextBuild).modTerm x.serial (fun v => { v with
      removing := some ref, doze := x.dozeNow.map (fun w => { w with goneFrom := some d.nextBuild }) })).hold x.serial id
    (d.now + holdTicks)).queueMsg { lockMsg id 0x15 2 (be 2 r.holdoff ++ be 1 1 ++ be 1 0) none [] .plain .remove x.serial
      (d.removeAt r.name.tree x.dozeNow) with ref := some ref }

section
variable {d : Dev} {r : RemoveReq} {x : Term} (up : d.treeUp r.name.tree = true) (named : (d.tree r.name.tree).named r.name = some x)
  (first : x.removing = none)
include up named first

/-- The first removal of a terminal without an id waits for the boundary (R132). -/
theorem terminalRemove_of_idless (idless : x.id = none) (ref : CmdRef) :
    terminalRemove r ref d = d.modTerm r.name.tree x.serial (fun y => { y with removing := some ref }) := by
  simp only [terminalRemove, up, named, first, idless, Option.isSome_none, Bool.not_true, Bool.false_eq_true, if_false]

/-- The first removal of a terminal with an id. -/
theorem terminalRemove_of_id {id : Nat} (hasId : x.id = some id) (ref : CmdRef) :
    terminalRemove r ref d = (d.modTree r.name.tree (d.removingFrom r x id ref)).clearBacklog r.name.tree id := by
  simp only [terminalRemove, up, named, first, hasId, Option.isSome_none, Bool.not_true, Bool.false_eq_true, if_false]
  rfl

end

/-! ### TERMINAL_STATUS and RANGE_REPORT (R142, R143) -/

/-- A listed terminal of an attached tree has a status. -/
theorem terminalStatus_answers {d : Dev} {n : TermName} {x : Term} (up : d.treeUp n.tree = true) (named : (d.tree n.tree).named n = some x)
    (ref : CmdRef) : terminalStatus n ref d = d.complete ref .ok (terminalStatusResp d n.tree x) := by
  simp only [terminalStatus, up, named, Bool.not_true, Bool.false_eq_true, if_false]

/-- The entries of a discovery log as RANGE_REPORT gives them: their number, then 24 bytes each. -/
def rangeReportResp (es : List HailLog) : Bytes :=
  le 4 es.length ++ es.flatMap (fun e => fromResp e.cycle ++ le 8 e.serial ++ le 4 e.range ++ le 1 e.outcome ++ le 1 e.id ++ le 2 0)

/-- The discovery log of an attached tree is read from FIRST on, up to 64 entries. -/
theorem rangeReport_answers {d : Dev} {t : Nat} (up : d.treeUp t = true) (first : Nat) (ref : CmdRef) :
    rangeReport t first ref d = d.complete ref .ok (rangeReportResp (((d.tree t).disc.log.drop first).take 64)) :=
  if_neg (by simp [up])

/-! ### TERMINAL_DOZE_POLICY (R142, R287) -/

/-- The device when the doze policy of a request stands for the terminal of a serial. -/
def Dev.withPolicy (d : Dev) (r : DozeReq) (serial : Nat) : Dev :=
  d.modTerm r.name.tree serial (fun y => { y with policy := { enable := r.enable, period := r.period, idle := r.idle } })

/-- A policy in range, or one that disables, replaces the terminal's. -/
theorem dozePolicy_of_ranges {d : Dev} {r : DozeReq} {x : Term} (up : d.treeUp r.name.tree = true)
    (named : (d.tree r.name.tree).named r.name = some x)
    (ranges : r.enable = true → 1 ≤ r.period ∧ r.period ≤ 4096 ∧ 1 ≤ r.idle ∧ r.idle ≤ 16384) (ref : CmdRef) :
    dozePolicy r ref d = (d.withPolicy r x.serial).complete ref .ok := by
  have valid : (r.enable && (r.period == 0 || decide (4096 < r.period) || r.idle == 0 || decide (16384 < r.idle))) = false := by
    cases enable : r.enable
    · rfl
    · obtain ⟨periodLow, periodHigh, idleLow, idleHigh⟩ := ranges enable
      simp [Nat.ne_of_gt periodLow, Nat.ne_of_gt idleLow, periodHigh, idleHigh]
  simp only [dozePolicy, up, named, valid, Bool.not_true, Bool.false_eq_true, if_false, Dev.withPolicy]

/-- On a tree outside a group it is the policy's body. -/
theorem terminalDozePolicy_of_unprotected {d : Dev} {r : DozeReq} (unprotected : d.port r.name.tree = none) (ref : CmdRef) :
    terminalDozePolicy r ref d = dozePolicy r ref d :=
  if_pos (Option.isNone_iff_eq_none.2 unprotected)

/-- On a tree of a group the tree is put back as it was (R287). -/
theorem terminalDozePolicy_of_protected {d : Dev} {r : DozeReq} (inGroup : (d.port r.name.tree).isSome = true) (ref : CmdRef) :
    terminalDozePolicy r ref d =
      { dozePolicy r ref d with trees := tset (dozePolicy r ref d).trees r.name.tree (d.tree r.name.tree) } :=
  if_neg (by simp [Option.isSome_iff_ne_none.1 inGroup])

end Sys2Proof.Machine

open Sys2Proof Sys2Proof.Machine

/-- Settles O19: a command of a served context runs its body, and each body is the case of its meaning in which the checks pass. -/
theorem terminalCommands : Obligations.TerminalCommands := by
  unfold Obligations.TerminalCommands
  refine ⟨?listing, ?removeIdless, ?remove, fun s ctx n x served up named => ?status, ?policy, fun s ctx t n served up => ?report⟩
  case listing =>
    intro s ctx r served up unlisted idOk lostOk room
    rw [exec_mailbox_served (body := terminalAdmit r) rfl served, terminalAdmit_lists (d := s.dev.begun ctx) up unlisted idOk lostOk room]
    rfl
  case removeIdless =>
    intro s ctx r x served up named first idless
    rw [exec_mailbox_served (body := terminalRemove r) rfl served, terminalRemove_of_idless (d := s.dev.begun ctx) up named first idless]
  case remove =>
    rintro s ctx r x id a z served up named first hasId rfl rfl
    rw [exec_mailbox_served (body := terminalRemove r) rfl served, terminalRemove_of_id (d := s.dev.begun ctx) up named first hasId]
    rfl
  case status =>
    rw [exec_mailbox_served (body := terminalStatus n) rfl served, terminalStatus_answers (d := s.dev.begun ctx) up named]
    rfl
  case policy =>
    intro s ctx r x served up named ranges
    have policy := dozePolicy_of_ranges (d := s.dev.begun ctx) up named ranges (s.dev.refOf ctx)
    rw [exec_mailbox_served (body := terminalDozePolicy r) rfl served]
    refine ⟨fun unprotected => ?_, fun inGroup => ?_⟩
    · rw [terminalDozePolicy_of_unprotected (d := s.dev.begun ctx) unprotected, policy]
      rfl
    · rw [terminalDozePolicy_of_protected (d := s.dev.begun ctx) inGroup, policy]
      rfl
  case report =>
    rw [exec_mailbox_served (body := rangeReport t n) rfl served, rangeReport_answers (d := s.dev.begun ctx) up]
    rfl
end

section
/-!
PROOFS. The start bit of a standing place (R145, R146, R149): the lowest bit at which a span fits is bit 0 or the end of a span, so the search among these
finds it.
-/
namespace Sys2Proof.Machine

/-- A span of `len` bits from bit `c` lies in the tick and shares no bit with the spans given (R145, R146). -/
def FitsAt (spans : List (Nat × Nat)) (len c : Nat) : Prop := inTick c len = true ∧ ∀ s ∈ spans, overlaps c len s.1 s.2 = false

theorem inTick_mono {b c len : Nat} (le : b ≤ c) (inside : inTick c len = true) : inTick b len = true := by
  simp only [inTick, decide_eq_true_eq] at inside ⊢
  omega

theorem overlaps_eq_true {a la b lb : Nat} : overlaps a la b lb = true ↔ a < b + lb ∧ b < a + la := by
  simp [overlaps]

/-- Where a span in the tick does not fit it shares a bit with one of the spans. -/
theorem exists_overlaps_of_not_fitsAt {spans : List (Nat × Nat)} {len b : Nat} (unfit : ¬FitsAt spans len b) (inside : inTick b len = true) :
    ∃ s ∈ spans, overlaps b len s.1 s.2 = true := by
  by_contra apart
  push Not at apart
  exact unfit ⟨inside, fun s mem => Bool.eq_false_iff.2 (apart s mem)⟩

/-- The first bits that the search tries: bit 0 and the ends of the spans, in rising order. -/
def startCands (spans : List (Nat × Nat)) : List Nat := sortBy (fun a b => decide (a ≤ b)) (0 :: spans.map (fun s => s.1 + s.2))

theorem startCands_sorted (spans : List (Nat × Nat)) : (startCands spans).Pairwise (fun a b => a ≤ b) :=
  sortBy_sorted (fun n => n) _

theorem mem_startCands {spans : List (Nat × Nat)} {c : Nat} : c ∈ startCands spans ↔ c = 0 ∨ ∃ s ∈ spans, s.1 + s.2 = c := by
  unfold startCands
  rw [(sortBy_perm _ _).mem_iff, List.mem_cons, List.mem_map]

/-- The lowest bit at which a span fits is tried: where it is not 0, a span that is met one bit lower ends there. -/
theorem mem_startCands_of_lowest {spans : List (Nat × Nat)} {len m : Nat} (fits : FitsAt spans len m) (lowest : ∀ b < m, ¬FitsAt spans len b) :
    m ∈ startCands spans := by
  rw [mem_startCands]
  cases m with
  | zero => exact .inl rfl
  | succ k =>
    obtain ⟨inside, apart⟩ := fits
    obtain ⟨s, mem, met⟩ := exists_overlaps_of_not_fitsAt (lowest k k.lt_succ_self) (inTick_mono k.le_succ inside)
    have free := mt overlaps_eq_true.2 (Bool.eq_false_iff.1 (apart s mem))
    have shared := overlaps_eq_true.1 met
    exact .inr ⟨s, mem, by omega⟩

/-- Where a span fits at some bit, it fits at a bit tried that is no higher. -/
theorem exists_startCand_le {spans : List (Nat × Nat)} {len b : Nat} (fits : FitsAt spans len b) :
    ∃ m ∈ startCands spans, m ≤ b ∧ FitsAt spans len m := by
  classical
  have some_bit : ∃ c, FitsAt spans len c := ⟨b, fits⟩
  exact ⟨Nat.find some_bit, mem_startCands_of_lowest (Nat.find_spec some_bit) (fun _ lower => Nat.find_min some_bit lower),
    Nat.find_min' some_bit fits, Nat.find_spec some_bit⟩

/-- What a search finds first in a list in rising order is the least element that it accepts. -/
theorem le_of_find?_sorted {l : List Nat} {p : Nat → Bool} {c m : Nat} (sorted : l.Pairwise (fun a b => a ≤ b)) (found : l.find? p = some c)
    (mem : m ∈ l) (accepted : p m = true) : c ≤ m := by
  obtain ⟨-, before, after, rfl, refused⟩ := List.find?_eq_some_iff_append.1 found
  rcases List.mem_append.1 mem with early | late
  · simpa [accepted] using refused m early
  · rcases List.mem_cons.1 late with rfl | later
    · exact Nat.le_refl m
    · exact List.rel_of_pairwise_cons (List.pairwise_append.1 sorted).2.1 later

/-- The test that the search makes of a bit. -/
def fitTest (spans : List (Nat × Nat)) (len c : Nat) : Bool := inTick c len && spans.all (fun s => !overlaps c len s.1 s.2)

theorem fitTest_iff {spans : List (Nat × Nat)} {len c : Nat} : fitTest spans len c = true ↔ FitsAt spans len c := by
  simp [fitTest, FitsAt]

theorem lowestFit_eq_find? (spans : List (Nat × Nat)) (len : Nat) : lowestFit spans len = (startCands spans).find? (fitTest spans len) := rfl

/-- The place fits at the bit found. -/
theorem fitsAt_of_lowestFit {spans : List (Nat × Nat)} {len c : Nat} (found : lowestFit spans len = some c) : FitsAt spans len c :=
  fitTest_iff.1 (List.find?_some (lowestFit_eq_find? spans len ▸ found))

/-- It fits at no lower bit. -/
theorem not_fitsAt_of_lt_lowestFit {spans : List (Nat × Nat)} {len b c : Nat} (found : lowestFit spans len = some c) (lower : b < c) :
    ¬FitsAt spans len b := by
  intro fits
  obtain ⟨m, mem, le, accepted⟩ := exists_startCand_le fits
  have least := le_of_find?_sorted (startCands_sorted spans) (lowestFit_eq_find? spans len ▸ found) mem (fitTest_iff.2 accepted)
  omega

/-- Where no bit is found, it fits at none. -/
theorem not_fitsAt_of_lowestFit_none {spans : List (Nat × Nat)} {len : Nat} (none_found : lowestFit spans len = none) (b : Nat) :
    ¬FitsAt spans len b := by
  intro fits
  obtain ⟨m, mem, -, accepted⟩ := exists_startCand_le fits
  exact List.find?_eq_none.1 (lowestFit_eq_find? spans len ▸ none_found) m mem (fitTest_iff.2 accepted)

end Sys2Proof.Machine

open Sys2Proof.Machine

/-- Settles O47: the bit found is the lowest that fits, and a bit in the tick that does not fit meets a span. -/
theorem lowestStart : Obligations.LowestStart := by
  unfold Obligations.LowestStart
  exact fun spans len => ⟨fun c found => ⟨fitsAt_of_lowestFit found,
      fun b lower inside => exists_overlaps_of_not_fitsAt (not_fitsAt_of_lt_lowestFit found lower) inside⟩,
    fun none_found b inside => exists_overlaps_of_not_fitsAt (not_fitsAt_of_lowestFit_none none_found b) inside⟩
end

section
/-!
PROOFS. The collision check (R144 to R146, R165): the entries it lets stand are those that can be listed one after another, each beside the spans before it.
-/
namespace Sys2Proof.Machine

variable {fecOf : Nat → Bool} {limit : Nat} {ok : Grant → Bool}

/-- The first bit and the length of a grant's place (R144). -/
def Grant.span (fecOf : Nat → Bool) (g : Grant) : Nat × Nat := (g.start - 320, placeCost (fecOf g.tid) g.ncw)

/-- The tests of R165 of one entry, beside the spans and the terminals listed before it. -/
structure Grant.Passes (fecOf : Nat → Bool) (limit : Nat) (ok : Grant → Bool) (spans : List (Nat × Nat)) (tids : List Nat) (g : Grant) : Prop where
  start : 320 ≤ g.start
  inside : inTick (g.span fecOf).1 (g.span fecOf).2 = true
  apart : ∀ s ∈ spans, overlaps (g.span fecOf).1 (g.span fecOf).2 s.1 s.2 = false
  room : tids.length < limit
  size : g.ncw ≤ cwMax (fecOf g.tid)
  state : ok g = true
  unnamed : g.tid ∉ tids

/-- A list of entries each of which passes beside the spans, the terminals and the entries before it. -/
inductive Stands (fecOf : Nat → Bool) (limit : Nat) (ok : Grant → Bool) : List (Nat × Nat) → List Nat → List Grant → Prop
  | nil (spans : List (Nat × Nat)) (tids : List Nat) : Stands fecOf limit ok spans tids []
  | cons {spans : List (Nat × Nat)} {tids : List Nat} {g : Grant} {rest : List Grant} (first : g.Passes fecOf limit ok spans tids)
      (others : Stands fecOf limit ok (g.span fecOf :: spans) (g.tid :: tids) rest) : Stands fecOf limit ok spans tids (g :: rest)

/-- The check lets a list of entries stand that do. -/
theorem checkGrants_stands (gs : List Grant) (spans : List (Nat × Nat)) (tids : List Nat) :
    Stands fecOf limit ok spans tids (checkGrants fecOf limit ok gs spans tids).1 := by
  induction gs generalizing spans tids with
  | nil => exact .nil spans tids
  | cons g rest ih =>
    simp only [checkGrants]
    split
    next passes =>
      simp only [Bool.and_eq_true, decide_eq_true_eq, List.all_eq_true, Bool.not_eq_true', List.contains_eq_mem, decide_eq_false_iff_not] at passes
      obtain ⟨⟨⟨⟨⟨⟨start, inside⟩, apart⟩, room⟩, size⟩, state⟩, unnamed⟩ := passes
      exact .cons ⟨start, inside, apart, room, size, state, unnamed⟩ (ih _ _)
    next => exact ih spans tids

namespace Stands

variable {spans : List (Nat × Nat)} {tids : List Nat} {gs : List Grant}

/-- With the terminals listed before them the entries are no more than the limit. -/
theorem length_le (stands : Stands fecOf limit ok spans tids gs) (within : tids.length ≤ limit) : gs.length + tids.length ≤ limit := by
  induction stands with
  | nil => simpa using within
  | cons first _ ih =>
    have counted := ih first.room
    simp only [List.length_cons] at counted ⊢
    omega

/-- The terminals that the entries name are named once, and not before. -/
theorem tids_nodup (stands : Stands fecOf limit ok spans tids gs) :
    (gs.map (fun g => g.tid)).Nodup ∧ ∀ g ∈ gs, g.tid ∉ tids := by
  induction stands with
  | nil => simp
  | @cons spans tids g rest first _ ih =>
    obtain ⟨once, unnamed⟩ := ih
    have other : ∀ h ∈ rest, h.tid ≠ g.tid := fun h mem same => unnamed h mem (same ▸ List.mem_cons_self)
    refine ⟨?_, ?_⟩
    · rw [List.map_cons, List.nodup_cons]
      exact ⟨fun again => by obtain ⟨h, mem, same⟩ := List.mem_map.1 again; exact other h mem same, once⟩
    · rw [List.forall_mem_cons]
      exact ⟨first.unnamed, fun h mem before => unnamed h mem (List.mem_cons_of_mem _ before)⟩

/-- Every entry passed the tests of its place and of its terminal, and meets none of the spans. -/
theorem passes (stands : Stands fecOf limit ok spans tids gs) :
    ∀ g ∈ gs, 320 ≤ g.start ∧ inTick (g.span fecOf).1 (g.span fecOf).2 = true ∧ ok g = true ∧
      ∀ s ∈ spans, overlaps (g.span fecOf).1 (g.span fecOf).2 s.1 s.2 = false := by
  induction stands with
  | nil => simp
  | cons first _ ih =>
    rw [List.forall_mem_cons]
    refine ⟨⟨first.start, first.inside, first.state, first.apart⟩, fun g mem => ?_⟩
    obtain ⟨start, inside, state, apart⟩ := ih g mem
    exact ⟨start, inside, state, fun s before => apart s (List.mem_cons_of_mem _ before)⟩

/-- An entry meets none of those before it: their places are among the spans it is checked beside. -/
theorem pairwise_apart (stands : Stands fecOf limit ok spans tids gs) :
    gs.Pairwise (fun a b => overlaps (b.span fecOf).1 (b.span fecOf).2 (a.span fecOf).1 (a.span fecOf).2 = false) := by
  induction stands with
  | nil => exact .nil
  | @cons _ _ g _ _ others ih =>
    refine .cons (fun b mem => ?_) ih
    obtain ⟨-, -, -, apart⟩ := others.passes b mem
    exact apart (g.span fecOf) List.mem_cons_self

end Stands

end Sys2Proof.Machine

open Sys2Proof.Machine

/-- Settles O48: the entries that stand after the check are listed one after another from no terminal, so each property holds of them. -/
theorem checkedGrantsAreApart : Obligations.CheckedGrantsAreApart := by
  unfold Obligations.CheckedGrantsAreApart
  intro fecOf limit ok gs spans
  have stands : Stands fecOf limit ok spans [] _ := checkGrants_stands gs spans []
  exact ⟨stands.length_le (Nat.zero_le limit), stands.tids_nodup.1, stands.passes, stands.pairwise_apart⟩
end

section
/-!
PROOFS. GRANT_SET (R149 to R151, R160, R173, R174): what each operation does at its boundary, one lemma per case of its meaning, and the request that spells it.
-/
namespace Sys2Proof.Machine
open Sys2Proof

/-- A GRANT_SET command of a served context waits for the next boundary (R21 step 4). -/
theorem exec_grantSet_waits {s : State} {ctx : Nat} {i : Instr} {change : CmdRef → CfgChange}
    (runs : exec i s = s.onDev (fun d => d.mailbox ctx 0x0403 (fun ref d => d.later (change ref)))) (served : s.dev.served ctx 0x0403 = true) :
    exec i s = .next (s.waiting ctx (change (s.dev.refOf ctx))) :=
  exec_mailbox_served runs served

/-! ### WEIR and CADENCE (R173) -/

/-- A WEIR with operands in range is a standing change of one place that is due in every tick. -/
theorem applyWeir_of_ranges {d : Dev} {r : WeirReq} (up : d.treeUp r.tree = true) (size : r.ncw ≤ 8) (ref : CmdRef) :
    d.applyWeir ref r = d.standingChange ref r.tree r.id (fun s => s.weir.map (fun w => (w.start, w.ncw, 1, 0)))
      (if r.ncw = 0 then none else some (r.ncw, 1, 0, r.start)) (fun s b => { s with weir := b.map (fun b => { ncw := r.ncw, start := b }) }) :=
  if_neg (by simp [up, size])

/-- Period, phase and hint of a CADENCE that does not remove its place are in range. -/
structure CadencePeriodic (r : CadenceReq) : Prop where
  low : 2 ≤ r.n
  high : r.n ≤ 256
  phase : r.phase < r.n
  hint : r.hint.elim true (fun f => decide (f ≤ 131071)) = true

/-- The check of R173 refuses none of them. -/
theorem CadencePeriodic.valid {r : CadenceReq} (periodic : CadencePeriodic r) :
    (decide (r.n < 2) || decide (256 < r.n) || decide (r.n ≤ r.phase) || r.hint.elim false (fun f => decide (131071 < f))) = false := by
  obtain ⟨low, high, phase, hint⟩ := periodic
  have hintOk : r.hint.elim false (fun f => decide (131071 < f)) = false := by
    cases hinted : r.hint with
    | none => rfl
    | some f => simpa [hinted] using hint
  simp [show 1 < r.n from low, high, phase, hintOk]

/-- A CADENCE with operands in range is a standing change of the place in its slot. -/
theorem applyCadence_of_ranges {d : Dev} {r : CadenceReq} (up : d.treeUp r.tree = true) (slot : r.slot ≤ 3) (size : r.ncw ≤ 805)
    (periodic : r.ncw ≠ 0 → CadencePeriodic r) (ref : CmdRef) :
    d.applyCadence ref r = d.standingChange ref r.tree r.id (fun s => (tget s.cads r.slot).map (fun c => (c.start, c.ncw, c.n, c.phase)))
      (if r.ncw = 0 then none else some (r.ncw, r.n, r.phase, r.start))
      (fun s b => { s with cads := b.elim (tdel s.cads r.slot) (fun b =>
        tset s.cads r.slot { n := r.n, phase := r.phase, ncw := r.ncw, start := b, hint := r.hint }) }) := by
  have valid : (r.ncw != 0 && (decide (r.n < 2) || decide (256 < r.n) || decide (r.n ≤ r.phase) ||
      r.hint.elim false (fun f => decide (131071 < f)))) = false := by
    by_cases removes : r.ncw = 0
    · simp [removes]
    · rw [(periodic removes).valid, Bool.and_false]
  unfold Dev.applyCadence
  rw [if_neg (by simp only [up, Nat.not_lt.2 slot, Nat.not_lt.2 size, valid, Bool.not_true, decide_false, Bool.or_self, Bool.false_eq_true,
    not_false_iff])]
  refine congrArg (d.standingChange ref r.tree r.id _ _) (funext fun s => funext fun b => ?_)
  cases b <;> rfl

/-! ### Standing changes (R149 to R151, R174) -/

/-- The place of the terminal `y` with the id `id` that a change replaces or removes. -/
def Term.ownPlace (y : Term) (id : Nat) (old : StandSet → Option (Nat × Nat × Nat × Nat)) : List Standing :=
  (old y.set).elim [] (fun p => [{ tid := id, start := p.1, ncw := p.2.1, fec := y.fecNeed, n := p.2.2.1, phase := p.2.2.2 }])

/-- The places beside which the new one must fit; the own old place of a set that has returned is one of them, which is the model's choice (log entry 116). -/
def Tree.placesBeside (x : Tree) (y : Term) (id : Nat) (old : StandSet → Option (Nat × Nat × Nat × Nat)) : List Standing :=
  if y.setReturned then x.standing else x.standing.filter (fun s => !(y.ownPlace id old).contains s)

/-- The end of a change that is accepted: the set goes into force with its table, whose frame completes the command; the table of a terminal about to enter
IN_SERVICE is sent again, which is the model's choice (log entry 48); any other set is only kept. -/
def Dev.acceptSet (d : Dev) (ref : CmdRef) (t : Nat) (y : Term) (start : Nat) (set : StandSet) : Dev :=
  if y.serving d.now || y.state == .dozing then d.putInForce t y.serial y.set set (some ref) (grantResp (d.now + 5) start)
  else if y.setReturned then (d.putInForce t y.serial y.set set none []).complete ref .ok (grantResp d.now start)
  else (d.modTerm t y.serial (fun z => { z with set })).complete ref .ok (grantResp d.now start)

section
variable {d : Dev} {t id : Nat} {old : StandSet → Option (Nat × Nat × Nat × Nat)} {y : Term} (listed : (d.tree t).byId id = some y)
  (ref : CmdRef) (update : StandSet → Option Nat → StandSet)
include listed

/-- A removal is accepted. -/
theorem standingChange_removes : d.standingChange ref t id old none update = d.acceptSet ref t y 0 (update y.set none) := by
  unfold Dev.standingChange
  rw [listed]
  rfl

variable {ncw n phase b : Nat}

/-- A pinned start that is free is accepted where the load fits. -/
theorem standingChange_pins (free : startOk ((d.tree t).placesBeside y id old) n phase b (placeCost y.fecNeed ncw) = true)
    (load : d.loadOk t ({ tid := id, start := b, ncw, fec := y.fecNeed, n, phase } :: (d.tree t).placesBeside y id old) (d.tree t).keep.gq
      (d.tree t).keep.poll = true) :
    d.standingChange ref t id old (some (ncw, n, phase, some b)) update = d.acceptSet ref t y b (update y.set (some b)) := by
  unfold Tree.placesBeside Term.ownPlace at free load
  simp only [Dev.standingChange, listed, free, load, Bool.not_true, Bool.false_eq_true, if_false, Dev.acceptSet]

/-- One not pinned is chosen, where the load fits. -/
theorem standingChange_chooses (chosen : chooseStart ((d.tree t).placesBeside y id old) n phase (placeCost y.fecNeed ncw) = some b)
    (load : d.loadOk t ({ tid := id, start := 320, ncw, fec := y.fecNeed, n, phase } :: (d.tree t).placesBeside y id old) (d.tree t).keep.gq
      (d.tree t).keep.poll = true) :
    d.standingChange ref t id old (some (ncw, n, phase, none)) update = d.acceptSet ref t y b (update y.set (some b)) := by
  unfold Tree.placesBeside Term.ownPlace at chosen load
  simp only [Dev.standingChange, listed, chosen, load, Bool.not_true, Bool.false_eq_true, if_false, Dev.acceptSet]

end

/-! ### REPORTED, BEST and DEFAULT (R160, R173, R174) -/

/-- A flow of an attached tree and a class that may be named. -/
structure Dev.NamesQueue (d : Dev) (r : QueueGrantReq) : Prop where
  up : d.treeUp r.tree = true
  flow : d.grantFlowOk r.tree r.flow = true
  low : 1 ≤ r.cls
  high : r.cls ≤ 7

/-- The records of grants of the request's tree once its queue has the record `q`. -/
def Dev.grantQueues (d : Dev) (r : QueueGrantReq) (q : GrantQ) : Tbl GrantQ := tset (d.tree r.tree).keep.gq (r.flow * 8 + r.cls) q

/-- The request's queue takes the record `q`, and the command completes. -/
def Dev.setQueueGrant (d : Dev) (ref : CmdRef) (r : QueueGrantReq) (q : GrantQ) : Dev :=
  (d.modTree r.tree (fun x => { x with keep := { x.keep with gq := d.grantQueues r q } })).complete ref .ok (grantResp d.now 0)

/-- The record of the request's queue before it. -/
def Dev.grantQueueOf (d : Dev) (r : QueueGrantReq) : GrantQ := tgetD (d.tree r.tree).keep.gq (r.flow * 8 + r.cls) GrantQ.dflt

/-- The record under DEFAULT. -/
def GrantQ.asDefault (q : GrantQ) : GrantQ := { q with mode := 0, weight := 1, ar := 0, pr := 0, a := 0, p := 0 }

/-- The record under BEST. -/
def GrantQ.asBest (q : GrantQ) (weight : Nat) : GrantQ := { q with mode := 1, weight, ar := 0, pr := 0, a := 0, p := 0 }

/-- The record under REPORTED: credits held before stay, up to the new rates' limits. -/
def GrantQ.asReported (q : GrantQ) (r : QueueGrantReq) : GrantQ :=
  if q.mode = 2 then { q with weight := r.weight, ar := r.ar, pr := r.pr, a := minInt q.a (8 * r.ar), p := minInt q.p (8 * r.pr) }
  else { q with mode := 2, weight := r.weight, ar := r.ar, pr := r.pr, a := 0, p := 0 }

section
variable {d : Dev} {r : QueueGrantReq} (ref : CmdRef)

/-- A flow that is not of the tree is refused, whatever the mode. -/
theorem applyQueueGrant_of_foreign_flow (foreign : d.grantFlowOk r.tree r.flow = false) (mode : Nat) :
    d.applyQueueGrant ref mode r = d.complete ref .invalid :=
  if_pos (by simp [foreign])

variable (names : d.NamesQueue r)
include names

/-- DEFAULT. -/
theorem applyQueueGrant_default : d.applyQueueGrant ref 0 r = d.setQueueGrant ref r (d.grantQueueOf r).asDefault := by
  obtain ⟨up, flow, low, high⟩ := names
  unfold Dev.applyQueueGrant
  rw [if_neg (by simp [up, flow, high, Nat.ne_of_gt low]), if_neg (by simp)]
  rfl

variable (weightLow : 1 ≤ r.weight) (weightHigh : r.weight ≤ 255)
include weightLow weightHigh

/-- BEST with a weight in range. -/
theorem applyQueueGrant_best : d.applyQueueGrant ref 1 r = d.setQueueGrant ref r ((d.grantQueueOf r).asBest r.weight) := by
  obtain ⟨up, flow, low, high⟩ := names
  unfold Dev.applyQueueGrant
  rw [if_neg (by simp [up, flow, high, weightHigh, Nat.ne_of_gt low, Nat.ne_of_gt weightLow]), if_neg (by simp)]
  rfl

/-- REPORTED with a weight and rates in range sets its record where the load of the tree with it fits (R150, R174). -/
theorem applyQueueGrant_reported (peak : r.pr ≤ 186992) (assured : r.ar ≤ r.pr) (some_peak : r.pr ≠ 0) :
    d.applyQueueGrant ref 2 r =
      if d.loadOk r.tree (d.tree r.tree).standing (d.grantQueues r ((d.grantQueueOf r).asReported r)) (d.tree r.tree).keep.poll then
        d.setQueueGrant ref r ((d.grantQueueOf r).asReported r)
      else d.complete ref .noResource := by
  obtain ⟨up, flow, low, high⟩ := names
  unfold Dev.applyQueueGrant
  rw [if_neg (by simp [up, flow, high, weightHigh, Nat.ne_of_gt low, Nat.ne_of_gt weightLow, peak, assured, some_peak, assured.trans peak])]
  change (if 2 = 2 ∧ (!d.loadOk r.tree _ (d.grantQueues r ((d.grantQueueOf r).asReported r)) _) = true then _
    else d.setQueueGrant ref r ((d.grantQueueOf r).asReported r)) = _
  by_cases load : d.loadOk r.tree (d.tree r.tree).standing (d.grantQueues r ((d.grantQueueOf r).asReported r)) (d.tree r.tree).keep.poll = true
  · rw [if_pos load]
    exact if_neg (by simp [load])
  · rw [if_neg load]
    exact if_pos (by simp [load])

end

/-! ### TREE_PARAMS (R173) -/

/-- POLL in range, with 8 for 0, is set where the load of the tree with it fits. -/
theorem applyTreeParams_of_load {d : Dev} {t poll : Nat} (up : d.treeUp t = true) (high : poll ≤ 64)
    (load : d.loadOk t (d.tree t).standing (d.tree t).keep.gq (if poll = 0 then 8 else poll) = true) (ref : CmdRef) :
    d.applyTreeParams ref t poll =
      (d.modTree t (fun x => { x with keep := { x.keep with poll := if poll = 0 then 8 else poll } })).complete ref .ok (grantResp d.now 0) := by
  unfold Dev.applyTreeParams
  rw [if_neg (by simp [up, high])]
  exact if_neg (by simp [load])

/-! ### The request (R173) -/

/-- An operation above 5 spells no command. -/
theorem grantSetOf_of_unlisted {ctx : Nat} {b : Bytes} (unlisted : 6 ≤ leAt b 1 1) : grantSetOf ctx b = none := by
  obtain ⟨k, operation⟩ := Nat.exists_eq_add_of_le' unlisted
  simp only [grantSetOf, operation]

end Sys2Proof.Machine

open Sys2Proof Sys2Proof.Machine

/-- Settles O23: each command waits, each change is the case of its meaning in which the checks pass, and each operation byte is an arm of the request. -/
theorem grantCommands : Obligations.GrantCommands := by
  unfold Obligations.GrantCommands
  refine ⟨fun s ctx r served => exec_grantSet_waits (change := (.weir · r)) rfl served,
    fun s ctx r served => exec_grantSet_waits (change := (.cadence · r)) rfl served,
    fun s ctx r served => exec_grantSet_waits (change := (.reported · r)) rfl served,
    fun s ctx r served => exec_grantSet_waits (change := (.best · r)) rfl served,
    fun s ctx r served => exec_grantSet_waits (change := (.dfltGrant · r)) rfl served,
    fun s ctx t p served => exec_grantSet_waits (change := (.treeParams · t p)) rfl served,
    fun d ref r up size => applyWeir_of_ranges up size ref, ?cadence, ?standing, ?queue, ?request, fun d ref r foreign => ?foreign, ?params⟩
  case cadence =>
    intro d ref r up slot size periodic
    exact applyCadence_of_ranges up slot size (fun kept => by obtain ⟨low, high, phase, hint⟩ := periodic kept; exact ⟨low, high, phase, hint⟩) ref
  case standing =>
    rintro d ref t id old want update y _ _ _ listed rfl rfl rfl
    refine ⟨?_, ?_, ?_⟩
    · rintro rfl
      exact standingChange_removes listed ref update
    · rintro ncw n phase b rfl free load
      exact standingChange_pins listed ref update free load
    · rintro ncw n phase b rfl chosen load
      exact standingChange_chooses listed ref update chosen load
  case queue =>
    rintro d ref r _ _ up flow low high rfl rfl
    have names : d.NamesQueue r := ⟨up, flow, low, high⟩
    refine ⟨applyQueueGrant_default ref names, applyQueueGrant_best ref names, ?_⟩
    rintro _ weightLow weightHigh peak assured some_peak rfl
    exact applyQueueGrant_reported ref names weightLow weightHigh peak assured some_peak
  case request =>
    refine fun ctx b => ⟨fun op => by simp only [grantSetOf, op], fun op => by simp only [grantSetOf, op], ?_,
      fun op => by simp only [grantSetOf, op], grantSetOf_of_unlisted⟩
    rintro _ rfl
    exact ⟨fun op => by simp only [grantSetOf, op], fun op => by simp only [grantSetOf, op], fun op => by simp only [grantSetOf, op]⟩
  case foreign =>
    exact ⟨applyQueueGrant_of_foreign_flow ref foreign 1, applyQueueGrant_of_foreign_flow ref foreign 2, applyQueueGrant_of_foreign_flow ref foreign 0⟩
  case params =>
    rintro d ref t p _ up high rfl load
    exact applyTreeParams_of_load up high load ref
end

section
/-!
PROOFS. What a unit that arrives on a Towpath link does (R168, R288, R308, R309, R367, R394, R395, R406, R409): its reception, then one lemma per unit type and
case.
-/
namespace Sys2Proof.Machine
open Sys2Proof

/-! ### What the events run -/

theorem exec_unitCrcDrop (k : Nat) (s : State) : exec (.unitCrcDrop k) s = .next (s.withDev (unitCrcDrop k s.dev)) := rfl

theorem exec_towpathDataRx (r : TowRx) (lane : Nat) (s : State) : exec (.towpathDataRx r lane) s = .next (s.withDev (towpathDataRx r lane s.dev)) := rfl

theorem exec_twinUnitRx (r : TowRx) (s : State) : exec (.twinUnitRx r) s = .next (s.withDev (twinUnitRx r s.dev)) := rfl

theorem exec_claimRx (r : TowRx) (s : State) : exec (.claimRx r) s = .next (s.withDev (claimRx r s.dev)) := rfl

theorem exec_bulkSegmentRx (r : TowRx) (s : State) : exec (.bulkSegmentRx r) s = .next (s.withDev (bulkSegmentRx r s.dev)) := rfl

theorem exec_bulkSegmentTimeout (src object now : Nat) (s : State) :
    exec (.bulkSegmentTimeout src object now) s = .next (s.withDev (bulkTimeout src object now s.dev)) := rfl

theorem exec_voidRx (r : TowRx) (s : State) : exec (.voidRx r) s = .next (s.withDev (voidRx r s.dev)) := rfl

theorem exec_mgmtUnitRx (r : TowRx) (s : State) : exec (.mgmtUnitRx r) s = .next (s.withDev (mgmtUnitRx r s.dev)) := rfl

/-! ### Reception (R394, R395, R399, R403) -/

/-- Units of the class missing before this one, modulo 2^24. -/
def Dev.seqGap (d : Dev) (r : TowRx) (typ : Nat) : Nat :=
  (lget (d.link r.link).lseqRx (linkClass typ) none).elim 0 (fun p => (r.lseq + 2 ^ 24 - (p + 1) % 2 ^ 24) % 2 ^ 24)

/-- The counts of a unit that arrives. -/
def Dev.countUnit (d : Dev) (r : TowRx) : Dev := (d.count 17 .towRxUnits r.link).count 17 .towRxBytes r.link (r.payload.length + 20)

/-- What every unit does on arrival on an up link: the counts, the gap, the sequence number, and the room it leaves in the link buffer. -/
def Dev.unitArrived (d : Dev) (r : TowRx) (typ : Nat) : Dev :=
  ((if d.seqGap r typ = 0 then d.countUnit r else (d.countUnit r).count 17 .towSeqGap r.link (d.seqGap r typ)).modLink r.link
    (fun l => { l with lseqRx := lset l.lseqRx (linkClass typ) (some r.lseq) })).towFree r.link (linkClass typ) r.payload.length

@[simp] theorem Dev.modLink_dev (d : Dev) (k : Nat) (f : TowLink → TowLink) : (d.modLink k f).dev = d.dev := rfl
@[simp] theorem Dev.modLink_isolated (d : Dev) (k : Nat) (f : TowLink → TowLink) : (d.modLink k f).tow.isolated = d.tow.isolated := rfl
@[simp] theorem Dev.towFree_dev (d : Dev) (k c n : Nat) : (d.towFree k c n).dev = d.dev := rfl
@[simp] theorem Dev.towFree_isolated (d : Dev) (k c n : Nat) : (d.towFree k c n).tow.isolated = d.tow.isolated := rfl
@[simp] theorem Dev.countUnit_dev (d : Dev) (r : TowRx) : (d.countUnit r).dev = d.dev := rfl
@[simp] theorem Dev.countUnit_tow (d : Dev) (r : TowRx) : (d.countUnit r).tow = d.tow := rfl

/-- An arrival leaves the device's own settings. -/
@[simp] theorem Dev.unitArrived_dev (d : Dev) (r : TowRx) (typ : Nat) : (d.unitArrived r typ).dev = d.dev := by
  rw [Dev.unitArrived, Dev.towFree_dev, Dev.modLink_dev, apply_ite Dev.dev, Dev.count_dev, Dev.countUnit_dev, ite_self]

/-- It leaves the isolation of the device. -/
@[simp] theorem Dev.unitArrived_isolated (d : Dev) (r : TowRx) (typ : Nat) : (d.unitArrived r typ).tow.isolated = d.tow.isolated := by
  rw [Dev.unitArrived, Dev.towFree_isolated, Dev.modLink_isolated, apply_ite Dev.tow, Dev.count_tow, Dev.countUnit_tow, ite_self]

section
variable {d : Dev} {r : TowRx} {typ : Nat} (low : r.link < 8) (up : (d.link r.link).up = true)
include low up

/-- On an up link the unit has arrived; its type, the isolation of either side and its address then say whose it is. -/
theorem towAccept_of_up : d.towAccept r typ =
    if typ = 3 then (d.unitArrived r typ, true)
    else if (d.link r.link).peerIso then (d.unitArrived r typ, false)
    else if typ = 4 then (d.unitArrived r typ, true)
    else if (d.unitArrived r typ).tow.isolated then (d.unitArrived r typ, false)
    else if r.dst = (d.unitArrived r typ).dev.devAddr then (d.unitArrived r typ, true)
    else if r.hops = 0 then (((d.unitArrived r typ).countDev .towHopDrop).raiseFirst 0x264, false)
    else ((d.unitArrived r typ).routeUnit { dst := r.dst, src := r.src, typ, hops := r.hops - 1, cls := r.cls, payload := r.payload }, false) := by
  unfold Dev.towAccept
  exact if_neg (by simp [up, low])

/-- A HELLO is accepted; where the partner is not isolated, so is an LSA, and in a device that is not isolated a unit with its address. -/
theorem towAccept_local (mine : typ = 3 ∨ ((d.link r.link).peerIso = false ∧ (typ = 4 ∨ (d.tow.isolated = false ∧ r.dst = d.dev.devAddr)))) :
    d.towAccept r typ = (d.unitArrived r typ, true) := by
  rw [towAccept_of_up low up, Dev.unitArrived_dev, Dev.unitArrived_isolated]
  by_cases hello : typ = 3
  · rw [if_pos hello]
  · obtain ⟨joined, mine⟩ := mine.resolve_left hello
    rw [if_neg hello, joined, if_neg Bool.false_ne_true]
    by_cases lsa : typ = 4
    · rw [if_pos lsa]
    · obtain ⟨open_, addressed⟩ := mine.resolve_left lsa
      rw [if_neg lsa, open_, if_neg Bool.false_ne_true, if_pos addressed]

/-- Another device's unit goes on with one hop less, or is dropped at none. -/
theorem towAccept_transit (noHello : typ ≠ 3) (noLsa : typ ≠ 4) (joined : (d.link r.link).peerIso = false) (open_ : d.tow.isolated = false)
    (other : r.dst ≠ d.dev.devAddr) :
    d.towAccept r typ = (if r.hops = 0 then ((d.unitArrived r typ).countDev .towHopDrop).raiseFirst 0x264 else
      (d.unitArrived r typ).routeUnit { dst := r.dst, src := r.src, typ, hops := r.hops - 1, cls := r.cls, payload := r.payload }, false) := by
  rw [towAccept_of_up low up, Dev.unitArrived_dev, Dev.unitArrived_isolated, if_neg noHello, joined, if_neg Bool.false_ne_true, if_neg noLsa, open_,
    if_neg Bool.false_ne_true, if_neg other]
  split <;> rfl

end

/-- A unit whose CRCs do not fit is counted and dropped (R394, R409). -/
theorem unitCrcDrop_of_up {d : Dev} {k : Nat} (low : k < 8) (up : (d.link k).up = true) :
    unitCrcDrop k d = (d.count 17 .towCrcDrop k).raiseFirst (0x242 + 4 * k) :=
  if_neg (by simp [up, low])

/-! ### DATA units (R17, R309, R406) -/

/-- Where no pair placed at this device has the flow, the search finds none. -/
theorem find?_pair_of_none {pairs : Tbl Pair} {here : Pair → Bool} {flow : Nat} (unpaired : ∀ e ∈ pairs, here e.2 = true → e.2.flowA ≠ flow) :
    pairs.find? (fun e => here e.2 && e.2.flowA == flow) = none := by
  rw [List.find?_eq_none]
  intro e mem found
  obtain ⟨placed, same⟩ := Bool.and_eq_true_iff.1 found
  exact unpaired e mem placed (eq_of_beq same)

section
variable {d e : Dev} {r : TowRx} {flow cls : Nat} (accepted : d.towAccept r 0 = (e, true))
include accepted

/-- A unit without a flow goes through the pipeline. -/
theorem towpathDataRx_of_unclassified (unclassified : r.cls = none) (lane : Nat) :
    towpathDataRx r lane d = e.pipeline (Pkt.make r.payload 3 r.link (0x4028 + r.link) (72 + r.link) lane r.now) := by
  unfold towpathDataRx
  rw [accepted, unclassified]
  rfl

variable (classified : r.cls = some (flow, cls))
include classified

/-- A unit of a flow outside the pairs sequenced here is queued. -/
theorem towpathDataRx_of_unpaired (unpaired : ∀ x ∈ e.prot.pairs, x.2.seqHere = true → x.2.flowA ≠ flow) (lane : Nat) :
    towpathDataRx r lane d = e.enqueue
      { data := r.payload, req := 72 + r.link, version := 0, input := 3, port := r.link, twinTag := none, copies := [(flow, cls)], now := r.now } := by
  have none_found := find?_pair_of_none (here := Pair.seqHere) unpaired
  simp only [towpathDataRx, accepted, classified, none_found, Bool.not_true, Bool.false_eq_true, if_false]
  rfl

/-- A unit of a pair sequenced here is copied. -/
theorem towpathDataRx_of_paired {k : Nat} {p : Pair} (paired : e.prot.pairs.find? (fun x => x.2.seqHere && x.2.flowA == flow) = some (k, p)) (lane : Nat) :
    towpathDataRx r lane d = e.twinCopy (Pkt.make r.payload 3 r.link (0x4028 + r.link) (72 + r.link) lane r.now) p cls := by
  simp only [towpathDataRx, accepted, classified, paired, Bool.not_true, Bool.false_eq_true, if_false]

end

/-! ### TWIN units (R308, R406) -/

section
variable {d e : Dev} {r : TowRx} {flow cls : Nat} (accepted : d.towAccept r 1 = (e, true)) (classified : r.cls = some (flow, cls))
include accepted classified

/-- A unit of a downstream flow, or of one that this device does not pair, is queued with its tag. -/
theorem twinUnitRx_of_downstream (down : (∃ f, e.flow flow = some f ∧ f.dir = 0) ∨ ∀ x ∈ e.prot.pairs, x.2.pairHere = true → x.2.flowA ≠ flow) :
    twinUnitRx r d = e.enqueue
      { data := r.payload.drop 4, req := 72 + r.link, version := 0, input := 3, port := r.link, twinTag := some (beAt r.payload 0 4),
        copies := [(flow, cls)], now := r.now } := by
  have none_takes : (if (e.flow flow).elim true (fun f => f.dir != 0) = true then e.prot.pairs.find? (fun x => x.2.pairHere && x.2.flowA == flow) else none) =
      none := by
    rcases down with ⟨f, listed, dir⟩ | unpaired
    · rw [listed]
      exact if_neg (by simp [dir])
    · rw [find?_pair_of_none (here := Pair.pairHere) unpaired, ite_self]
  simp only [twinUnitRx, accepted, classified, if_true, none_takes]

/-- A unit for the pairing of this device is delivered where it is the first copy (R308). -/
theorem twinUnitRx_of_paired {k : Nat} {p : Pair} (upstream : ∀ f, e.flow flow = some f → f.dir ≠ 0)
    (paired : e.prot.pairs.find? (fun x => x.2.pairHere && x.2.flowA == flow) = some (k, p)) {b : Bool} {y : Dev}
    (copied : e.pairCopy k (beAt r.payload 0 4) 0 r.now = (b, y)) :
    twinUnitRx r d = if b = true then y.enqueue
      { data := r.payload.drop 4, req := 72 + r.link, version := 0, input := 3, port := r.link, twinTag := none, copies := [(flow, cls)], now := r.now }
      else y := by
  have up : (e.flow flow).elim true (fun f => f.dir != 0) = true := by
    cases listed : e.flow flow with
    | none => rfl
    | some f => exact bne_iff_ne.2 (upstream f listed)
  simp only [twinUnitRx, accepted, classified, if_true, up, paired, copied]

end

/-- A claim for an attached tree of this device is taken (R168). -/
theorem claimRx_of_own_tree {d e : Dev} {r : TowRx} (accepted : d.towAccept r 5 = (e, true)) (own : beAt r.payload 10 2 / 64 = d.dev.devAddr)
    (up : e.treeUp (beAt r.payload 10 2 % 64) = true) :
    claimRx r d = e.takeClaim (beAt r.payload 10 2 % 64)
      { g := beAt r.payload 0 2, q := beAt r.payload 2 6, w := beAt r.payload 8 1, y := beAt r.payload 9 1 } := by
  simp only [claimRx, accepted, own, up, and_self, if_true]

/-! ### Bulk segments (R366, R367, R406) -/

/-- The object of a segment. -/
def segObject (r : TowRx) : Nat := beAt r.payload 0 6

/-- The number of a segment in its object. -/
def segNumber (r : TowRx) : Nat := beAt r.payload 6 2

/-- What follows the head of a segment: the encrypted bytes and their tag. -/
def segBody (r : TowRx) : Bytes := r.payload.drop 16

/-- The segment decrypted under a fabric key where its tag verifies. -/
def Dev.openSegment (d : Dev) (key : BitVec 256) (r : TowRx) : Option Bytes :=
  gcmOpen key.toNat (bulkIv d.sec.fabricSalt r.src (segObject r) (segNumber r)) (r.payload.take 16) ((segBody r).take ((segBody r).length - 16))
    (BitVec.ofNat 128 (ofBE ((segBody r).drop ((segBody r).length - 16))))

/-- The object of a segment as it is listed at the receiver. -/
def Dev.listedObject (d : Dev) (r : TowRx) : Option BulkRx := d.tow.bulk.find? (fun b => b.src == r.src && b.object == segObject r)

/-- The reception of a segment's object before it: for its first segment, a new one. -/
def Dev.objectOf (d : Dev) (r : TowRx) : BulkRx :=
  (d.listedObject r).getD { src := r.src, object := segObject r, consumer := beAt r.payload 8 1, next := 0, last := 0, void := false, released := [] }

/-- The segment has passed a cipher pipeline. -/
def Dev.segCiphered (d : Dev) (r : TowRx) : Dev := d.cipherUse 2 r.link r.payload.length (d.clk r.now) true

/-- The device once the segment's object is listed. -/
def Dev.withObject (d : Dev) (r : TowRx) : Dev :=
  { d with tow := { d.tow with bulk := if (d.listedObject r).isNone = true then d.tow.bulk ++ [d.objectOf r] else d.tow.bulk } }

/-- A failed tag is reported with a free SA number, which is the model's choice (log entry 102). -/
def Dev.reportTagFail (d : Dev) : Dev := d.draw.2.raiseFirst 0x2C4 (le 2 (d.draw.1 % 2 ^ 16))

section
variable {d e : Dev} {r : TowRx} {key : BitVec 256} (accepted : d.towAccept r 7 = (e, true)) (keyed : e.sec.fabricKey = some key)
  (alive : ((e.segCiphered r).objectOf r).void = false) (unfinished : ((e.segCiphered r).objectOf r).complete = false)
include accepted keyed alive unfinished

/-- The next segment of an object, with its tag verified, is released; which segment is the last is the model's choice (log entry 113). -/
theorem bulkSegmentRx_of_verified {t : Bytes} (next : ((e.segCiphered r).objectOf r).next = segNumber r) (opened : e.openSegment key r = some t) :
    bulkSegmentRx r d = ((e.segCiphered r).withObject r).modBulk r.src (segObject r) (fun y =>
      { y with
        next := segNumber r + 1, last := ((e.segCiphered r).withObject r).clk r.now, released := y.released ++ t,
        complete := decide (t.length < 4096 ∨ segNumber r = 65535 ∨ Config.bulkLast r.src (segObject r) (segNumber r) = true) }) := by
  unfold Dev.withObject Dev.openSegment Dev.objectOf Dev.listedObject Dev.segCiphered segObject segNumber segBody at *
  simp only [bulkSegmentRx, accepted, keyed, alive, unfinished, next, opened, Bool.not_true, Bool.false_eq_true, or_self, ne_eq, not_true_eq_false, if_false]

/-- A segment whose tag fails is reported; it voids an object of which a segment was released, and any other keeps waiting (R367). -/
theorem bulkSegmentRx_of_failed (failed : e.openSegment key r = none) :
    bulkSegmentRx r d =
      if ((e.segCiphered r).objectOf r).released.isEmpty = true then
        ((e.segCiphered r).withObject r).reportTagFail.modBulk r.src (segObject r) (fun y =>
          { y with last := ((e.segCiphered r).withObject r).reportTagFail.clk r.now })
      else ((e.segCiphered r).withObject r).reportTagFail.voidObject ((e.segCiphered r).objectOf r) 1 := by
  unfold Dev.reportTagFail Dev.withObject Dev.openSegment Dev.objectOf Dev.listedObject Dev.segCiphered segObject segNumber segBody at *
  simp only [bulkSegmentRx, accepted, keyed, alive, unfinished, failed, Bool.not_true, Bool.false_eq_true, or_self, if_false]

end

/-- Ten milliseconds after its segment before, an object that is neither void nor complete is voided (R367). -/
theorem bulkTimeout_of_late {d : Dev} {src object now : Nat} {b : BulkRx} (listed : d.tow.bulk.find? (fun b => b.src == src && b.object == object) = some b)
    (alive : b.void = false) (unfinished : b.complete = false) (late : b.last + 10 * clocksPerMs ≤ d.clk now) :
    bulkTimeout src object now d = d.voidObject b 2 := by
  unfold bulkTimeout
  rw [listed]
  exact if_pos ⟨by simp [alive], by simp [unfinished], late⟩

/-! ### VOID and MGMT units -/

/-- The sender of a void object notes it (R367). -/
theorem voidRx_of_accepted {d e : Dev} {r : TowRx} (accepted : d.towAccept r 8 = (e, true)) :
    voidRx r d = { e with tow := { e.tow with voided := e.tow.voided ++ [(r.src, beAt r.payload 0 8)] } } := by
  simp only [voidRx, accepted, if_true]

/-- A management unit waits for its consumer. -/
theorem mgmtUnitRx_of_accepted {d e : Dev} {r : TowRx} (accepted : d.towAccept r 9 = (e, true)) :
    mgmtUnitRx r d = { e with tow := { e.tow with mgmt := e.tow.mgmt ++ [(r.src, r.payload)] } } := by
  simp only [mgmtUnitRx, accepted, if_true]

end Sys2Proof.Machine

open Sys2Proof Sys2Proof.Machine

/-- Settles O36: a unit is accepted or passed on at its arrival, and each type's event is the case of its meaning named by its hypotheses. -/
theorem towpathUnits : Obligations.TowpathUnits := by
  unfold Obligations.TowpathUnits
  refine ⟨?accepted, ?transit, fun s k low up => ?dropped, fun s r lane d accepted unclassified => ?unclassified,
    fun s r lane flow cls d accepted classified unpaired => ?unpaired, fun s r lane flow cls k p d accepted classified paired => ?paired,
    fun s r d flow cls accepted classified down => ?downstream,
    fun s r d y flow cls k p b accepted classified upstream paired copied => ?upstream, fun s r d accepted own up => ?claim, ?verified, ?failed,
    fun s b src object now listed alive unfinished late => ?late, fun s r d accepted => ?void, fun s r d accepted => ?mgmt⟩
  case accepted =>
    rintro d _ _ r typ _ _ low up rfl rfl rfl rfl mine
    exact towAccept_local low up mine
  case transit =>
    rintro d _ _ r typ _ _ low up rfl rfl rfl rfl noHello noLsa joined open_ other
    exact towAccept_transit low up noHello noLsa joined open_ other
  case dropped => rw [exec_unitCrcDrop, unitCrcDrop_of_up low up]
  case unclassified => rw [exec_towpathDataRx, towpathDataRx_of_unclassified accepted unclassified]
  case unpaired => rw [exec_towpathDataRx, towpathDataRx_of_unpaired accepted classified unpaired]
  case paired => rw [exec_towpathDataRx, towpathDataRx_of_paired accepted classified paired]
  case downstream => rw [exec_twinUnitRx, twinUnitRx_of_downstream accepted classified down]
  case upstream => rw [exec_twinUnitRx, twinUnitRx_of_paired accepted classified upstream paired copied]
  case claim => rw [exec_claimRx, claimRx_of_own_tree accepted own up]
  case verified =>
    rintro s r d _ _ key _ t accepted keyed rfl rfl rfl alive unfinished next opened
    rw [exec_bulkSegmentRx, bulkSegmentRx_of_verified accepted keyed alive unfinished next opened]
    rfl
  case failed =>
    rintro s r d _ _ key _ accepted keyed rfl rfl rfl alive unfinished failed
    rw [exec_bulkSegmentRx, bulkSegmentRx_of_failed accepted keyed alive unfinished failed]
    rfl
  case late => rw [exec_bulkSegmentTimeout, bulkTimeout_of_late listed alive unfinished late]
  case void => rw [exec_voidRx, voidRx_of_accepted accepted]
  case mgmt => rw [exec_mgmtUnitRx, mgmtUnitRx_of_accepted accepted]
end

section
/-!
PROOFS. The time limits of requests to Sluice and the rinse of the HBM (R200, R492 to R494, R514).
-/
namespace Sys2Proof.Machine
open Sys2Proof

theorem exec_sluiceWait (s : State) : exec .sluiceWait s = .next (s.withDev (sluiceWait s.dev)) := rfl

theorem exec_sluiceWaitLimit (s : State) : exec .sluiceWaitLimit s = .next (s.withDev (sluiceWaitLimit s.dev)) := rfl

theorem exec_hbmRinseStart (s : State) : exec .hbmRinseStart s = .next (s.withDev (rinseStart s.dev)) := rfl

theorem exec_hbmRinseDone (clean : Bool) (s : State) : exec (.hbmRinseDone clean) s = .next (s.withDev (hbmRinseDone clean s.dev)) := rfl

/-! ### The waits (R494, R514) -/

/-- A request that is due to be reported: it has waited 1 s and was not reported before. -/
def Dev.reportDue (d : Dev) (r : SluiceReq) : Bool := !r.reported && decide (r.since + Config.ticksPerSecond ≤ d.now)

/-- The requests that are due are marked as reported where they stand in the FIFO, then reported in its order. -/
theorem sluiceWait_eq (d : Dev) :
    sluiceWait d = (d.sluice.fifo.filter d.reportDue).foldl (fun d r => d.raise 0x3A1 (le 1 r.index ++ le 1 r.op.code))
      { d with sluice := { d.sluice with fifo := d.sluice.fifo.map (fun r => if d.reportDue r then { r with reported := true } else r) } } := rfl

/-- A request that has waited WAIT_LIMIT. -/
def Dev.waitOver (d : Dev) (r : SluiceReq) : Bool := decide (r.since + d.sluice.waitLimit * Config.ticksPerSecond ≤ d.now)

/-- The requests that have waited WAIT_LIMIT leave the FIFO, then each is refused and its operation dropped, in the FIFO's order. -/
theorem sluiceWaitLimit_eq (d : Dev) :
    sluiceWaitLimit d = (d.sluice.fifo.filter d.waitOver).foldl (fun d r => (d.notAdmitted r.index r.op.code).dropOp r)
      { d with sluice := { d.sluice with fifo := d.sluice.fifo.filter (fun r => !d.waitOver r) } } := rfl

/-! ### The rinse (R200, R493) -/

/-- In ACTIVE a rinse is requested where none waits and none runs. -/
theorem rinseStart_requests {d : Dev} (waits : d.sluice.fifo.any (fun r => r.op == .hbmRinse) = false)
    (runs : d.sluice.held.any (fun h => h.op == .hbmRinse && h.ended.isNone) = false) (active : d.dev.power = .active) :
    rinseStart d = (d.request .hbmRinse 14 none).1 := by
  unfold rinseStart
  rw [waits, runs, active]
  rfl

/-- A rinse that runs ends: its tokens are due for release, and the HBM is usable where the pass was clean. -/
theorem hbmRinseDone_of_running {d : Dev} (runs : d.sluice.held.any (fun h => h.op == .hbmRinse && h.ended.isNone) = true) (clean : Bool) :
    hbmRinseDone clean d =
      { d.endOp (fun o => o = .hbmRinse) with pool := { (d.endOp (fun o => o = .hbmRinse)).pool with hbmUsable := clean } } :=
  if_neg (by simp only [runs, Bool.not_true, Bool.false_eq_true, not_false_iff])

end Sys2Proof.Machine

open Sys2Proof Sys2Proof.Machine

/-- Settles O21: the two time limits act on the requests that are due, a rinse that nothing holds back is a request with room, and one that runs ends. -/
theorem sluiceAndRinse : Obligations.SluiceAndRinse := by
  unfold Obligations.SluiceAndRinse
  refine ⟨?reported, ?refused, fun s waits runs active room cost => ?starts, ?ends⟩
  case reported =>
    rintro s _ _ rfl rfl
    rw [exec_sluiceWait, sluiceWait_eq]
    rfl
  case refused =>
    rintro s _ _ rfl rfl
    rw [exec_sluiceWaitLimit, sluiceWaitLimit_eq]
    rfl
  case starts =>
    rw [exec_hbmRinseStart, rinseStart_requests waits runs active, request_waits _ _ _ _ room cost]
    rfl
  case ends =>
    rintro s clean _ runs rfl
    rw [exec_hbmRinseDone, hbmRinseDone_of_running runs]
end

section
/-!
PROOFS. FLOW_CREATE and FLOW_DELETE (R89, R197, R198): the case of each in which no check fails, and the boundary of a deletion.
-/
namespace Sys2Proof.Machine
open Sys2Proof

/-! ### FLOW_CREATE (R197) -/

/-- The terminal that the flow of a request leads to or from: DIR 2 names none. -/
def Dev.flowTerm (d : Dev) (r : FlowReq) : Option Term :=
  if r.dir ≤ 1 then (if d.treePresent r.tree then (d.tree r.tree).byId r.id else none) else none

/-- The serial that the flow of a request takes: its terminal's, or 0. -/
def Dev.flowSerial (d : Dev) (r : FlowReq) : Nat := (d.flowTerm r).elim 0 (fun x => x.serial)

/-- A request that FLOW_CREATE accepts (R197); `serial` is its terminal's, 0 where it names none. -/
structure Dev.Creatable (d : Dev) (r : FlowReq) (serial : Nat) : Prop where
  number : r.flow ≤ 131071
  unused : d.flow r.flow = none
  dir : r.dir ≤ 2
  terminal : r.dir ≤ 1 → d.treePresent r.tree = true ∧ ((d.tree r.tree).byId r.id).map (fun x => x.serial) = some serial
  noTerminal : r.dir = 2 → serial = 0
  egress : 1 ≤ r.dir → 0x40 ≤ r.egress ∧ r.egress ≤ 0xA4 ∧ d.pointPresent r.egress = true
  profiles : r.profile.any (fun p => decide (255 < p)) = false

/-- A request for DIR 0 or 1 names a listed terminal with the serial. -/
theorem Dev.Creatable.flowTerm_of_terminal {d : Dev} {r : FlowReq} {serial : Nat} (accepted : d.Creatable r serial) (named : r.dir ≤ 1) :
    ∃ x, d.flowTerm r = some x ∧ x.serial = serial := by
  obtain ⟨present, listed⟩ := accepted.terminal named
  obtain ⟨x, found, same⟩ := Option.map_eq_some_iff.1 listed
  exact ⟨x, by rw [Dev.flowTerm, if_pos named, if_pos present, found], same⟩

/-- The flow of a request that is accepted takes the serial. -/
theorem Dev.Creatable.flowSerial_eq {d : Dev} {r : FlowReq} {serial : Nat} (accepted : d.Creatable r serial) : d.flowSerial r = serial := by
  by_cases named : r.dir ≤ 1
  · obtain ⟨x, found, same⟩ := accepted.flowTerm_of_terminal named
    rw [Dev.flowSerial, found]
    exact same
  · have two : r.dir = 2 := Nat.le_antisymm accepted.dir (Nat.not_le.1 named)
    rw [Dev.flowSerial, Dev.flowTerm, if_neg named, accepted.noTerminal two]
    rfl

/-- No check of R197 refuses it. -/
theorem Dev.Creatable.not_refused {d : Dev} {r : FlowReq} {serial : Nat} (accepted : d.Creatable r serial) :
    ¬ (131071 < r.flow ∨ (d.flow r.flow).isSome ∨ 2 < r.dir ∨ (r.dir ≤ 1 ∧ (d.flowTerm r).isNone) ∨
      (1 ≤ r.dir ∧ !(decide (0x40 ≤ r.egress) && decide (r.egress ≤ 0xA4) && d.pointPresent r.egress)) ∨
      r.profile.any (fun p => decide (255 < p))) := by
  rintro (number | used | dir | ⟨named, unlisted⟩ | ⟨leaves, noEgress⟩ | profile)
  · exact Nat.not_lt.2 accepted.number number
  · simp [accepted.unused] at used
  · exact Nat.not_lt.2 accepted.dir dir
  · obtain ⟨x, found, -⟩ := accepted.flowTerm_of_terminal named
    simp [found] at unlisted
  · obtain ⟨low, high, present⟩ := accepted.egress leaves
    simp [low, high, present] at noEgress
  · rw [accepted.profiles] at profile
    exact Bool.false_ne_true profile

/-- The flow of a request as it is created: it accepts from the next frame and has no binding. -/
def Dev.newFlow (d : Dev) (r : FlowReq) (serial : Nat) : Flow :=
  { dir := r.dir, tree := r.tree, id := r.id, serial, egress := r.egress, accepting := true, acceptFrom := d.now + 1, bound := none,
    deleting := none, drain := false, drainUntil := 0, unbindWait := false, unbound := false }

/-- The device with the flow of a request: its eight queues have their profiles. -/
def Dev.withFlow (d : Dev) (r : FlowReq) (serial : Nat) : Dev :=
  (List.range 8).foldl (fun d k => d.modQueue (r.flow * 8 + k) (fun y => { y with profile := lget r.profile k 0 }))
    { d with pool := { d.pool with flows := tset d.pool.flows r.flow (d.newFlow r serial) } }

/-- FLOW_BIND is queued for the terminal of DIR 0 and 1, for the frame `from_` (R89). -/
def Dev.sendBind (d : Dev) (r : FlowReq) (serial from_ : Nat) : Dev :=
  if r.dir ≤ 1 then d.modTree r.tree (fun x => x.queueMsg (bindMsg r.id serial r.flow true from_)) else d

/-- Changing queues one after another leaves the clock. -/
theorem modQueue_foldl_clock (l : List Nat) (q : Nat → Nat) (f : Nat → Queue → Queue) (d : Dev) :
    (l.foldl (fun d k => d.modQueue (q k) (f k)) d).clock = d.clock := by
  induction l generalizing d with
  | nil => rfl
  | cons k l ih => exact ih (d.modQueue (q k) (f k))

/-- The new flow and its profiles leave the clock, so FLOW_BIND names the frame from which the flow accepts. -/
theorem Dev.withFlow_now (d : Dev) (r : FlowReq) (serial : Nat) : (d.withFlow r serial).now = d.now :=
  congrArg (·.cycle) (modQueue_foldl_clock _ _ _ _)

/-- FLOW_CREATE refuses a request or creates its flow, whose FLOW_BIND names the frame after the tick. -/
theorem flowCreate_eq (r : FlowReq) (ref : CmdRef) (d : Dev) :
    flowCreate r ref d =
      if 131071 < r.flow ∨ (d.flow r.flow).isSome ∨ 2 < r.dir ∨ (r.dir ≤ 1 ∧ (d.flowTerm r).isNone) ∨
          (1 ≤ r.dir ∧ !(decide (0x40 ≤ r.egress) && decide (r.egress ≤ 0xA4) && d.pointPresent r.egress)) ∨
          r.profile.any (fun p => decide (255 < p)) then d.complete ref .invalid
      else
        ((d.withFlow r (d.flowSerial r)).sendBind r (d.flowSerial r) ((d.withFlow r (d.flowSerial r)).now + 1)).complete ref .ok := by
  unfold flowCreate Dev.withFlow Dev.sendBind Dev.newFlow Dev.flowSerial Dev.flowTerm
  with_reducible rfl

/-- A request that is accepted creates its flow. -/
theorem flowCreate_creates {d : Dev} {r : FlowReq} {serial : Nat} (accepted : d.Creatable r serial) (ref : CmdRef) :
    flowCreate r ref d = ((d.withFlow r serial).sendBind r serial (d.now + 1)).complete ref .ok := by
  rw [flowCreate_eq, if_neg accepted.not_refused, accepted.flowSerial_eq, Dev.withFlow_now]

/-! ### FLOW_DELETE (R198) -/

/-- The first deletion of a flow marks it and waits for the boundary. -/
theorem flowDelete_waits {d : Dev} {r : FlowDelReq} {f : Flow} (known : d.flow r.flow = some f) (first : f.deleting = none)
    (drain : r.drain = true → 8 ≤ r.drainTicks ∧ r.drainTicks ≤ 65535) (ref : CmdRef) :
    flowDelete r ref d =
      ({ d with pool := { d.pool with flows := tset d.pool.flows r.flow { f with deleting := some ref } } } : Dev).later (.flowDelete ref r) := by
  have inRange : ¬ (r.drain = true ∧ (r.drainTicks < 8 ∨ 65535 < r.drainTicks)) := by
    rintro ⟨drains, short | long⟩
    · exact Nat.not_lt.2 (drain drains).1 short
    · exact Nat.not_lt.2 (drain drains).2 long
  unfold flowDelete
  rw [known]
  exact if_neg (by simp [first, inRange])

/-- The device when a flow accepts no more frames and its queues are kept, where they drain, until the time given. -/
def Dev.closedFlow (d : Dev) (r : FlowDelReq) (f : Flow) : Dev :=
  { d with pool := { d.pool with
    flows := tset d.pool.flows r.flow { f with accepting := false, drain := r.drain, drainUntil := d.now + r.drainTicks } } }

/-- At the boundary the flow is closed, and its queues are discarded where they do not drain. -/
theorem applyFlowDelete_of_flow {d : Dev} {r : FlowDelReq} {f : Flow} (known : d.flow r.flow = some f) :
    d.applyFlowDelete r =
      if r.drain then d.closedFlow r f else (List.range 8).foldl (fun d k => d.discardQueue (r.flow * 8 + k)) (d.closedFlow r f) := by
  unfold Dev.applyFlowDelete
  rw [known]
  rfl

end Sys2Proof.Machine

open Sys2Proof Sys2Proof.Machine

/-- Settles O22: a served request that is accepted creates its flow, the first deletion of a flow waits, and its boundary closes the flow. -/
theorem flowCommands : Obligations.FlowCommands := by
  unfold Obligations.FlowCommands
  refine ⟨?create, fun s ctx r f served known first drain => ?delete, ?boundary⟩
  case create =>
    rintro s ctx r serial _ served number unused dir terminal noTerminal egress profiles rfl
    have accepted : (s.dev.begun ctx).Creatable r serial := ⟨number, unused, dir, terminal, noTerminal, egress, profiles⟩
    rw [exec_mailbox_served (body := flowCreate r) rfl served, flowCreate_creates accepted]
    rfl
  case delete => rw [exec_mailbox_served (body := flowDelete r) rfl served, flowDelete_waits (d := s.dev.begun ctx) known first drain]; rfl
  case boundary =>
    rintro d _ ref r f known rfl
    exact applyFlowDelete_of_flow known
end

section
/-!
PROOFS. QUEUE_CONFIG, FEEDER_POLICY, POOL_CONFIG and the queue operations of SCHED_CONFIG (R199 to R201, R208, R224): the case of each in which no check
fails, and the boundaries of those that wait.
-/
namespace Sys2Proof.Machine
open Sys2Proof

/-! ### Commands that wait for the boundary (R199 to R201) -/

/-- A profile with a limit in range waits. -/
theorem profileSet_waits {r : ProfileReq} (number : r.profile ≤ 255) (low : 16384 ≤ r.maxBytes) (high : r.maxBytes ≤ 16777216) (ref : CmdRef)
    (d : Dev) : profileSet r ref d = d.later (.profileSet ref r) :=
  if_neg (by omega)

/-- A policy of one profile that R200 accepts. -/
structure SpillPolicy (r : FeederReq) : Prop where
  number : r.profile ≤ 255
  mode : r.mode ≤ 1
  spillLow : 81 ≤ r.spillHi
  spillHigh : r.spillHi ≤ 65535
  refillLow : 16 ≤ r.refillLo
  refillHigh : r.refillLo ≤ 65470
  apart : r.refillLo + 65 ≤ r.spillHi

/-- A policy waits: that of a profile with its fields in range, and that of the whole Feeder, which is not enabled over an HBM that is not usable. -/
theorem feederPolicy_waits {d : Dev} {r : FeederReq} (usable : r.profile = 0xFFFF → r.enable = true → d.pool.hbmUsable = true)
    (ranges : r.profile ≠ 0xFFFF → SpillPolicy r) (ref : CmdRef) : feederPolicy r ref d = d.later (.feeder ref r) := by
  have valid : ¬ (r.profile ≠ 0xFFFF ∧ (255 < r.profile ∨
      (!(decide (r.mode ≤ 1) && decide (81 ≤ r.spillHi) && decide (r.spillHi ≤ 65535) && decide (16 ≤ r.refillLo) &&
        decide (r.refillLo ≤ 65470) && decide (r.refillLo + 65 ≤ r.spillHi))) = true)) := by
    rintro ⟨one, bad⟩
    obtain ⟨number, mode, spillLow, spillHigh, refillLow, refillHigh, apart⟩ := ranges one
    simp [mode, spillLow, spillHigh, refillLow, refillHigh, apart, Nat.not_lt.2 number] at bad
  have allowed : ¬ (r.profile = 0xFFFF ∧ r.enable = true ∧ (!d.pool.hbmUsable) = true) := by
    rintro ⟨all, on, unusable⟩
    simp [usable all on] at unusable
  exact (if_neg valid).trans (if_neg allowed)

/-- Pool settings in range wait. -/
theorem poolWrite_waits {r : PoolReq} (weir : r.weirReserve ≤ 32768) (refill : r.refillReserve ≤ 32768) (requesters : r.quota.length = 83)
    (quotas : r.quota.any (fun q => decide (196608 < q)) = false) (ref : CmdRef) (d : Dev) : poolWrite r ref d = d.later (.poolWrite ref r) :=
  if_neg (by rw [requesters, quotas]; simp [weir, refill])

/-! ### Their boundaries -/

/-- The device with the Feeder on or off as a policy of the whole Feeder says: enabling it clears the fault. -/
def Dev.switchFeeder (d : Dev) (r : FeederReq) : Dev :=
  { d with pool := { d.pool with feederOn := r.enable, hbmFault := d.pool.hbmFault && !r.enable } }

/-- The device with the policy of one profile. -/
def Dev.setSpillPolicy (d : Dev) (r : FeederReq) : Dev :=
  { d with pool := { d.pool with
    profiles := tput d.pool.profiles r.profile QProfile.reset
      { d.qprofile r.profile with basinOnly := decide (r.mode = 1), spillHi := r.spillHi, refillLo := r.refillLo } } }

/-- The FEEDER_POLICY response: the queues with a spilled part and the reservoir cells in use. -/
def Dev.feederResp (d : Dev) : Bytes := le 4 (d.pool.queues.filter (fun e => e.2.spilled)).length ++ le 4 d.pool.resv.length

/-- The policy of the whole Feeder is written. -/
theorem applyFeeder_all {d : Dev} {r : FeederReq} (all : r.profile = 0xFFFF) (usable : r.enable = true → d.pool.hbmUsable = true) (ref : CmdRef) :
    d.applyFeeder ref r = (d.switchFeeder r).complete ref .ok (d.switchFeeder r).feederResp := by
  have allowed : ¬ (r.enable = true ∧ (!d.pool.hbmUsable) = true) := by
    rintro ⟨on, unusable⟩
    simp [usable on] at unusable
  exact (if_pos all).trans (if_neg allowed)

/-- The policy of a profile is written. -/
theorem applyFeeder_one {d : Dev} {r : FeederReq} (one : r.profile ≠ 0xFFFF) (ref : CmdRef) :
    d.applyFeeder ref r = (d.setSpillPolicy r).complete ref .ok (d.setSpillPolicy r).feederResp :=
  if_neg one

/-! ### Background writes (R199, R208, R224) -/

/-- BIND of a valid range begins. -/
theorem queueBind_begins {r : BindReq} (number : r.profile ≤ 255) (range : rangeOk r.first r.count = true) (ref : CmdRef) (d : Dev) :
    queueBind r ref d = d.addJob ref (.profile r.profile) r.first r.count :=
  if_neg (by simp [number, range])

/-- QUANTUM of a valid range begins. -/
theorem schedQuantum_begins {r : QuantumReq} (range : rangeOk r.first r.count = true) (low : 64 ≤ r.quantum) (high : r.quantum ≤ 65536) (ref : CmdRef)
    (d : Dev) : schedQuantum r ref d = d.addJob ref (.quantum r.quantum) r.first r.count :=
  if_neg (by simp [range, low, high])

/-- HIST of a valid range begins. -/
theorem schedHist_begins {r : HistReq} (range : rangeOk r.first r.count = true) (number : r.unit_ ≤ 1023) (scale : r.enable = true → r.nlog2 ≤ 16)
    (ref : CmdRef) (d : Dev) : schedHist r ref d = d.addJob ref (.hist r.enable r.unit_ r.nlog2) r.first r.count :=
  if_neg (by simp [range, number]; exact scale)

end Sys2Proof.Machine

open Sys2Proof Sys2Proof.Machine

/-- Settles O24: a command of a served context waits or begins its write, and each boundary is the case of its change in which no check fails. -/
theorem queueAndPoolCommands : Obligations.QueueAndPoolCommands := by
  unfold Obligations.QueueAndPoolCommands
  refine ⟨fun s ctx r served number low high => ?profile, fun _ _ _ => rfl, fun s ctx r served number range => ?bind,
    fun s ctx r served usable ranges => ?feeder, fun d d2 ref r usable all one => ?feederBoundary,
    fun s ctx r served weir refill requesters quotas => ?pool, fun _ _ _ => ⟨_, rfl, rfl⟩, fun s ctx served => ?read,
    fun s ctx r served range low high => ?quantum, fun s ctx r served range number scale => ?hist⟩
  case profile => rw [exec_mailbox_served (body := profileSet r) rfl served, profileSet_waits number low high]; rfl
  case bind => rw [exec_mailbox_served (body := queueBind r) rfl served, queueBind_begins number range]
  case feeder =>
    have policy (single : r.profile ≠ 0xFFFF) : SpillPolicy r := by
      obtain ⟨number, mode, spillLow, spillHigh, refillLow, refillHigh, apart⟩ := ranges single
      exact ⟨number, mode, spillLow, spillHigh, refillLow, refillHigh, apart⟩
    rw [exec_mailbox_served (body := feederPolicy r) rfl served, feederPolicy_waits (d := s.dev.begun ctx) usable policy]
    rfl
  case feederBoundary =>
    by_cases whole : r.profile = 0xFFFF
    · rw [all whole]
      exact applyFeeder_all whole (usable whole) ref
    · rw [one whole]
      exact applyFeeder_one whole ref
  case pool => rw [exec_mailbox_served (body := poolWrite r) rfl served, poolWrite_waits weir refill requesters quotas]; rfl
  case read => rw [exec_mailbox_served (body := fun ref d => d.complete ref .ok (poolResp d)) rfl served]; rfl
  case quantum => rw [exec_mailbox_served (body := schedQuantum r) rfl served, schedQuantum_begins range low high]
  case hist => rw [exec_mailbox_served (body := schedHist r) rfl served, schedHist_begins range number scale]
end

section
/-!
PROOFS. SHAPER_SET, SCHED_CONFIG POINT and GATE_LIST_SET (R217, R223, R224, R277, R278, R284): the case of each in which no check fails, and the boundaries
at which they take effect.
-/
namespace Sys2Proof.Machine
open Sys2Proof

/-! ### Shapers and policers (R217, R223) -/

/-- A shaper request with the operands of R223 in range. -/
structure ShaperSettings (r : ShaperReq) : Prop where
  mode : r.mode ≤ 2
  classes : r.classes ≤ 255
  shaping : r.mode = 1 → bitOf r.classes 0 = false
  demoting : r.mode = 2 → r.demote = true → 4 ≤ r.demoteClass ∧ r.demoteClass ≤ 7 ∧ bitOf r.classes r.demoteClass = false
  limits : r.mode ≠ 0 → 1 ≤ r.rate ∧ r.rate < 2 ^ 32 ∧ 1024 ≤ r.burst ∧ r.burst ≤ 16777216

/-- The settings of an existing flow's bucket wait. -/
theorem shaperSet_waits {d : Dev} {r : ShaperReq} (known : (d.flow r.bucket).isSome = true) (ranges : ShaperSettings r) (ref : CmdRef) :
    shaperSet r ref d = d.later (.shaper ref r) := by
  obtain ⟨mode, classes, shaping, demoting, limits⟩ := ranges
  have shaper : (r.mode == 1 && bitOf r.classes 0) = false := by
    simpa only [Bool.and_eq_false_imp, beq_iff_eq] using shaping
  have policer : (r.mode == 2 && r.demote &&
      (decide (r.demoteClass < 4) || decide (7 < r.demoteClass) || bitOf r.classes r.demoteClass)) = false := by
    simpa [Bool.and_eq_false_imp, and_assoc] using demoting
  have rated : (r.mode != 0 && (decide (r.rate < 1) || decide (2 ^ 32 ≤ r.rate) || decide (r.burst < 1024) || decide (16777216 < r.burst))) = false := by
    rw [Bool.and_eq_false_imp, bne_iff_ne]
    intro on
    obtain ⟨rateLow, rateHigh, burstLow, burstHigh⟩ := limits on
    rw [decide_eq_false (Nat.not_lt.2 rateLow), decide_eq_false (Nat.not_le.2 rateHigh), decide_eq_false (Nat.not_lt.2 burstLow),
      decide_eq_false (Nat.not_lt.2 burstHigh)]
    rfl
  refine if_neg ?_
  rw [shaper, policer, rated, Option.isNone_eq_false_iff.2 known]
  simp [mode, classes]

/-- A bucket `u` with the settings of a request and its tokens reset (steps 1 to 3 of R217), at `n` = C × 16. -/
def Bucket.reshaped (u : Bucket) (r : ShaperReq) (n : Nat) : Bucket :=
  { u with
    mode := r.mode, classes := r.classes, demote := r.demote, demoteClass := r.demoteClass, rate := if r.mode = 0 then u.rate else r.rate,
    burst := if r.mode = 0 then u.burst else r.burst, last := n, entry := none,
    tokens := if r.full then (((if r.mode = 0 then u.burst else r.burst) * 4096 : Nat) : Int) else 0 }

/-- The debt of a bucket in whole bytes: WRITTEN_OFF of R223. -/
def Bucket.debt (u : Bucket) : Nat := if u.mode = 0 then 0 else (-u.tokens).toNat / 4096

/-- The boundary writes the settings to the bucket, filled up to the boundary, and answers the debt written off. -/
theorem applyShaper_of_flow {d : Dev} {r : ShaperReq} (known : (d.flow r.bucket).isSome = true) (ref : CmdRef) :
    d.applyShaper ref r =
      ({ d with sched := { d.sched with
        buckets := tset d.sched.buckets r.bucket (((d.bucket r.bucket).update (d.now * 16)).reshaped r (d.now * 16)) } } : Dev).complete ref .ok
        (fromResp d.now ++ le 4 ((d.bucket r.bucket).update (d.now * 16)).debt ++ le 4 0) := by
  refine (if_neg (Bool.eq_false_iff.1 (Option.isNone_eq_false_iff.2 known))).trans ?_
  by_cases off : r.mode = 0
  · simp only [off, if_true, Bucket.reshaped, Bucket.debt]
    rfl
  · simp only [off, if_false, Bucket.reshaped, Bucket.debt]
    rfl

/-! ### Egress points (R224) -/

/-- POINT with its fields in range at a present point waits. -/
theorem schedPoint_waits {d : Dev} {r : PointReq} (present : d.pointPresent r.point = true)
    (fragments : r.fragBytes ≠ 0 → r.point < 0x40 ∧ 256 ≤ r.fragBytes ∧ r.fragBytes ≤ 16383) (low : -32 ≤ r.overhead) (high : r.overhead ≤ 63)
    (starve : r.starve ≤ 65535) (ref : CmdRef) : schedPoint r ref d = d.later (.point ref r) := by
  have cut : (r.fragBytes == 0 || (decide (r.point < 0x40) && decide (256 ≤ r.fragBytes) && decide (r.fragBytes ≤ 16383))) = true := by
    simpa [or_iff_not_imp_left, and_assoc] using fragments
  refine if_neg ?_
  rw [cut, present]
  simp [low, high, starve]

/-! ### Gate lists (R278, R280, R284) -/

/-- A LIST request with the fields of R284 in range. -/
structure GateFields (r : GateListReq) : Prop where
  some_entry : r.entries ≠ []
  count : r.entries.length ≤ 256
  base : r.baseNs ≤ 999999999
  cycleLow : 1000 ≤ r.cycle
  cycleHigh : r.cycle ≤ 1000000000
  classes : r.maxSdu.length = 8
  sdus : r.maxSdu.any (fun m => m != 0 && (decide (m < 64) || decide (16384 < m))) = false
  entries : r.entries.any (fun e => decide (2 < e.op) || decide (255 < e.states) || decide (e.interval < 16) || decide (1000000000 < e.interval)) = false

/-- LIST waits, where no class of an enabled list has a MAX_SDU that never fits (R279). -/
theorem gateListSet_waits {d : Dev} {r : GateListReq} (present : d.upPresent r.port = true) (fields : GateFields r)
    (fitting : r.enable = true → d.gateBad r.port (gateListOf r) = false) (ref : CmdRef) : gateListSet r ref d = d.later (.gateList ref r) := by
  obtain ⟨some_entry, count, base, cycleLow, cycleHigh, classes, sdus, entries⟩ := fields
  have fits : ¬ (r.enable = true ∧ d.gateBad r.port (gateListOf r) = true) := fun ⟨on, bad⟩ => by simp [fitting on] at bad
  refine if_neg ?_
  rw [present, sdus, entries, List.isEmpty_eq_false_iff.2 some_entry, classes]
  simpa [count, base, cycleLow, cycleHigh] using fits

/-- The device in which the list that waits at a port, where one does, has ended INVALID: the model's choice (log entry 34). -/
def Dev.endWaitingList (d : Dev) (p : Nat) : Dev := (d.upPort p).gatePend.elim d (fun e => d.complete e.1 .invalid)

/-- The list that waited before ends INVALID, and the new one waits for its first start at least 125 µs away. -/
theorem applyGateList_eq (d : Dev) (ref : CmdRef) (r : GateListReq) :
    d.applyGateList ref r =
      (d.endWaitingList r.port).modUp r.port (fun x => { x with
        gatePend := some (ref, gateListOf r, firstStart (gateListOf r).base (gateListOf r).cycle
          (ceilDiv ((d.endWaitingList r.port).time.value 0) (2 ^ 32) + 125000)) }) := by
  unfold Dev.applyGateList Dev.endWaitingList
  cases (d.upPort r.port).gatePend <;> rfl

/-! ### Uplink ports (R277, R282, R284) -/

/-- A PORT request with the fields of R284 in range. -/
structure PortFields (r : UpPortReq) : Prop where
  express : r.express ≤ 255
  addFrag : r.preempt = true → r.addFrag ≤ 3
  verifyMs : r.preempt = true → r.verify = true → 1 ≤ r.verifyMs ∧ r.verifyMs ≤ 128
  frameLow : 1518 ≤ r.maxFrame
  frameHigh : r.maxFrame ≤ 16384
  wake : r.lpi = true → 1 ≤ r.twUs ∧ r.twUs ≤ 1000
  count : r.addrs.length ≤ 16
  addrs : r.addrs.any (fun a => decide (2 ^ 48 ≤ a)) = false

/-- PORT passes its checks where its fields are in range and it designates no third steering uplink. -/
theorem gatePortBad_eq_none {d : Dev} {r : UpPortReq} (present : d.upPresent r.port = true) (fields : PortFields r)
    (third : r.port ≠ 0xA4 → r.steering = true → d.steering.contains ((r.port - 0x40) / 4) = false → d.steering.length < 2) :
    gatePortBad d r = none := by
  obtain ⟨express, addFrag, verifyMs, frameLow, frameHigh, wake, count, addrs⟩ := fields
  have inRange : ¬ ((!d.upPresent r.port) = true ∨ 255 < r.express ∨ (r.preempt = true ∧ 3 < r.addFrag) ∨
      (r.preempt = true ∧ r.verify = true ∧ (r.verifyMs = 0 ∨ 128 < r.verifyMs)) ∨ r.maxFrame < 1518 ∨ 16384 < r.maxFrame ∨
      (r.lpi = true ∧ (r.twUs = 0 ∨ 1000 < r.twUs)) ∨ 16 < r.addrs.length ∨ r.addrs.any (fun a => decide (2 ^ 48 ≤ a)) = true) := by
    rw [present, addrs]
    rintro (absent | wide | ⟨on, long⟩ | ⟨on, verified, time⟩ | short | long | ⟨on, time⟩ | many | address)
    · cases absent
    · omega
    · have := addFrag on; omega
    · have := verifyMs on verified; omega
    · omega
    · omega
    · have := wake on; omega
    · omega
    · cases address
  have free : ¬ (r.port ≠ 0xA4 ∧ r.steering = true ∧ (!(d.steering.contains ((r.port - 0x40) / 4))) = true ∧ 2 ≤ d.steering.length) :=
    fun ⟨uplink, steers, other, two⟩ => Nat.not_lt.2 two (third uplink steers (by simpa using other))
  exact (if_neg inRange).trans (if_neg free)

/-- PORT that passes its checks waits. -/
theorem gatePortSet_waits {d : Dev} {r : UpPortReq} (passes : gatePortBad d r = none) (ref : CmdRef) :
    gatePortSet r ref d = d.later (.upPort ref r) := by
  unfold gatePortSet
  rw [passes]

/-- The verification of preemption was asked for, and has ended well or still runs: new settings that ask for it leave it as it stands. -/
def UpPort.keepsVerification (x : UpPort) : Bool := x.set.preempt && x.set.verify && (x.preemptActive || x.verifyFrom.isSome)

/-- A port with the settings of a PORT from tick `now` on. -/
def UpPort.resettled (x : UpPort) (r : UpPortReq) (now : Nat) : UpPort :=
  { x with
    set := r, inLpi := x.inLpi && r.lpi,
    preemptActive := x.up && r.preempt && (if r.verify then x.preemptActive && x.keepsVerification else true),
    verifyFrom := if x.up && r.preempt && r.verify then (if x.keepsVerification then x.verifyFrom else some now) else none }

/-- The device without the steering rules to an uplink that steers no more. -/
def Dev.dropLostSteers (d : Dev) : Dev :=
  { d with upl := { d.upl with steers := d.upl.steers.filter (fun e => e.2.port == 0xA4 || d.steering.contains ((e.2.port - 0x40) / 4)) } }

/-- PORT that still passes its checks at the boundary takes effect. -/
theorem applyUpPort_of_passes {d : Dev} {r : UpPortReq} (passes : gatePortBad d r = none) (ref : CmdRef) :
    d.applyUpPort ref r = (d.modGate r.port (·.resettled r d.now)).dropLostSteers.complete ref .ok := by
  unfold Dev.applyUpPort
  rw [passes]
  rfl

/-! ### Steering rules (R277, R284) -/

/-- STEER that passes its checks waits. -/
theorem steerSet_waits {d : Dev} {r : SteerReq} (passes : steerBad d r = false) (ref : CmdRef) : steerSet r ref d = d.later (.steer ref r) :=
  if_neg (Bool.eq_false_iff.1 passes)

/-- STEER that still passes its checks at the boundary sets or clears its rule. -/
theorem applySteer_of_passes {d : Dev} {r : SteerReq} (passes : steerBad d r = false) (ref : CmdRef) :
    d.applySteer ref r =
      ({ d with upl := { d.upl with steers := if r.valid then tset d.upl.steers r.rule r else tdel d.upl.steers r.rule } } : Dev).complete ref .ok :=
  if_neg (Bool.eq_false_iff.1 passes)

end Sys2Proof.Machine

open Sys2Proof Sys2Proof.Machine

/-- Settles O25: a command of a served context with its operands in range waits, and each boundary is the case of its change in which no check fails. -/
theorem pointAndUplinkCommands : Obligations.PointAndUplinkCommands := by
  unfold Obligations.PointAndUplinkCommands
  refine ⟨fun s ctx r served known mode classes shaping demoting limits => ?shaper, ?shaperBoundary,
    fun s ctx r served present fragments low high starve => ?point, fun _ _ _ => rfl,
    fun s ctx r served present some_entry count base cycleLow cycleHigh classes sdus entries fitting => ?list, ?listBoundary,
    fun s ctx r served present express addFrag verifyMs frameLow frameHigh wake count addrs third => ?port, ?portBoundary,
    fun s ctx r served passes => ?steer, fun d ref r passes => applySteer_of_passes passes ref⟩
  case shaper =>
    rw [exec_mailbox_served (body := shaperSet r) rfl served,
      shaperSet_waits (d := s.dev.begun ctx) known ⟨mode, classes, shaping, demoting, limits⟩]
    rfl
  case shaperBoundary =>
    rintro d ref r _ _ known rfl rfl
    exact applyShaper_of_flow known ref
  case point =>
    rw [exec_mailbox_served (body := schedPoint r) rfl served, schedPoint_waits (d := s.dev.begun ctx) present fragments low high starve]
    rfl
  case list =>
    rw [exec_mailbox_served (body := gateListSet r) rfl served,
      gateListSet_waits (d := s.dev.begun ctx) present ⟨some_entry, count, base, cycleLow, cycleHigh, classes, sdus, entries⟩ fitting]
    rfl
  case listBoundary =>
    rintro d _ ref r rfl
    exact applyGateList_eq d ref r
  case port =>
    have passes : gatePortBad (s.dev.begun ctx) r = none :=
      gatePortBad_eq_none present ⟨express, addFrag, verifyMs, frameLow, frameHigh, wake, count, addrs⟩ third
    rw [exec_mailbox_served (body := gatePortSet r) rfl served, gatePortSet_waits passes]
    rfl
  case portBoundary =>
    rintro d _ ref r _ passes rfl rfl
    exact applyUpPort_of_passes passes ref
  case steer => rw [exec_mailbox_served (body := steerSet r) rfl served, steerSet_waits (d := s.dev.begun ctx) passes]; rfl
end

section
/-!
PROOFS. The parse graph, the rule set and the commit of a version (R234, R235, R241, R243 to R247): the case of each command in which no check fails, the end
of a compile, and the boundary at which a version becomes CURRENT.
-/
namespace Sys2Proof.Machine
open Sys2Proof

/-! ### PARSE_GRAPH_LOAD (R244) -/

/-- A table with entries written one after another from an index on. -/
def putFrom {α : Type} (first : Nat) (t : Tbl α) (l : List α) : Tbl α := (l.zip (List.range l.length)).foldl (fun t e => tset t (first + e.2) e.1) t

/-- A transition of the parse graph with a field out of range. -/
def transBad (t : Nat × Nat) : Bool := decide (65535 < t.1) || (decide (63 < t.2) && t.2 != 0xFE)

/-- A slot in STAGING may be loaded. -/
theorem Slot.open_of_staging {v : Slot} (staging : v.state = .staging) : v.open_ = true := decide_eq_true staging

section
variable {d : Dev} {r : ParseReq} (low : r.slot ≤ 3) (staging : (d.slot r.slot).state = .staging)
include low staging

/-- Nodes in range are written to a slot in STAGING. -/
theorem parseGraphLoad_nodes (kind : r.kind = 0) (some_node : r.nodes ≠ []) (room : r.first + r.nodes.length ≤ 64)
    (good : r.nodes.any nodeBad = false) (ref : CmdRef) :
    parseGraphLoad r ref d = (d.modSlot r.slot (fun v => { v with nodes := putFrom r.first v.nodes r.nodes })).complete ref .ok := by
  refine (if_neg ?valid).trans ?written
  case valid =>
    rw [Slot.open_of_staging staging, good, List.isEmpty_eq_false_iff.2 some_node]
    simp [low, kind, room]
  case written => simp only [kind, if_true, putFrom]

/-- Transitions in range are written to a slot in STAGING. -/
theorem parseGraphLoad_transitions (kind : r.kind = 1) (some_trans : r.trans ≠ []) (room : r.first + r.trans.length ≤ 512)
    (good : r.trans.any transBad = false) (ref : CmdRef) :
    parseGraphLoad r ref d = (d.modSlot r.slot (fun v => { v with trans := putFrom r.first v.trans r.trans })).complete ref .ok := by
  unfold transBad at good
  refine (if_neg ?valid).trans ?written
  case valid =>
    rw [Slot.open_of_staging staging, good, List.isEmpty_eq_false_iff.2 some_trans]
    simp [low, kind, room]
  case written => simp only [kind, one_ne_zero, if_false, putFrom]

end

/-! ### RULESET_STAGE BEGIN and ADD (R245) -/

/-- A BEGIN request with the fields of R245 in range. -/
structure BeginFields (r : StageBegin) : Prop where
  starts : r.start.length = 5
  startNodes : r.start.any (fun n => decide (63 < n)) = false
  deepAct : r.deepAct ≤ 2
  lenAct : r.lenAct ≤ 2
  ring : ((r.deepAct == 1 || r.lenAct == 1 || r.miss.any (fun m => m.1 == 1)) && !ringOk r.mgmtRing) = false
  misses : r.miss.length = 5
  missFields : ((List.range 5).zip r.miss).any (fun m => missBad m.1 m.2) = false

/-- The slot of a BEGIN request: STAGING, with its settings and no entries. -/
def stagedSlot (r : StageBegin) (version : Nat) : Slot :=
  { Slot.reset with
    state := .staging, version, start := r.start, deepAct := r.deepAct, lenAct := r.lenAct, mgmtRing := r.mgmtRing, miss := r.miss }

/-- The device in which a slot has been taken for the next version. -/
def Dev.stageIn (d : Dev) (i : Nat) (r : StageBegin) : Dev :=
  { d.modSlot i (fun _ => stagedSlot r d.cls.nextVersion) with
    cls := { (d.modSlot i (fun _ => stagedSlot r d.cls.nextVersion)).cls with nextVersion := d.cls.nextVersion + 1 } }

/-- BEGIN takes the lowest FREE slot with the next version. -/
theorem stageBegin_takes {d : Dev} {r : StageBegin} {i : Nat} (fields : BeginFields r)
    (free : (List.range 4).find? (fun i => (d.slot i).state = .free) = some i) (ref : CmdRef) :
    stageBegin r ref d = (d.stageIn i r).complete ref .ok (le 1 i ++ le 3 0 ++ le 4 d.cls.nextVersion) := by
  obtain ⟨starts, startNodes, deepAct, lenAct, ring, misses, missFields⟩ := fields
  refine (if_neg ?valid).trans ?taken
  case valid =>
    rw [startNodes, ring, missFields, starts, misses]
    simp [deepAct, lenAct]
  case taken => rw [free]; rfl

/-- ADD appends rules in range with new ids to a slot in STAGING. -/
theorem stageAdd_appends {d : Dev} {n : Nat} {rs : List Rule} (low : n ≤ 3) (staging : (d.slot n).state = .staging) (some_rule : rs ≠ [])
    (count : rs.length ≤ 15) (good : rs.any ruleBad = false)
    (newIds : idsDistinct ((d.slot n).rules.map (·.id) ++ rs.map (·.id)) = true) (ref : CmdRef) :
    stageAdd n rs ref d = (d.modSlot n (fun v => { v with rules := v.rules ++ rs })).complete ref .ok := by
  refine if_neg ?_
  rw [Slot.open_of_staging staging, good, newIds, List.isEmpty_eq_false_iff.2 some_rule]
  simp [low, count]

/-! ### RULESET_STAGE BUILD and the compile (R235, R245, R493) -/

/-- BUILD of a closed graph in STAGING puts the install to Sluice, which keeps it where it has room. -/
theorem stageBuild_requests {d : Dev} {n : Nat} (low : n ≤ 3) (staging : (d.slot n).state = .staging) (first : (d.slot n).building = none)
    (closed : (d.slot n).closed = true) (count : (d.slot n).rules.length ≤ 65536) (room : d.sluice.fifo.length < 1024)
    (cost : d.sluice.base + d.sluice.reserve + (HeavyOp.rulesetInstall n).cost ≤ d.sluice.budget) (ref : CmdRef) :
    stageBuild n ref d =
      ({ d with sluice := { d.sluice with
        fifo := d.sluice.fifo ++ [{ op := .rulesetInstall n, index := ref.ctx, since := d.now, ref := some ref, reported := false }] } } : Dev).modSlot n
        (fun v => { v with building := some ref }) := by
  have valid : ¬ (3 < n ∨ (!(d.slot n).open_) = true ∨ (d.slot n).building.isSome = true ∨ (!(d.slot n).closed) = true) := by
    rw [Slot.open_of_staging staging, first, closed]
    simp [low]
  refine (if_neg valid).trans ((if_neg (Nat.not_lt.2 count)).trans ?_)
  rw [request_waits d _ _ _ room cost]
  rfl

theorem exec_rulesetCompileDone (n w : Nat) (s : State) : exec (.rulesetCompileDone n w) s = .next (s.withDev (compileDone n w s.dev)) := rfl

/-- The words of memory that the slots of the classifier take. -/
def Dev.usedWords (d : Dev) : Nat := sumOf (d.cls.slots.map (fun x => x.words))

/-- The device in which the install of a slot has ended and the slot is no longer being built. -/
def Dev.endBuild (d : Dev) (n : Nat) : Dev := (d.endOp (fun o => o = .rulesetInstall n)).modSlot n (fun v => { v with building := none })

/-- The device in which the install of a slot has ended and its version is built. -/
def Dev.built (d : Dev) (n words : Nat) : Dev :=
  (d.endOp (fun o => o = .rulesetInstall n)).modSlot n (fun v => { v with building := none, state := .built, words })

section
variable {d : Dev} {n : Nat} {ref : CmdRef} (admitted : d.sluice.held.any (fun h => h.op == .rulesetInstall n && h.ended.isNone) = true)
  (building : (d.slot n).building = some ref)
include admitted building

/-- The end of an admitted compile judges the entries as they stand then: the model's choice (log entry 96). -/
theorem compileDone_of_admitted (w : Nat) :
    compileDone n w d =
      if (!(d.slot n).closed) = true then (d.endBuild n).complete ref .invalid
      else if 131072 < d.usedWords + w ∨ 65536 < (d.slot n).rules.length then (d.endBuild n).complete ref .noResource
      else (d.built n w).complete ref .ok (le 4 (d.slot n).rules.length ++ le 4 w ++ le 4 (equalOverlap (d.slot n).rules)) := by
  refine (if_neg (by rw [admitted]; exact Bool.false_ne_true)).trans ?_
  rw [building]
  rfl

/-- A graph that is open by then ends the BUILD INVALID. -/
theorem compileDone_of_open (opened : (d.slot n).closed = false) (w : Nat) : compileDone n w d = (d.endBuild n).complete ref .invalid := by
  rw [compileDone_of_admitted admitted building, opened]
  rfl

variable (closed : (d.slot n).closed = true) {w : Nat}
include closed

/-- A version for which the memory is short ends the BUILD NO_RESOURCE. -/
theorem compileDone_of_short (short : 131072 < d.usedWords + w) : compileDone n w d = (d.endBuild n).complete ref .noResource := by
  rw [compileDone_of_admitted admitted building, closed, Bool.not_true, if_neg Bool.false_ne_true, if_pos (.inl short)]

/-- A closed graph whose trees fit the memory is built, and its sizes are answered. -/
theorem compileDone_of_fitting (fits : d.usedWords + w ≤ 131072) (count : (d.slot n).rules.length ≤ 65536) :
    compileDone n w d = (d.built n w).complete ref .ok (le 4 (d.slot n).rules.length ++ le 4 w ++ le 4 (equalOverlap (d.slot n).rules)) := by
  rw [compileDone_of_admitted admitted building, closed, Bool.not_true, if_neg Bool.false_ne_true,
    if_neg (not_or.2 ⟨Nat.not_lt.2 fits, Nat.not_lt.2 count⟩)]

end

/-! ### RULESET_STAGE FREE (R245) -/

/-- FREE of a slot in STAGING or BUILT releases it; `Dev.releaseSlot` ends its BUILD, which is the model's choice (log entry 96). -/
theorem stageFree_releases {d : Dev} {n : Nat} (low : n ≤ 3) (loaded : (d.slot n).state = .staging ∨ (d.slot n).state = .built) (ref : CmdRef) :
    stageFree n ref d = (d.releaseSlot n).complete ref .ok := by
  refine (if_neg (Nat.not_lt.2 low)).trans ?_
  rcases loaded with staging | built
  · rw [staging]
  · rw [built]

/-! ### RULESET_COMMIT and its boundary (R21, R241, R243, R246) -/

/-- A slot in BUILT or RETIRING may become CURRENT. -/
def Slot.committable (v : Slot) : Bool := v.state = .built || v.state = .retiring

theorem Slot.committable_iff {v : Slot} : v.committable = true ↔ v.state = .built ∨ v.state = .retiring := by
  simp [Slot.committable]

/-- The first commit of a tick, of a slot in BUILT or RETIRING, waits. -/
theorem rulesetCommit_waits {d : Dev} {n : Nat} (first : d.cls.commit = none) (low : n ≤ 3)
    (ready : (d.slot n).state = .built ∨ (d.slot n).state = .retiring) (keep : Bool) (ref : CmdRef) :
    rulesetCommit n keep ref d = { d with cls := { d.cls with commit := some (ref, n, keep) } } := by
  have known : ¬ (3 < n ∨ (!(d.slot n).committable) = true) := by
    rw [Slot.committable_iff.2 ready]
    simp [low]
  unfold rulesetCommit
  rw [first]
  exact (if_neg Bool.false_ne_true).trans (if_neg known)

/-- The device in which the slot that is CURRENT retires, and no commit waits. -/
def Dev.retireCurrent (d : Dev) (keep : Bool) : Dev :=
  (List.range 4).foldl (fun d i => if (d.slot i).state = .current then d.modSlot i (fun v => { v with state := .retiring, keep }) else d)
    { d with cls := { d.cls with commit := none } }

/-- The device in which a slot has become CURRENT. -/
def Dev.switchTo (d : Dev) (n : Nat) (keep : Bool) : Dev := (d.retireCurrent keep).modSlot n (fun v => { v with state := .current, keep := false })

/-- The boundary commits a slot in BUILT; with no slot RETIRING before, none leaves. -/
theorem versionSwitch_commits {d : Dev} {ref : CmdRef} {n : Nat} {keep : Bool} (waits : d.cls.commit = some (ref, n, keep))
    (built : (d.slot n).state = .built) (settled : (List.range 4).filter (fun i => (d.slot i).state = .retiring) = []) :
    d.versionSwitch =
      ((d.switchTo n keep).raise 0x360 (le 1 n ++ le 4 ((d.switchTo n keep).slot n).version)).complete ref .ok (fromResp (d.switchTo n keep).now) := by
  have ready : ¬ (!(d.slot n).committable) = true := by simp [Slot.committable, built]
  unfold Dev.versionSwitch
  rw [settled, waits]
  exact if_neg ready

end Sys2Proof.Machine

open Sys2Proof Sys2Proof.Machine

/-- Settles O26: a command of a served context runs its body, and each body, the compile's end and the boundary are the case of their meaning named by
the hypotheses. -/
theorem ruleSetStaging : Obligations.RuleSetStaging := by
  unfold Obligations.RuleSetStaging
  refine ⟨fun s ctx r served low staging => ⟨fun kind some_node room good => ?nodes, fun kind some_trans room good => ?transitions⟩, ?begin_,
    fun s ctx n rs served low staging some_rule count good newIds => ?add,
    fun s ctx n served low staging first closed count room cost => ?build, ?compile, fun s ctx n served low loaded => ?free, fun _ _ => rfl,
    fun s ctx n keep served first low ready => ?commit, ?boundary, fun s ctx served => ?status⟩
  case nodes =>
    rw [exec_mailbox_served (body := parseGraphLoad r) rfl served, parseGraphLoad_nodes (d := s.dev.begun ctx) low staging kind some_node room good]
    rfl
  case transitions =>
    rw [exec_mailbox_served (body := parseGraphLoad r) rfl served,
      parseGraphLoad_transitions (d := s.dev.begun ctx) low staging kind some_trans room good]
    rfl
  case begin_ =>
    rintro s ctx r i _ served starts startNodes deepAct lenAct ring misses missFields free rfl
    rw [exec_mailbox_served (body := stageBegin r) rfl served,
      stageBegin_takes (d := s.dev.begun ctx) ⟨starts, startNodes, deepAct, lenAct, ring, misses, missFields⟩ free]
    rfl
  case add =>
    rw [exec_mailbox_served (body := stageAdd n rs) rfl served, stageAdd_appends (d := s.dev.begun ctx) low staging some_rule count good newIds]
    rfl
  case build =>
    rw [exec_mailbox_served (body := stageBuild n) rfl served,
      stageBuild_requests (d := s.dev.begun ctx) low staging first closed count room cost]
    rfl
  case compile =>
    rintro s n w ref _ admitted building rfl
    refine ⟨fun closed fits count => ?_, fun opened => ?_, fun closed short => ?_⟩
    · rw [exec_rulesetCompileDone, compileDone_of_fitting admitted building closed fits count]; rfl
    · rw [exec_rulesetCompileDone, compileDone_of_open admitted building opened]; rfl
    · rw [exec_rulesetCompileDone, compileDone_of_short admitted building closed short]; rfl
  case free => rw [exec_mailbox_served (body := stageFree n) rfl served, stageFree_releases (d := s.dev.begun ctx) low loaded]; rfl
  case commit =>
    rw [exec_mailbox_served (body := rulesetCommit n keep) rfl served, rulesetCommit_waits (d := s.dev.begun ctx) first low ready]
    rfl
  case boundary =>
    rintro d _ ref n keep waits built settled rfl
    exact versionSwitch_commits waits built settled
  case status => rw [exec_mailbox_served rfl served]; rfl
end

section
/-!
PROOFS. The learning table as a table in order (R251, R254): the first entry of a key is the one of lowest index, and the operations on a table keep its order.
-/
namespace Sys2Proof.Machine

/-! ### Tables in order -/

section
variable {α : Type} {t : Tbl α}

theorem tsorted_tset (sorted : tsorted t = true) (n : Nat) (x : α) : tsorted (tset t n x) = true :=
  (tsorted_iff _).2 (tset_sorted t n x ((tsorted_iff t).1 sorted))

theorem tsorted_tdel (sorted : tsorted t = true) (n : Nat) : tsorted (tdel t n) = true :=
  (tsorted_iff _).2 (((tsorted_iff t).1 sorted).filter _)

/-- A change of an entry keeps the keys, so it keeps their order. -/
theorem tsorted_tmod (sorted : tsorted t = true) (n : Nat) (f : α → α) : tsorted (tmod t n f) = true := by
  have key (p : Nat × α) : (if p.1 = n then (p.1, f p.2) else p).1 = p.1 := by split <;> rfl
  rw [tsorted_iff, tmod, List.pairwise_map]
  simpa only [key] using (tsorted_iff t).1 sorted

/-- What a search finds first in a table in order has the lowest key of the entries it accepts. -/
theorem le_of_find?_tsorted {p : Nat × α → Bool} {e x : Nat × α} (sorted : tsorted t = true) (found : t.find? p = some e) (mem : x ∈ t)
    (accepted : p x = true) : e.1 ≤ x.1 := by
  obtain ⟨rest, first⟩ := List.head?_eq_some_iff.1 ((List.head?_filter (p := p) (l := t)).trans found)
  have inOrder : (e :: rest).Pairwise (fun a b => a.1 < b.1) := first ▸ ((tsorted_iff t).1 sorted).filter p
  rcases List.mem_cons.1 (first ▸ List.mem_filter.2 ⟨mem, accepted⟩) with rfl | later
  · exact Nat.le_refl x.1
  · exact Nat.le_of_lt (List.rel_of_pairwise_cons inOrder later)

end

/-! ### A lookup -/

/-- An entry of the key stands in one of its two candidate buckets (R251, R254). -/
def Fdb.Candidate (f : Fdb) (fid mac : Nat) (x : Nat × FdbEnt) : Prop :=
  x ∈ f.entries ∧ (x.1 / 4 = (fdbBuckets f.salt fid mac).1 ∨ x.1 / 4 = (fdbBuckets f.salt fid mac).2) ∧ x.2.fid = fid ∧ x.2.mac = mac

/-- The test that a lookup makes of an entry. -/
def Fdb.keyTest (f : Fdb) (fid mac : Nat) (x : Nat × FdbEnt) : Bool :=
  (x.1 / 4 == (fdbBuckets f.salt fid mac).1 || x.1 / 4 == (fdbBuckets f.salt fid mac).2) && x.2.fid == fid && x.2.mac == mac

variable {f : Fdb} {fid mac : Nat}

theorem Fdb.lookup_eq_find? : f.lookup fid mac = f.entries.find? (f.keyTest fid mac) := rfl

theorem Fdb.candidate_iff {x : Nat × FdbEnt} : f.Candidate fid mac x ↔ x ∈ f.entries ∧ f.keyTest fid mac x = true := by
  simp [Fdb.Candidate, Fdb.keyTest, and_assoc]

/-- The entry answered is a candidate. -/
theorem Fdb.candidate_of_lookup {x : Nat × FdbEnt} (found : f.lookup fid mac = some x) : f.Candidate fid mac x := by
  rw [Fdb.lookup_eq_find?] at found
  exact Fdb.candidate_iff.2 ⟨List.mem_of_find?_eq_some found, List.find?_some found⟩

/-- No candidate has a lower index. -/
theorem Fdb.lookup_lowest {x y : Nat × FdbEnt} (sorted : tsorted f.entries = true) (found : f.lookup fid mac = some x)
    (other : f.Candidate fid mac y) : x.1 ≤ y.1 := by
  obtain ⟨mem, accepted⟩ := Fdb.candidate_iff.1 other
  exact le_of_find?_tsorted sorted found mem accepted

theorem Fdb.lookup_eq_none_iff : f.lookup fid mac = none ↔ ∀ x, ¬ f.Candidate fid mac x := by
  simp only [Fdb.lookup_eq_find?, List.find?_eq_none, Fdb.candidate_iff, not_and]

end Sys2Proof.Machine

open Sys2Proof.Machine

/-- Settles O55: a lookup is a search that accepts the candidates, and in a table in order what it finds first has the lowest index. -/
theorem fdbLookup : Obligations.FdbLookup := by
  unfold Obligations.FdbLookup
  refine ⟨fun f fid mac sorted => ⟨fun i e found => ?found, ?none⟩, fun t i e g sorted => ?kept⟩
  case found =>
    exact ⟨Fdb.candidate_of_lookup found, fun j g other => Fdb.lookup_lowest (y := (j, g)) sorted found other⟩
  case none => exact Fdb.lookup_eq_none_iff.trans Prod.forall
  case kept => exact ⟨tsorted_tset sorted i e, tsorted_tdel sorted i, tsorted_tmod sorted i g⟩
end

section
/-!
PROOFS. The ranking of the CAM (R262) and the verification of what is ranked (R263): a stable sort by priority of a table in order puts the lower index first
among equals, and the verification stops at the first copy that equals the word.
-/
namespace Sys2Proof.Machine

/-! ### Ranking (R262) -/

/-- The order of R262: higher priority first, and the lower index first among equals. -/
def RanksBefore (a b : Nat × CamEnt) : Prop := b.2.priority < a.2.priority ∨ b.2.priority = a.2.priority ∧ a.1 < b.1

/-- The order in which entries are inserted: behind those of no lower priority. -/
def noLower (a b : Nat × CamEnt) : Bool := decide (b.2.priority ≤ a.2.priority)

theorem noLower_iff {a b : Nat × CamEnt} : noLower a b = true ↔ b.2.priority ≤ a.2.priority := decide_eq_true_iff

/-- The rows of an entry of the table equal the lookup word. -/
def rowsMatch (t : Nat) (w : Bytes) (e : Nat × CamEnt) : Bool := e.1 / 65536 == t && e.2.rows == w

theorem rowsMatch_iff {t : Nat} {w : Bytes} {e : Nat × CamEnt} : rowsMatch t w e = true ↔ e.1 / 65536 = t ∧ e.2.rows = w := by
  simp [rowsMatch]

theorem Cam.ranked_eq (c : Cam) (t : Nat) (w : Bytes) : c.ranked t w = sortBy noLower (c.entries.filter (rowsMatch t w)) := rfl

/-- An entry of a higher index than all that are ranked takes its place among them. -/
theorem insertBy_ranks {x : Nat × CamEnt} {l : List (Nat × CamEnt)} (ranked : l.Pairwise RanksBefore) (lower : ∀ y ∈ l, y.1 < x.1) :
    (insertBy noLower x l).Pairwise RanksBefore := by
  induction l with
  | nil => exact List.pairwise_singleton _ x
  | cons y t ih =>
    obtain ⟨first, rest⟩ := List.pairwise_cons.1 ranked
    obtain ⟨lowerY, lowerT⟩ := List.forall_mem_cons.1 lower
    by_cases behind : x.2.priority ≤ y.2.priority
    · have yx : RanksBefore y x := (Nat.lt_or_eq_of_le behind).imp id (fun same => ⟨same, lowerY⟩)
      rw [insertBy, if_pos (noLower_iff.2 behind), List.pairwise_cons]
      refine ⟨fun z mem => ?_, ih rest lowerT⟩
      rcases List.mem_cons.1 ((insertBy_perm _ x t).subset mem) with rfl | later
      · exact yx
      · exact first z later
    · have above {z : Nat × CamEnt} (atMost : z.2.priority ≤ y.2.priority) : RanksBefore x z := .inl (by omega)
      rw [insertBy, if_neg (mt noLower_iff.1 behind), List.pairwise_cons]
      refine ⟨List.forall_mem_cons.2 ⟨above (Nat.le_refl _), fun z mem => above ?_⟩, ranked⟩
      exact (first z mem).elim Nat.le_of_lt (fun same => Nat.le_of_eq same.1)

/-- Entries of rising index that are inserted one after another among ranked entries of lower index. -/
theorem foldl_insertBy_ranks (l acc : List (Nat × CamEnt)) (sorted : l.Pairwise (fun a b => a.1 < b.1)) (ranked : acc.Pairwise RanksBefore)
    (lower : ∀ y ∈ acc, ∀ x ∈ l, y.1 < x.1) : (l.foldl (fun acc x => insertBy noLower x acc) acc).Pairwise RanksBefore := by
  induction l generalizing acc with
  | nil => exact ranked
  | cons x t ih =>
    obtain ⟨first, rest⟩ := List.pairwise_cons.1 sorted
    refine ih _ rest (insertBy_ranks ranked (fun y mem => lower y mem x List.mem_cons_self)) (fun y mem z later => ?_)
    rcases List.mem_cons.1 ((insertBy_perm _ x acc).subset mem) with rfl | before
    · exact first z later
    · exact lower y before z (List.mem_cons_of_mem x later)

/-- The entries of a lookup in a table in order are ranked. -/
theorem Cam.ranked_pairwise {c : Cam} (sorted : tsorted c.entries = true) (t : Nat) (w : Bytes) : (c.ranked t w).Pairwise RanksBefore := by
  have rising := ((tsorted_iff c.entries).1 sorted).filter (rowsMatch t w)
  rw [Cam.ranked_eq]
  exact foldl_insertBy_ranks _ [] rising .nil (fun _ none_yet => (List.not_mem_nil none_yet).elim)

/-- The entries ranked are those of the table whose rows equal the word, each as often as it is stored. -/
theorem Cam.ranked_count (c : Cam) (t : Nat) (w : Bytes) (e : Nat × CamEnt) :
    (c.ranked t w).count e = if e.1 / 65536 = t ∧ e.2.rows = w then c.entries.count e else 0 := by
  rw [Cam.ranked_eq, (sortBy_perm _ _).count_eq]
  by_cases hit : rowsMatch t w e = true
  · rw [if_pos (rowsMatch_iff.1 hit), List.count_filter hit]
  · rw [if_neg (mt rowsMatch_iff.2 hit)]
    exact List.count_eq_zero.2 (fun mem => hit (List.mem_filter.1 mem).2)

/-! ### Verification (R263) -/

/-- An entry whose copy equals the word is the match, and nothing is passed over. -/
theorem camVerify_cons_match {w : Bytes} {i : Nat} {e : CamEnt} (fits : e.copy = w) (t : List (Nat × CamEnt)) :
    camVerify w ((i, e) :: t) = (some e, []) := if_pos fits

/-- Any other entry is a false hit. -/
theorem camVerify_cons_false {w : Bytes} {i : Nat} {e : CamEnt} (unfit : e.copy ≠ w) (t : List (Nat × CamEnt)) :
    camVerify w ((i, e) :: t) = ((camVerify w t).1, i :: (camVerify w t).2) := if_neg unfit

/-- No match is found where no copy equals the word. -/
theorem camVerify_eq_none_iff (w : Bytes) (l : List (Nat × CamEnt)) : (camVerify w l).1 = none ↔ ∀ x ∈ l, x.2.copy ≠ w := by
  induction l with
  | nil => simp [camVerify]
  | cons x t ih =>
    obtain ⟨i, e⟩ := x
    by_cases fits : e.copy = w
    · simp [camVerify_cons_match fits, fits]
    · simp [camVerify_cons_false fits, fits, ih]

/-- The match is the first entry whose copy equals the word, and those before it are the false hits. -/
theorem camVerify_splits {w : Bytes} {l : List (Nat × CamEnt)} {m : CamEnt} (found : (camVerify w l).1 = some m) :
    m.copy = w ∧ ∃ pre i post, l = pre ++ (i, m) :: post ∧ (∀ x ∈ pre, x.2.copy ≠ w) ∧ (camVerify w l).2 = pre.map (fun x => x.1) := by
  induction l with
  | nil => cases found
  | cons x t ih =>
    obtain ⟨i, e⟩ := x
    by_cases fits : e.copy = w
    · rw [camVerify_cons_match fits] at found ⊢
      obtain rfl : e = m := Option.some.inj found
      exact ⟨fits, [], i, t, rfl, List.forall_mem_nil _, rfl⟩
    · rw [camVerify_cons_false fits] at found ⊢
      obtain ⟨equal, pre, j, post, rfl, unfit, passed⟩ := ih found
      exact ⟨equal, (i, e) :: pre, j, post, rfl, List.forall_mem_cons.2 ⟨fits, unfit⟩, congrArg (i :: ·) passed⟩

end Sys2Proof.Machine

open Sys2Proof.Machine

/-- Settles O56: the ranking is a stable sort of the entries hit in a table in order, and the verification splits its list at the first match. -/
theorem camRanking : Obligations.CamRanking := by
  unfold Obligations.CamRanking
  exact ⟨fun c t w sorted => ⟨c.ranked_count t w, Cam.ranked_pairwise sorted t w⟩,
    fun w l => ⟨camVerify_eq_none_iff w l, fun _ found => camVerify_splits found⟩⟩
end

section
/-!
PROOFS. The upkeep of the forwarding tables (R251, R254 to R257, R259, R263, R266): the cases of a learning request, of a visit of the sweeper, of a rewrite
by the rinse and of the end of a rebuild.
-/
namespace Sys2Proof.Machine
open Sys2Proof

/-! ### What the events run -/

theorem exec_fdbLearn (s : State) : exec .fdbLearn s = .next (s.withDev (fdbLearn s.dev)) := rfl

theorem exec_fdbAgeSweep (s : State) : exec .fdbAgeSweep s = .next (s.withDev (fdbAgeSweep s.dev)) := rfl

theorem exec_camVerifyRewrite (t i : Nat) (bad : Bool) (s : State) :
    exec (.camVerifyRewrite t i bad) s = .next (s.withDev (camRewrite t i bad s.dev)) := rfl

theorem exec_tableRebuildDone (job : Nat) (s : State) : exec (.tableRebuildDone job) s = .next (s.withDev (tableRebuildDone job s.dev)) := rfl

/-! ### Learning (R254 to R257) -/

/-- The oldest request leaves the FIFO and is learned. -/
theorem fdbLearn_of_fifo {d : Dev} {r : LearnReq} {rest : List LearnReq} (oldest : d.fdb.fifo = r :: rest) :
    fdbLearn d = (d.modFdb (fun f => { f with fifo := rest })).learn r := by
  unfold fdbLearn
  rw [oldest]

/-- A source that is no member of the domain has no effect. -/
theorem Dev.learn_of_no_member {d : Dev} {r : LearnReq} (stranger : d.fdb.member r.fid r.source = none) : d.learn r = d := by
  unfold Dev.learn
  rw [stranger]

section
variable {d : Dev} {r : LearnReq} {m : Member} (known : d.fdb.member r.fid r.source = some m) (domain : (tget d.fdb.domains r.fid).isSome = true)
include known domain

/-- The entry that a member already has is marked as hit. -/
theorem Dev.learn_hits {i : Nat} {e : FdbEnt} (found : d.fdb.lookup r.fid r.mac = some (i, e)) (learned : e.static = false)
    (source : e.source = r.source) (dest : e.dest = m.flow) : d.learn r = d.putEnt i { e with hit := true } := by
  unfold Dev.learn
  rw [known]
  refine (if_neg (Bool.eq_false_iff.1 (Option.isNone_eq_false_iff.2 domain))).trans ?_
  rw [found]
  exact (if_neg (Bool.eq_false_iff.1 learned)).trans (if_pos ⟨source, dest⟩)

variable (absent : d.fdb.lookup r.fid r.mac = none)
include absent

/-- A new key of a scope at its limit is refused (R255). -/
theorem Dev.learn_refused {scope : Nat} (full : d.fdb.overLimit r.source none = some scope) : d.learn r = d.limitRefused r.source scope := by
  unfold Dev.learn
  rw [known]
  refine (if_neg (Bool.eq_false_iff.1 (Option.isNone_eq_false_iff.2 domain))).trans ?_
  rw [absent, full]

/-- A new key for which the engine has a place is inserted and counted. -/
theorem Dev.learn_inserts {e : FdbEnt} {d1 d2 : Dev} {i : Nat} (room : d.fdb.overLimit r.source none = none)
    (new : d.newEnt false r.fid r.mac r.source m.flow = (e, d1)) (placed : d1.insertEnt e = (some i, d2)) :
    d.learn r = d2.count 10 .fdbLearned r.fid := by
  unfold Dev.learn
  rw [known]
  refine (if_neg (Bool.eq_false_iff.1 (Option.isNone_eq_false_iff.2 domain))).trans ?_
  rw [absent, room, new]
  dsimp only
  rw [placed]

end

/-! ### The age sweep (R259) -/

/-- The device when the visit of the sweeper has written the entry `e` at its index, or has removed it as aged. -/
def Dev.visitEnt (d : Dev) (e : FdbEnt) : Dev :=
  (e.visit d.fdb.sweepNo).elim ((d.delEnt d.fdb.sweepNext).count 10 .fdbAgedOut e.fid) (d.putEnt d.fdb.sweepNext)

/-- A due visit of a learned entry that this sweep has not visited. -/
theorem fdbAgeSweep_visits {d : Dev} {e : FdbEnt} (due : d.fdb.visitDue ≤ d.up) (here : tget d.fdb.entries d.fdb.sweepNext = some e)
    (learned : e.static = false) (unvisited : e.sweep ≠ decide (d.fdb.sweepNo % 2 = 1)) :
    fdbAgeSweep d = (d.visitEnt e).modFdb Fdb.sweepOn := by
  have visits : ¬ (e.static = true ∨ e.sweep = decide (d.fdb.sweepNo % 2 = 1)) := not_or.2 ⟨Bool.eq_false_iff.1 learned, unvisited⟩
  refine (if_neg (Nat.not_lt.2 due)).trans ?_
  rw [here]
  dsimp only
  rw [if_neg visits, Dev.visitEnt]
  cases e.visit d.fdb.sweepNo <;> rfl

/-- A due visit of an index without an entry, or with one that is static or was visited in this sweep, changes no entry. -/
theorem fdbAgeSweep_passes {d : Dev} (due : d.fdb.visitDue ≤ d.up)
    (left : ∀ e, tget d.fdb.entries d.fdb.sweepNext = some e → e.static = true ∨ e.sweep = decide (d.fdb.sweepNo % 2 = 1)) :
    fdbAgeSweep d = d.modFdb Fdb.sweepOn := by
  refine (if_neg (Nat.not_lt.2 due)).trans ?_
  cases here : tget d.fdb.entries d.fdb.sweepNext with
  | none => rfl
  | some e => dsimp only; rw [if_pos (left e here)]

theorem FdbEnt.visit_of_hit {e : FdbEnt} (hit : e.hit = true) (n : Nat) :
    e.visit n = some { e with hit := false, aged := false, lastSeen := n % 32768, sweep := decide (n % 2 = 1) } := if_pos hit

theorem FdbEnt.visit_of_idle {e : FdbEnt} (idle : e.hit = false) (n : Nat) :
    e.visit n = if e.aged then none else some { e with aged := true, sweep := decide (n % 2 = 1) } := if_neg (Bool.eq_false_iff.1 idle)

/-- Before the last index the sweeper goes to the next one. -/
theorem Fdb.sweepOn_of_not_last {f : Fdb} (before : f.sweepNext ≠ 262143) : f.sweepOn = { f with sweepNext := f.sweepNext + 1 } :=
  if_neg (by omega)

/-! ### The rinse of the CAM (R263) -/

/-- The device with an entry of a CAM table set. -/
def Dev.putCam (d : Dev) (t i : Nat) (e : CamEnt) : Dev := { d with cam := { d.cam with entries := tset d.cam.entries (camKey t i) e } }

/-- The device without an entry of a CAM table. -/
def Dev.delCam (d : Dev) (t i : Nat) : Dev := { d with cam := { d.cam with entries := tdel d.cam.entries (camKey t i) } }

/-- A valid entry is removed where its copy is bad, and else its rows are those of the copy. -/
theorem camRewrite_of_entry {d : Dev} {t i : Nat} {e : CamEnt} (valid : tget d.cam.entries (camKey t i) = some e) (bad : Bool) :
    camRewrite t i bad d = if bad then (d.delCam t i).raise 0x376 (le 1 t ++ le 2 i) else d.putCam t i { e with rows := e.copy } := by
  unfold camRewrite
  rw [valid]
  rfl

/-! ### The end of a rebuild (R251, R265) -/

/-- The device without the rebuilds of a job. -/
def Dev.endJob (d : Dev) (job : Nat) : Dev := d.modFdb (fun f => { f with rebuilds := f.rebuilds.filter (fun y => y.job != job) })

/-- The device when the table operation of a job has been carried out: its entries are rehashed, or those of a domain or member are removed. -/
def Dev.rebuilt (d : Dev) (job : Nat) : RebuildWhat → Dev
  | .salt salt => (d.rehash salt).endOp (fun o => o = .tableRebuild job)
  | .domain fid => d.modFdb (fun f => { f with entries := f.entries.filter (fun e => e.2.static || e.2.fid != fid) })
  | .member fid src => d.modFdb (fun f => { f with entries := f.entries.filter (fun e => e.2.static || e.2.fid != fid || e.2.source != src) })

/-- A rebuild that runs is carried out, and its command completes. -/
theorem tableRebuildDone_of_running {d : Dev} {job : Nat} {x : Rebuild} (runs : d.fdb.rebuilds.find? (fun x => x.job == job && x.running) = some x) :
    tableRebuildDone job d = ((d.endJob job).rebuilt job x.what).complete x.ref .ok := by
  unfold tableRebuildDone
  rw [runs]
  dsimp only
  cases x.what <;> rfl

end Sys2Proof.Machine

open Sys2Proof Sys2Proof.Machine

/-- Settles O10: each event is the case of its meaning named by its hypotheses. -/
theorem forwardingTableUpkeep : Obligations.ForwardingTableUpkeep := by
  unfold Obligations.ForwardingTableUpkeep
  refine ⟨fun s r rest oldest => ?oldest, fun d r m => ⟨Dev.learn_of_no_member, fun known domain => ⟨?hit, ?refused, ?inserted⟩⟩,
    fun s e due here learned unvisited => ?visit, fun s due left => ?pass, fun e n f => ⟨fun hit => e.visit_of_hit hit n, ?marked, ?aged, ?next⟩,
    fun s t i e bad valid => ?rinse, ?rebuild⟩
  case oldest => rw [exec_fdbLearn, fdbLearn_of_fifo oldest]
  case hit => exact fun i e found learned source dest => Dev.learn_hits known domain found learned source dest
  case refused => exact fun absent scope full => Dev.learn_refused known domain absent full
  case inserted => exact fun absent room e d1 i d2 new placed => Dev.learn_inserts known domain absent room new placed
  case visit =>
    rw [exec_fdbAgeSweep, fdbAgeSweep_visits due here learned unvisited, Dev.visitEnt]
    cases e.visit s.dev.fdb.sweepNo <;> rfl
  case pass => rw [exec_fdbAgeSweep, fdbAgeSweep_passes due left]
  case marked => exact fun idle fresh => by rw [e.visit_of_idle idle, fresh]; rfl
  case aged => exact fun idle aged => by rw [e.visit_of_idle idle, aged]; rfl
  case next => exact Fdb.sweepOn_of_not_last
  case rinse => rw [exec_camVerifyRewrite, camRewrite_of_entry valid]; rfl
  case rebuild =>
    rintro s job x _ runs rfl
    rw [exec_tableRebuildDone, tableRebuildDone_of_running runs]
    cases x.what <;> rfl
end

section
/-!
PROOFS. FDB_CONFIG and FDB_ENTRY (R251, R255, R265, R266, R493): the case of each command in which no check fails, and the boundary at which its change takes
effect.
-/
namespace Sys2Proof.Machine
open Sys2Proof

/-! ### A table operation put to Sluice (R493) -/

/-- The device when a table operation with the next job number waits in the FIFO of Sluice. -/
def Dev.rebuildAsked (d : Dev) (ctx : Nat) (ref : CmdRef) : Dev :=
  ({ d with sluice := { d.sluice with
      fifo := d.sluice.fifo ++ [{ op := .tableRebuild d.fdb.nextJob, index := ctx, since := d.now, ref := some ref, reported := false }] } } : Dev).modFdb
    (fun f => { f with nextJob := f.nextJob + 1 })

/-- The device in which the next job number has been taken. -/
def Dev.jobTaken (d : Dev) : Dev := d.modFdb (fun f => { f with nextJob := f.nextJob + 1 })

theorem newFdbJob_eq (d : Dev) : d.newFdbJob = (d.fdb.nextJob, d.jobTaken) := rfl

/-- Sluice has room for a table operation. -/
structure Dev.RebuildRoom (d : Dev) : Prop where
  room : d.sluice.fifo.length < 1024
  cost : d.sluice.base + d.sluice.reserve + (HeavyOp.tableRebuild d.fdb.nextJob).cost ≤ d.sluice.budget

/-- Where it has, the request for a new job waits. -/
theorem jobTaken_request_waits {d : Dev} (fits : d.RebuildRoom) (ctx : Nat) (ref : CmdRef) :
    d.jobTaken.request (.tableRebuild d.fdb.nextJob) ctx (some ref) = (d.rebuildAsked ctx ref, true) :=
  request_waits d.jobTaken _ _ _ fits.room fits.cost

/-! ### GLOBAL (R251, R265) -/

section
variable {d : Dev} {r : FdbGlobalReq} (salt : r.salt < 2 ^ 32) (low : 1 ≤ r.agePeriod) (high : r.agePeriod ≤ 65535)
include salt low high

/-- Settings with the SALT in force wait. -/
theorem fdbGlobal_waits (same : r.salt = d.fdb.salt) (ctx : Nat) (ref : CmdRef) : fdbGlobal ctx r ref d = d.later (.fdbGlobal (some ref) r) :=
  (if_neg (by omega)).trans (if_pos same)

/-- A new SALT asks for a rebuild, which completes the command; the settings wait. -/
theorem fdbGlobal_rebuilds (new : r.salt ≠ d.fdb.salt) (fits : d.RebuildRoom) (ctx : Nat) (ref : CmdRef) :
    fdbGlobal ctx r ref d =
      ((d.rebuildAsked ctx ref).modFdb (fun f => { f with
        rebuilds := f.rebuilds ++ [{ job := d.fdb.nextJob, ref, what := .salt r.salt, running := false }] })).later (.fdbGlobal none r) := by
  refine (if_neg (by omega)).trans ((if_neg new).trans ?_)
  rw [newFdbJob_eq]
  dsimp only
  rw [jobTaken_request_waits fits]
  rfl

end

/-- The device whose sweep goes on from its next entry at another AGE_PERIOD, from the next boundary on. -/
def Dev.repaceSweep (d : Dev) : Dev := d.modFdb (fun f => { f with sweepBase := f.sweepNext, sweepFrom := d.upNext })

/-- The boundary of GLOBAL writes the settings; only another AGE_PERIOD changes the pace of the sweep. -/
theorem applyFdbGlobal_eq (d : Dev) (ref : Option CmdRef) (r : FdbGlobalReq) :
    d.applyFdbGlobal ref r =
      ((if r.agePeriod = d.fdb.agePeriod then d else d.repaceSweep).modFdb (fun f => { f with
        learn := r.learn, oldest := r.oldest, agePeriod := r.agePeriod })).completeOpt ref .ok := rfl

/-! ### DOMAIN (R265) -/

/-- The fields of a domain that is enabled are in range, and its flow is no other domain's. -/
structure Dev.DomainFields (d : Dev) (r : FdbDomainReq) : Prop where
  flow : r.flow ≤ 131071
  missAct : r.missAct ≤ 2
  ring : r.missAct = 2 → ringOk r.mgmtRing = true
  ownFlow : d.fdb.domains.any (fun e => e.1 != r.fid && e.2.flow == r.flow) = false

theorem domainBad_eq_false {d : Dev} {r : FdbDomainReq} (number : r.fid ≤ 4095) (fields : r.enable = true → d.DomainFields r) :
    d.domainBad r = false := by
  cases enable : r.enable with
  | false => simp [Dev.domainBad, enable, number]
  | true =>
    obtain ⟨flow, missAct, ring, ownFlow⟩ := fields enable
    have ringValid : (r.missAct == 2 && !ringOk r.mgmtRing) = false := by simpa using ring
    unfold Dev.domainBad
    rw [ringValid, ownFlow]
    simp [number, flow, missAct]

section
variable {d : Dev} {r : FdbDomainReq} (passes : d.domainBad r = false) (ref : CmdRef)
include passes

theorem fdbDomain_waits : fdbDomain r ref d = d.later (.fdbDomain ref r) := if_neg (Bool.eq_false_iff.1 passes)

/-- The boundary sets the domain. -/
theorem applyFdbDomain_enables (enable : r.enable = true) :
    d.applyFdbDomain ref r = (d.modFdb (fun f => { f with
      domains := tset f.domains r.fid { flow := r.flow, learn := r.learn, missAct := r.missAct, mgmtRing := r.mgmtRing } })).complete ref .ok :=
  (if_neg (Bool.eq_false_iff.1 passes)).trans (if_pos enable)

/-- The boundary removes the domain, with its member records, which is the model's choice (log entry 32); its learned entries begin to be cleared. -/
theorem applyFdbDomain_removes (enable : r.enable = false) :
    d.applyFdbDomain ref r = (d.modFdb (fun f => { f with
      domains := tdel f.domains r.fid, members := f.members.filter (fun m => m.fid != r.fid) })).startClearing ref (.domain r.fid) :=
  (if_neg (Bool.eq_false_iff.1 passes)).trans (if_neg (Bool.eq_false_iff.1 enable))

end

/-! ### MEMBER (R265) -/

/-- There is room for one more member of a domain. -/
structure Fdb.MemberRoom (f : Fdb) (fid : Nat) : Prop where
  ofDomain : (f.members.filter (fun m => m.fid == fid)).length < 256
  ofTable : f.members.length < 32768

theorem memberBad_eq_none {d : Dev} {r : FdbMemberReq} (number : r.fid ≤ 4095) (source : d.sourceOk r.source = true)
    (flow : r.add = true → r.returnFlow ≤ 131071) (room : r.add = true → d.fdb.member r.fid r.source = none → d.fdb.MemberRoom r.fid) :
    d.memberBad r = none := by
  have valid : ¬ (4095 < r.fid ∨ (!d.sourceOk r.source) = true ∨ (r.add = true ∧ 131071 < r.returnFlow)) := by
    rintro (wide | unknown | ⟨adds, wide⟩)
    · exact Nat.not_lt.2 number wide
    · simp [source] at unknown
    · exact Nat.not_lt.2 (flow adds) wide
  have placed : ¬ (r.add = true ∧ (d.fdb.member r.fid r.source).isNone = true ∧
      (256 ≤ (d.fdb.members.filter (fun m => m.fid == r.fid)).length ∨ 32768 ≤ d.fdb.members.length)) := by
    rintro ⟨adds, new, full⟩
    obtain ⟨ofDomain, ofTable⟩ := room adds (Option.isNone_iff_eq_none.1 new)
    exact full.elim (Nat.not_le.2 ofDomain) (Nat.not_le.2 ofTable)
  exact (if_neg valid).trans (if_neg placed)

/-- The member records but that of a request. -/
def Fdb.otherMembers (f : Fdb) (r : FdbMemberReq) : List Member := f.members.filter (fun m => !(m.fid == r.fid && m.source == r.source))

section
variable {d : Dev} {r : FdbMemberReq} (passes : d.memberBad r = none) (ref : CmdRef)
include passes

theorem fdbMember_waits : fdbMember r ref d = d.later (.fdbMember ref r) := by
  unfold fdbMember
  rw [passes]

/-- The boundary writes the member in the order of its source code, or removes it and begins to clear its learned entries. -/
theorem applyFdbMember_of_passes :
    d.applyFdbMember ref r =
      if r.add then (d.modFdb (fun f => { f with
        members := insertBy (fun a b => decide (a.fid * 65536 + a.source ≤ b.fid * 65536 + b.source))
          { fid := r.fid, source := r.source, flow := r.returnFlow, flood := r.flood } (d.fdb.otherMembers r) })).complete ref .ok
      else (d.modFdb (fun f => { f with members := d.fdb.otherMembers r })).startClearing ref (.member r.fid r.source) := by
  unfold Dev.applyFdbMember
  rw [passes]
  rfl

end

/-! ### LIMIT (R255, R265) -/

/-- A limit in range of a known scope waits. -/
theorem fdbLimit_waits {d : Dev} {r : FdbLimitReq} (scope : d.scopeOk r.scope = true)
    (limit : r.limit.elim true (fun n => decide (n ≤ 262144)) = true) (ref : CmdRef) : fdbLimit r ref d = d.later (.fdbLimit ref r) := by
  have low : r.limit.elim false (fun n => decide (262144 < n)) = false := by
    cases given : r.limit with
    | none => rfl
    | some n => simpa [given] using limit
  refine if_neg ?_
  rw [scope, low]
  decide

/-! ### ADD (R266) -/

/-- The source that a request stores: 0xFFFF for a static entry. -/
def storedSource (r : FdbAddReq) : Nat := if r.static then 0xFFFF else r.source

/-- The entry `e` overwritten by a request, in the sweep `n`. -/
def FdbEnt.overwritten (e : FdbEnt) (r : FdbAddReq) (n : Nat) : FdbEnt :=
  { e with static := r.static, source := storedSource r, dest := r.dest, hit := false, aged := false, lastSeen := n % 32768 }

/-- A request that ADD accepts: a key of a domain, fields in range, and no limit that refuses a learned entry (R255, log entry 33). -/
structure Dev.Addable (d : Dev) (r : FdbAddReq) : Prop where
  key : d.fdbKeyOk r.fid r.mac = true
  dest : r.dest ≤ 131071
  source : r.static = false → d.sourceOk r.source = true
  room : r.static = false →
    d.fdb.overLimit (storedSource r) ((d.fdb.lookup r.fid r.mac).bind (fun p => if p.2.static then none else some p.2.source)) = none

section
variable {d : Dev} {r : FdbAddReq} (accepted : d.Addable r) (ref : CmdRef)
include accepted

/-- No check refuses its fields. -/
theorem Dev.Addable.valid : ¬ ((!d.fdbKeyOk r.fid r.mac) = true ∨ 131071 < r.dest ∨ ((!r.static) = true ∧ (!d.sourceOk r.source) = true)) := by
  obtain ⟨key, dest, source, -⟩ := accepted
  rintro (noKey | wide | ⟨learned, unknown⟩)
  · simp [key] at noKey
  · exact Nat.not_lt.2 dest wide
  · simp [source (by simpa using learned)] at unknown

/-- No limit refuses it. -/
theorem Dev.Addable.unlimited : ¬ ((!r.static) = true ∧
    (d.fdb.overLimit (storedSource r) ((d.fdb.lookup r.fid r.mac).bind (fun p => if p.2.static then none else some p.2.source))).isSome = true) := by
  rintro ⟨learned, full⟩
  simp [accepted.room (by simpa using learned)] at full

/-- The entry of its key is overwritten. -/
theorem fdbAdd_overwrites {i : Nat} {e : FdbEnt} (found : d.fdb.lookup r.fid r.mac = some (i, e)) :
    fdbAdd r ref d = (d.putEnt i (e.overwritten r d.fdb.sweepNo)).complete ref .ok (fdbResp (some (i, e.overwritten r d.fdb.sweepNo))) := by
  refine (if_neg accepted.valid).trans ((if_neg accepted.unlimited).trans ?_)
  rw [found]
  rfl

/-- A new entry is inserted and answered, or there is no place for it. -/
theorem fdbAdd_inserts {e : FdbEnt} {d1 : Dev} (absent : d.fdb.lookup r.fid r.mac = none)
    (new : d.newEnt r.static r.fid r.mac (storedSource r) r.dest = (e, d1)) :
    fdbAdd r ref d = (d1.insertEnt e).1.elim ((d1.insertEnt e).2.complete ref .noResource)
      (fun i => (d1.insertEnt e).2.complete ref .ok (fdbResp (some (i, e)))) := by
  unfold storedSource at new
  refine (if_neg accepted.valid).trans ((if_neg accepted.unlimited).trans ?_)
  rw [absent, new]
  dsimp only
  rcases d1.insertEnt e with ⟨place, d2⟩
  cases place <;> rfl

end

/-! ### DELETE, READ_KEY, FLUSH and READ_INDEX (R266) -/

section
variable {d : Dev} {fid mac : Nat} (key : d.fdbKeyOk fid mac = true) (ref : CmdRef)
include key

/-- The entry of a key is removed and answered. -/
theorem fdbDelete_removes :
    fdbDelete fid mac ref d = ((d.fdb.lookup fid mac).elim d (fun p => d.delEnt p.1)).complete ref .ok (fdbResp (d.fdb.lookup fid mac)) :=
  if_neg (by simp [key])

/-- The entry of a key is answered. -/
theorem fdbReadKey_answers : fdbReadKey fid mac ref d = d.complete ref .ok (fdbResp (d.fdb.lookup fid mac)) :=
  if_neg (by simp [key])

end

/-- The flush of a request, before it is admitted. -/
def flushOf (r : FdbFlushReq) (job : Nat) (ref : CmdRef) : FlushJob :=
  { job, ref, fid := r.fid, scope := r.scope, next := 0, removed := 0, running := false }

/-- A flush of known scopes asks for a table operation. -/
theorem fdbFlush_asks {d : Dev} {r : FdbFlushReq} (domain : r.fid.elim true (fun n => decide (n ≤ 4095) && (tget d.fdb.domains n).isSome) = true)
    (scope : r.scope.elim true d.scopeOk = true) (fits : d.RebuildRoom) (ctx : Nat) (ref : CmdRef) :
    fdbFlush ctx r ref d = (d.rebuildAsked ctx ref).modFdb (fun f => { f with flushes := f.flushes ++ [flushOf r d.fdb.nextJob ref] }) := by
  have domainKnown : r.fid.elim false (fun n => decide (4095 < n) || (tget d.fdb.domains n).isNone) = false := by
    cases given : r.fid with
    | none => rfl
    | some n => simpa [given, Option.isSome_iff_ne_none] using domain
  have scopeKnown : r.scope.elim false (fun n => !d.scopeOk n) = false := by
    cases given : r.scope with
    | none => rfl
    | some n => simpa [given] using scope
  refine (if_neg (by rw [domainKnown, scopeKnown]; decide)).trans ?_
  rw [newFdbJob_eq]
  dsimp only
  rw [jobTaken_request_waits fits]
  rfl

/-- The entries from an index on are answered, up to the end of the table. -/
theorem fdbReadIndex_answers {i n : Nat} (index : i ≤ 262143) (low : 1 ≤ n) (high : n ≤ 64) (ref : CmdRef) (d : Dev) :
    fdbReadIndex i n ref d = d.complete ref .ok (le 4 (if 262144 - i < n then 262144 - i else n) ++
      (rangeFrom i (if 262144 - i < n then 262144 - i else n)).flatMap (fun i => (tget d.fdb.entries i).elim (zeros 16) FdbEnt.bytes)) :=
  if_neg (by omega)

end Sys2Proof.Machine

open Sys2Proof Sys2Proof.Machine

/-- Settles O27: a command of a served context runs its body, and each body and each boundary is the case of its meaning in which the checks pass. -/
theorem fdbCommands : Obligations.FdbCommands := by
  unfold Obligations.FdbCommands
  refine ⟨fun s ctx r served salt low high => ⟨fun same => ?global, fun new room cost => ?rebuild⟩, ?globalBoundary,
    fun s ctx r served number fields => ?domain, ?domainBoundary, fun s ctx r served number source flow room => ?member, ?memberBoundary,
    fun s ctx r served scope limit => ?limit, fun _ _ _ => rfl, ?add, fun s ctx f m served key => ?delete, fun s ctx f m served key => ?readKey,
    ?flush, ?readIndex⟩
  case global =>
    rw [exec_mailbox_served (body := fdbGlobal ctx r) rfl served, fdbGlobal_waits (d := s.dev.begun ctx) salt low high same]
    rfl
  case rebuild =>
    rw [exec_mailbox_served (body := fdbGlobal ctx r) rfl served, fdbGlobal_rebuilds (d := s.dev.begun ctx) salt low high new ⟨room, cost⟩]
    rfl
  case globalBoundary =>
    refine fun d ref r => ⟨fun same => ?_, fun new => ?_⟩
    · exact (applyFdbGlobal_eq d ref r).trans (by rw [if_pos same])
    · exact (applyFdbGlobal_eq d ref r).trans (by rw [if_neg new]; rfl)
  case domain =>
    have passes : (s.dev.begun ctx).domainBad r = false := domainBad_eq_false number (fun enable => by
      obtain ⟨flow, missAct, ring, ownFlow⟩ := fields enable; exact ⟨flow, missAct, ring, ownFlow⟩)
    rw [exec_mailbox_served (body := fdbDomain r) rfl served, fdbDomain_waits passes]
    rfl
  case domainBoundary =>
    exact fun d ref r passes => ⟨applyFdbDomain_enables passes ref, applyFdbDomain_removes passes ref⟩
  case member =>
    have passes : (s.dev.begun ctx).memberBad r = none := memberBad_eq_none number source flow (fun adds new => by
      obtain ⟨ofDomain, ofTable⟩ := room adds new; exact ⟨ofDomain, ofTable⟩)
    rw [exec_mailbox_served (body := fdbMember r) rfl served, fdbMember_waits passes]
    rfl
  case memberBoundary =>
    rintro d ref r _ passes rfl
    refine ⟨fun adds => (applyFdbMember_of_passes passes ref).trans (if_pos adds), fun removes => ?_⟩
    exact (applyFdbMember_of_passes passes ref).trans (if_neg (Bool.eq_false_iff.1 removes))
  case limit =>
    rw [exec_mailbox_served (body := fdbLimit r) rfl served, fdbLimit_waits (d := s.dev.begun ctx) scope limit]
    rfl
  case add =>
    rintro s ctx r _ served key dest source rfl room
    have accepted : (s.dev.begun ctx).Addable r := ⟨key, dest, source, room⟩
    rw [exec_mailbox_served (body := fdbAdd r) rfl served]
    refine ⟨?_, fun e d absent new => ?_⟩
    · rintro i e _ found rfl
      rw [fdbAdd_overwrites accepted _ found]
      rfl
    · rw [fdbAdd_inserts accepted _ absent new]
  case delete => rw [exec_mailbox_served (body := fdbDelete f m) rfl served, fdbDelete_removes (d := s.dev.begun ctx) key]; rfl
  case readKey => rw [exec_mailbox_served (body := fdbReadKey f m) rfl served, fdbReadKey_answers (d := s.dev.begun ctx) key]; rfl
  case flush =>
    rintro s ctx r _ served domain scope room cost rfl
    rw [exec_mailbox_served (body := fdbFlush ctx r) rfl served, fdbFlush_asks (d := s.dev.begun ctx) domain scope ⟨room, cost⟩]
    rfl
  case readIndex =>
    rintro s ctx i n _ served index low high rfl
    rw [exec_mailbox_served (body := fdbReadIndex i n) rfl served, fdbReadIndex_answers index low high]
    rfl
end

section
/-!
PROOFS. CAM_LAYOUT and CAM_ENTRY (R260, R262, R264, R267, R268): the case of each command in which no check fails, and the boundary of a layout.
-/
namespace Sys2Proof.Machine
open Sys2Proof

/-! ### CAM_LAYOUT (R260, R267) -/

/-- The fields of a table that is enabled are in range, and its banks are no other table's. -/
structure Dev.LayoutFields (d : Dev) (r : CamLayoutReq) : Prop where
  some_bank : 1 ≤ r.banks
  lastBank : r.firstBank + r.banks ≤ 16
  width : r.width = 1 ∨ r.width = 2 ∨ r.width = 4
  firstAligned : r.firstBank % r.width = 0
  banksAligned : r.banks % r.width = 0
  offsets : (r.segOff.take r.width).any (fun o => decide (60 < o)) = false
  ring : ringOk r.mgmtRing = true
  ownBanks : d.cam.tables.any (fun e => e.1 != r.table && decide (e.2.firstBank < r.firstBank + r.banks) &&
    decide (r.firstBank < e.2.firstBank + e.2.banks)) = false

/-- A layout of an empty table passes its checks. -/
theorem layoutBad_eq_none {d : Dev} {r : CamLayoutReq} (number : r.table ≤ 7) (empty : d.cam.holds r.table = false)
    (fields : r.enable = true → d.LayoutFields r) : d.layoutBad r = none := by
  unfold Dev.layoutBad
  dsimp only
  rw [empty]
  refine (if_neg ?_).trans (if_neg Bool.false_ne_true)
  rintro (wide | ⟨enable, bad⟩)
  · exact Nat.not_lt.2 number wide
  · obtain ⟨some_bank, lastBank, width, firstAligned, banksAligned, offsets, ring, ownBanks⟩ := fields enable
    have widthValid : (r.width == 1 || r.width == 2 || r.width == 4) = true := by simpa [or_assoc] using width
    rw [widthValid, offsets, ring, ownBanks] at bad
    simp [firstAligned, banksAligned] at bad
    omega

/-- The table of a layout: bits 7:5 of INPUT_MASK and the offsets beyond WIDTH are ignored. -/
def camTableOf (r : CamLayoutReq) : CamTable :=
  { firstBank := r.firstBank, banks := r.banks, width := r.width, inputMask := r.inputMask % 32, segOff := r.segOff.take r.width, mgmtRing := r.mgmtRing }

section
variable {d : Dev} {r : CamLayoutReq} (passes : d.layoutBad r = none) (ref : CmdRef)
include passes

theorem camLayout_waits : camLayout r ref d = d.later (.camLayout ref r) := by
  unfold camLayout
  rw [passes]

/-- The boundary sets the table, or removes it. -/
theorem applyCamLayout_of_passes :
    d.applyCamLayout ref r = ({ d with cam := { d.cam with
      tables := if r.enable then tset d.cam.tables r.table (camTableOf r) else tdel d.cam.tables r.table } } : Dev).complete ref .ok := by
  unfold Dev.applyCamLayout
  rw [passes]
  rfl

end

/-! ### CAM_ENTRY (R262, R264, R268) -/

/-- The entry of a request for a table of a width: its rows and its copy are the key, and only ACTION FLOW has a class and a flow. -/
def camEntOf (r : CamWriteReq) (width : Nat) : CamEnt :=
  { rows := fit (20 * width) r.key, copy := fit (20 * width) r.key, priority := r.priority % 4096, action := r.action,
    cls := if r.action = 0 then r.cls else 0, flow := if r.action = 0 then r.flow else 0 }

/-- A result in range is written with its rows and verify copy. -/
theorem camWrite_writes {d : Dev} {r : CamWriteReq} {t : CamTable} (enabled : d.camAt r.table r.index = some t) (action : r.action ≤ 2)
    (result : r.action = 0 → r.cls ≤ 7 ∧ r.flow ≤ 131071) (ref : CmdRef) :
    camWrite r ref d = (d.putCam r.table r.index (camEntOf r t.width)).complete ref .ok := by
  unfold camWrite
  rw [enabled]
  exact if_neg (by omega)

/-- The answer of READ: the layout of a request, with the key from the verify copy. -/
def camReadResp (c : Cam) (t i : Nat) : Bytes :=
  le 1 2 ++ le 1 t ++ le 2 (b2n (tget c.entries (camKey t i)).isSome) ++ le 4 i ++
    (tget c.entries (camKey t i)).elim (zeros 88) (fun e => le 2 e.priority ++ le 1 e.action ++ le 1 e.cls ++ le 4 e.flow ++ fit 80 e.copy)

section
variable {d : Dev} {t i : Nat} {x : CamTable} (enabled : d.camAt t i = some x) (ref : CmdRef)
include enabled

/-- The entry at an index of an enabled table is removed. -/
theorem camInvalidate_removes : camInvalidate t i ref d = (d.delCam t i).complete ref .ok := by
  unfold camInvalidate
  rw [enabled]
  rfl

/-- The entry at an index of an enabled table is answered. -/
theorem camRead_answers : camRead t i ref d = d.complete ref .ok (camReadResp d.cam t i) := by
  unfold camRead
  rw [enabled]
  rfl

end

end Sys2Proof.Machine

open Sys2Proof Sys2Proof.Machine

/-- Settles O28: a command of a served context runs its body, and each body and the boundary of a layout is the case of its meaning in which the checks pass. -/
theorem camCommands : Obligations.CamCommands := by
  unfold Obligations.CamCommands
  refine ⟨fun s ctx r served number empty fields => ?layout, fun d ref r passes => applyCamLayout_of_passes passes ref, ?write,
    fun s ctx t i x served enabled => ?invalidate, fun s ctx t i x served enabled => ?read⟩
  case layout =>
    have passes : (s.dev.begun ctx).layoutBad r = none := layoutBad_eq_none number empty (fun enable => by
      obtain ⟨some_bank, lastBank, width, firstAligned, banksAligned, offsets, ring, ownBanks⟩ := fields enable
      exact ⟨some_bank, lastBank, width, firstAligned, banksAligned, offsets, ring, ownBanks⟩)
    rw [exec_mailbox_served (body := camLayout r) rfl served, camLayout_waits passes]
    rfl
  case write =>
    rintro s ctx r t _ served enabled action result rfl
    rw [exec_mailbox_served (body := camWrite r) rfl served, camWrite_writes (d := s.dev.begun ctx) enabled action result]
    rfl
  case invalidate => rw [exec_mailbox_served (body := camInvalidate t i) rfl served, camInvalidate_removes (d := s.dev.begun ctx) enabled]; rfl
  case read => rw [exec_mailbox_served (body := camRead t i) rfl served, camRead_answers (d := s.dev.begun ctx) enabled]; rfl
end

section
/-!
PROOFS. What every command does to the state (R431, 18_host_mailboxes.md): the device alone, or the device and host memory by the one operation that writes to it. Every
command goes on, the queue stays, host memory keeps its form, and only the commands that write to it change it.
-/
namespace Sys2Proof.Machine
open Sys2Proof

/-- An operation on the device and on host memory. -/
abbrev DmaOp := Dev → List Host.Cell → Dev × List Host.Cell

/-- The operation on host memory of each command that has one. -/
def dmaOp : Instr → Option DmaOp
  | .counterDumpDone => some dumpDone
  | .egressSelect o => some (egressSelect o)
  | .hostTxFetch o => some (hostTxFetch o)
  | .doorbellLo o => some (doorbell o)
  | .mailboxComplete ctx => some (mailboxComplete ctx)
  | .eventRaise now => some (eventRaise now)
  | .nvmeCompletion r => some (nvmeCompletion r)
  | .pauseEnd readable now => some (fun d mem => takeRung (pauseEnd readable now d) mem)
  | .rollbackPauseEnd now => some (fun d mem => takeRung (rollbackPauseEnd now d) mem)
  | .d3hotTransition d3 => some (d3hotTransition d3)
  | .systemMemoryAccess r => some (systemMemory r)
  | _ => none

/-- A command with an operation on host memory runs it. -/
theorem exec_of_dmaOp {c : Instr} {f : DmaOp} (op : dmaOp c = some f) (s : State) : exec c s = s.onBoth f := by
  cases c
  case counterDumpDone | egressSelect | hostTxFetch | doorbellLo | mailboxComplete | eventRaise | nvmeCompletion | pauseEnd | rollbackPauseEnd
    | d3hotTransition | systemMemoryAccess => cases op; rfl
  all_goals exact absurd op (Option.some_ne_none f).symm

/-- A command without one changes the device alone. -/
theorem exec_of_no_dmaOp {c : Instr} (noOp : dmaOp c = none) (s : State) : ∃ d, exec c s = .next (s.withDev d) := by
  cases c
  case counterDumpDone | egressSelect | hostTxFetch | doorbellLo | mailboxComplete | eventRaise | nvmeCompletion | pauseEnd | rollbackPauseEnd
    | d3hotTransition | systemMemoryAccess => exact absurd noOp (Option.some_ne_none _)
  all_goals exact ⟨_, rfl⟩

/-- The commands that touch the host are those with an operation on host memory. -/
theorem dmaOp_of_untouched {c : Instr} (untouched : touchesHost c = false) : dmaOp c = none := by
  cases c
  case counterDumpDone | egressSelect | hostTxFetch | doorbellLo | mailboxComplete | eventRaise | nvmeCompletion | pauseEnd | rollbackPauseEnd
    | d3hotTransition | systemMemoryAccess => exact absurd untouched Bool.false_ne_true.symm
  all_goals rfl

/-- Each operation on host memory keeps its canonical form. -/
theorem memWf_dmaOp {c : Instr} {f : DmaOp} (op : dmaOp c = some f) (d : Dev) {mem : List Host.Cell} (form : memWf mem = true) :
    memWf (f d mem).2 = true := by
  cases c
  case counterDumpDone => cases op; exact memWf_dumpDone d mem form
  case egressSelect o => cases op; exact memWf_egressSelect o d mem form
  case hostTxFetch o => cases op; exact memWf_hostTxFetch o d mem form
  case doorbellLo o => cases op; exact memWf_doorbell o d mem form
  case mailboxComplete ctx => cases op; exact memWf_mailboxComplete ctx d mem form
  case eventRaise now => cases op; exact memWf_eventRaise now d mem form
  case nvmeCompletion r => cases op; exact memWf_nvmeCompletion r d mem form
  case pauseEnd readable now => cases op; exact memWf_takeRung (pauseEnd readable now d) mem form
  case rollbackPauseEnd now => cases op; exact memWf_takeRung (rollbackPauseEnd now d) mem form
  case d3hotTransition d3 => cases op; exact memWf_d3hotTransition d3 d mem form
  case systemMemoryAccess r => cases op; exact memWf_systemMemory r d mem form
  all_goals exact absurd op (Option.some_ne_none f).symm

/-- Every command goes on to a state with the same queue; it changes the device alone, or host memory too by its operation. -/
theorem exec_cases (c : Instr) (s : State) : ∃ t, exec c s = .next t ∧ t.pending = s.pending ∧
    (dmaOp c = none ∧ t.hostMem = s.hostMem ∨ ∃ f, dmaOp c = some f ∧ t.hostMem = (f s.dev s.hostMem).2) := by
  cases op : dmaOp c with
  | none =>
    obtain ⟨d, e⟩ := exec_of_no_dmaOp op s
    exact ⟨_, e, rfl, .inl ⟨rfl, rfl⟩⟩
  | some f => exact ⟨_, exec_of_dmaOp op s, rfl, .inr ⟨f, rfl, rfl⟩⟩

/-- Every command keeps host memory in its canonical form. -/
theorem memWf_exec {c : Instr} {s t : State} (runs : exec c s = .next t) (form : memWf s.hostMem = true) : memWf t.hostMem = true := by
  obtain ⟨u, e, -, ⟨-, same⟩ | ⟨f, op, written⟩⟩ := exec_cases c s <;> cases runs.symm.trans e
  · rwa [same]
  · rw [written]
    exact memWf_dmaOp op s.dev form

/-- A step runs the front command on the state with the rest of the queue. -/
theorem step_cons (c : Instr) (rest : List Instr) (s : State) : step { s with pending := c :: rest } = exec c { s with pending := rest } := rfl

/-- On an empty queue the block idles (log entry 5). -/
theorem step_of_idle {s : State} (idle : s.pending = []) : step s = .next s := by
  unfold step
  rw [idle]

/-- Every step keeps host memory in its canonical form. -/
theorem memWf_step {s t : State} (runs : step s = .next t) (form : memWf s.hostMem = true) : memWf t.hostMem = true := by
  unfold step at runs
  split at runs
  next => cases runs; exact form
  next c rest _ => exact memWf_exec (s := { s with pending := rest }) runs form

end Sys2Proof.Machine

open Sys2Proof Sys2Proof.Machine

/-- Settles O1: a step by the form of the queue. -/
theorem stepRunsFrontCommand : Obligations.StepRunsFrontCommand := by
  unfold Obligations.StepRunsFrontCommand
  exact ⟨step_cons, fun _ idle => step_of_idle idle⟩

/-- Settles O2: what every command does to the state. -/
theorem everyCommandGoesOn : Obligations.EveryCommandGoesOn := by
  unfold Obligations.EveryCommandGoesOn
  intro c s
  obtain ⟨t, e, queue, -⟩ := exec_cases c s
  exact ⟨t, e, queue⟩

/-- Settles O3: a command outside the list has no operation on host memory. -/
theorem onlyDmaCommandsWriteHostMemory : Obligations.OnlyDmaCommandsWriteHostMemory := by
  unfold Obligations.OnlyDmaCommandsWriteHostMemory
  intro c s t untouched runs a
  obtain ⟨d, e⟩ := exec_of_no_dmaOp (dmaOp_of_untouched untouched) s
  cases runs.symm.trans e
  rfl

/-- Settles O4: the operations on host memory keep its form, and so does every command and every step. -/
theorem hostMemoryFormIsKept : Obligations.HostMemoryFormIsKept := by
  unfold Obligations.HostMemoryFormIsKept
  exact fun _ _ form runs => memWf_step runs form
end

section
/-!
PROOFS. How a command that changes the device alone is run: by the function of its event, or, from the mailbox, by its body.
-/
namespace Sys2Proof.Machine
open Sys2Proof

/-- A command that changes the device alone leads to the device that its event's function answers. -/
theorem exec_next {c : Instr} {s : State} {d e : Dev} (runs : exec c s = .next (s.withDev d)) (is : d = e) : exec c s = .next (s.withDev e) :=
  is ▸ runs

/-- A mailbox command of a served context leads to the device that its body answers. -/
theorem exec_served {s : State} {ctx op : Nat} {c : Instr} {body : CmdRef → Dev → Dev} {e : Dev}
    (runs : exec c s = s.onDev (fun d => d.mailbox ctx op body)) (served : s.dev.served ctx op = true)
    (is : body (s.dev.refOf ctx) (s.dev.begun ctx) = e) : exec c s = .next (s.withDev e) :=
  exec_next (exec_mailbox_served runs served) is

/-- So does one that reads the host's data, outside D3hot (R431). -/
theorem exec_served_dma {s : State} {ctx op : Nat} {c : Instr} {body : CmdRef → Dev → Dev} {e : Dev}
    (runs : exec c s = s.onDev (fun d => d.mailboxDma ctx op body)) (served : s.dev.served ctx op = true) (awake : s.dev.host.d3 = false)
    (is : body (s.dev.refOf ctx) (s.dev.begun ctx) = e) : exec c s = .next (s.withDev e) := by
  rw [runs, ← is, ← mailboxDma_served s.dev ctx body served awake]
  rfl

end Sys2Proof.Machine
end

section
/-!
PROOFS. The events of an uplink port (R270, R273, R278, R280, R282, R283, R493): each event in the cases of its meaning.
-/
namespace Sys2Proof.Machine
open Sys2Proof

variable {d : Dev} {p now : Nat}

/-- An entry of a configured list sets the gates (R278). -/
theorem gateEntry_of_list (configured : (d.upPort p).list.isSome = true) : gateEntry p now d = d.setGates p now := if_pos configured

/-- The port under the list accepted, before the gates of its first moment are set (R280). -/
def Dev.listOperational (d : Dev) (p : Nat) (g : GateList) : Dev :=
  d.modUp p (fun x => { x with gate := some g, gatePend := none, gates := 0, inLpi := x.inLpi && !g.enable })

/-- The accepted list becomes operational at its first start, and completes its command with it (R280). -/
theorem gateOperational_of_reached {ref : CmdRef} {g : GateList} {a : Nat} (accepted : (d.upPort p).gatePend = some (ref, g, a)) (reached : a ≤ d.ptpNs now) :
    gateOperational p now d = ((d.listOperational p g).setGates p now).complete ref .ok (le 8 (a / 1000000000) ++ le 4 (a % 1000000000)) := by
  unfold gateOperational
  rw [accepted]
  exact if_neg (Nat.not_lt.2 reached)

section
variable {c : Nat} (verifies : (d.upPort p).verifyFrom = some c)
include verifies

/-- A verification that passes makes preemption active (R282). -/
theorem preemptVerify_passes : preemptVerify p true d = d.modGate p (fun x => { x with preemptActive := true, verifyFrom := none }) := by
  unfold preemptVerify
  rw [verifies]
  rfl

/-- One that fails after the verify time leaves it inactive, and is reported (R282). -/
theorem preemptVerify_fails (expired : c + 8 * (d.upPort p).set.verifyMs ≤ d.now) :
    preemptVerify p false d = (d.modGate p (fun x => { x with preemptActive := false, verifyFrom := none })).raise (upSource p 4) (le 1 (subPort p)) := by
  unfold preemptVerify
  rw [verifies]
  exact (if_neg Bool.false_ne_true).trans (if_neg (Nat.not_lt.2 expired))

end

/-- An idle port with Low Power Idle enabled and no gate list enters it, and counts it (R283). -/
theorem lpiEntry_enters (up : (d.upPort p).up = true) (enabled : (d.upPort p).set.lpi = true) (able : d.lpiAble p = true)
    (ungated : (d.upPort p).list.isNone = true) (awake : (d.upPort p).inLpi = false) (idle : d.upIdle p now = true) :
    lpiEntry p now d = (d.modUp p (fun x => { x with inLpi := true })).countUp p .uplLpiEntries :=
  if_pos ⟨up, enabled, able, ungated, by rw [awake]; rfl, idle⟩

/-- A link that comes up where the port is able ends the wake of its uplink (R273, R493). -/
theorem uplinkLinkChange_up {speed : Nat} (able : d.linkAble p speed = true) :
    uplinkLinkChange p true speed d = (d.setLink p true speed).endOp (fun o => o = .wakeUplink (if p = 0xA4 then 8 else (p - 0x40) / 4)) :=
  if_neg (by rw [able]; decide)

/-- A link that goes down is set so (R273). -/
theorem uplinkLinkChange_down (speed : Nat) : uplinkLinkChange p false speed d = d.setLink p false speed :=
  if_neg (fun bad => Bool.false_ne_true bad.1)

end Sys2Proof.Machine

open Sys2Proof Sys2Proof.Machine

/-- Settles O13: each event is the case of its meaning named by its hypotheses. -/
theorem uplinkPortEvents : Obligations.UplinkPortEvents := by
  unfold Obligations.UplinkPortEvents
  exact ⟨fun s p now configured => exec_next rfl (gateEntry_of_list configured),
    fun s p now ref g a accepted reached => exec_next rfl (gateOperational_of_reached accepted reached),
    fun s p c verifies => ⟨exec_next rfl (preemptVerify_passes verifies), fun expired => exec_next rfl (preemptVerify_fails verifies expired)⟩,
    fun s p now up enabled able ungated awake idle => exec_next rfl (lpiEntry_enters up enabled able ungated awake idle),
    fun s p speed => ⟨fun able => exec_next rfl (uplinkLinkChange_up able), exec_next rfl (uplinkLinkChange_down speed)⟩⟩
end

section
/-!
PROOFS. The events of tree protection (R288, R290 to R294, R303, R305, R317): each event in the cases of its meaning.
-/
namespace Sys2Proof.Machine
open Sys2Proof

/-! ### Keeper pulses (R291) -/

/-- A port that takes a good pulse: a loss that was reported is reported to end. -/
def Dev.pulseTaken (d : Dev) (r : PulseRx) (e : Nat × Port) : Dev :=
  (if e.2.pulseLost = true then d.protEvent e.2 0x285 else d).modPort e.1 (fun p => { p with
    goodPulses := p.goodPulses + b2n (near r.width 312500 25000), changePulse := p.changePulse || near r.width 937500 25000,
    lastPulse := some (if e.2.pulseLost = true then d.protEvent e.2 0x285 else d).now, pulseLost := false })

/-- A good pulse is taken by every port of its pair. -/
theorem pulseRx_of_good {d : Dev} {r : PulseRx} (edge : near r.edge 0 12500 = true)
    (width : near r.width 312500 25000 = true ∨ near r.width 937500 25000 = true) :
    pulseRx r d = (d.prot.ports.filter (fun e => e.2.pulse == some r.pair)).foldl (fun d e => d.pulseTaken r e) d := by
  have known : (near r.width 312500 25000 || near r.width 937500 25000) = true := by simpa using width
  refine if_neg ?_
  rw [edge, known]
  decide

/-- A width of a RENEW pulse is no width of a CHANGE pulse. -/
theorem near_change_of_near_renew {w : Int} (renew : near w 312500 25000 = true) : near w 937500 25000 = false := by
  simp only [near, Bool.and_eq_true, decide_eq_true_eq] at renew
  simp only [near, Bool.and_eq_false_iff, decide_eq_false_iff_not]
  omega

/-- A RENEW pulse at a port that misses none counts at it. -/
theorem pulseTaken_renew {d : Dev} {r : PulseRx} {t : Nat} {p : Port} (heard : p.pulseLost = false) (renew : near r.width 312500 25000 = true) :
    d.pulseTaken r (t, p) = d.modPort t (fun p => { p with goodPulses := p.goodPulses + 1, lastPulse := some d.now, pulseLost := false }) := by
  unfold Dev.pulseTaken
  rw [renew, near_change_of_near_renew renew, if_neg (Bool.eq_false_iff.1 heard)]
  simp only [Bool.or_false]
  rfl

/-! ### Expiry and time-outs (R292, R294, R317) -/

section
variable {d : Dev} {t : Nat} {p : Port} (here : d.port t = some p)
include here

/-- The lease of a standby expires while its tree is silent: a take is prepared, 640 ticks after its own release. -/
theorem expiryTest_takes (standby : p.state = .standby) (expired : p.expired d.now = true) (silent : 3 ≤ p.silentRun)
    (released : ∀ r, p.releaseAt = some r → r + 640 ≤ d.now) :
    d.expiryTest t = d.modPort t (fun p => { p with take := some (.expiry, d.now) }) := by
  have free : p.releaseAt.elim true (fun r => decide (r + 640 ≤ d.now)) = true := by
    cases e : p.releaseAt with
    | none => rfl
    | some r => exact decide_eq_true (released r e)
  unfold Dev.expiryTest
  rw [here]
  dsimp only
  rw [if_neg (not_or.2 ⟨not_not.2 standby, by rw [expired]; decide⟩), if_pos silent, if_pos free]

/-- It expires while its tree is heard: the hold is reported. -/
theorem expiryTest_holds (standby : p.state = .standby) (expired : p.expired d.now = true) (loud : p.silentRun < 3) (heard : p.witness.head? = some true)
    (first : p.holdRaised = false) :
    d.expiryTest t = (d.modPort t (fun p => { p with holdRaised := true })).protEvent p 0x282 := by
  unfold Dev.expiryTest
  rw [here]
  dsimp only
  rw [if_neg (not_or.2 ⟨not_not.2 standby, by rw [expired]; decide⟩), if_neg (Nat.not_le.2 loud), if_pos ⟨heard, by rw [first]; rfl⟩]

/-- PRIMARY takes a silent tree of which it has heard no holder. -/
theorem initTimeout_primary (init : p.state = .init) (primary : p.primary = true) (due : p.initSince + 640 ≤ d.now) (silent : 3 ≤ p.silentRun) :
    initTimeout t d = d.modPort t (fun p => { p with take := some (.create, d.now) }) := by
  unfold initTimeout
  rw [here]
  exact (if_neg (not_not.2 init)).trans (if_pos ⟨primary, due, silent⟩)

/-- A SECONDARY becomes STANDBY. -/
theorem initTimeout_secondary (init : p.state = .init) (secondary : p.primary = false) (due : p.initSince + 960 ≤ d.now) :
    initTimeout t d = d.modPort t (fun p => { p with state := .standby, lastRenew := none }) := by
  unfold initTimeout
  rw [here]
  exact (if_neg (not_not.2 init)).trans ((if_neg (fun h => Bool.eq_false_iff.1 secondary h.1)).trans (if_pos ⟨by rw [secondary]; rfl, due⟩))

end

/-- No heartbeat for 160 ticks, unreported. -/
def Port.heartbeatDue (p : Port) (now : Nat) : Bool := !p.towLost && decide (p.peer.elim p.initSince (fun v => v.at_) + 160 ≤ now)
/-- No good pulse for 16 ticks, unreported. -/
def Port.pulseDue (p : Port) (now : Nat) : Bool := p.pulse.isSome && !p.pulseLost && decide (p.lastPulse.getD p.initSince + 16 ≤ now)
/-- The loss of the heartbeats is reported. -/
def Dev.reportHeartbeat (d : Dev) (t : Nat) (p : Port) : Dev := (d.modPort t (fun p => { p with towLost := true })).protEvent p 0x284 [] 0 true
/-- The loss of the pulses is reported. -/
def Dev.reportPulse (d : Dev) (t : Nat) (p : Port) : Dev := (d.modPort t (fun p => { p with pulseLost := true })).protEvent p 0x285 [] 0 true

/-- Each path of a port that is lost is reported. -/
theorem pathTimeout_eq {d : Dev} {t : Nat} {p : Port} (here : d.port t = some p) {tow pul : Bool} (towpath : p.heartbeatDue d.now = tow)
    (pulse : p.pulseDue d.now = pul) : pathTimeout t d = (fun e : Dev => if pul then e.reportPulse t p else e) (if tow then d.reportHeartbeat t p else d) := by
  subst towpath pulse
  unfold pathTimeout
  rw [here]
  rfl

theorem Port.heartbeatDue_of_lost {p : Port} {now : Nat} (first : p.towLost = false) (late : p.peer.elim p.initSince (fun v => v.at_) + 160 ≤ now) :
    p.heartbeatDue now = true := by simp only [Port.heartbeatDue, first, late]; rfl

theorem Port.not_heartbeatDue {p : Port} {now : Nat} (told : p.towLost = true ∨ now < p.peer.elim p.initSince (fun v => v.at_) + 160) :
    p.heartbeatDue now = false := by simpa [Port.heartbeatDue, Classical.or_iff_not_imp_left] using told

theorem Port.pulseDue_of_lost {p : Port} {now : Nat} (paired : p.pulse.isSome = true) (first : p.pulseLost = false)
    (late : p.lastPulse.getD p.initSince + 16 ≤ now) : p.pulseDue now = true := by simp only [Port.pulseDue, paired, first, late]; rfl

theorem Port.not_pulseDue {p : Port} {now : Nat} (told : p.pulse = none ∨ p.pulseLost = true ∨ now < p.lastPulse.getD p.initSince + 16) :
    p.pulseDue now = false := by
  rcases told with h | h | h
  · simp [Port.pulseDue, h]
  · simp [Port.pulseDue, h]
  · simp [Port.pulseDue, Nat.not_le.2 h]

/-! ### Heartbeats (R290, R292) -/

/-- A heartbeat whose CRC fits is taken by the port of its group. -/
theorem heartbeatRx_of_port {s d : Dev} {r : TowRx} {v : PeerView} {t : Nat} {p : Port} (accepted : s.towAccept r 2 = (d, true)) (length : r.payload.length = 32)
    (crc : crc32c (r.payload.take 28) = beAt r.payload 28 4) (reads : v = readHeartbeat r.payload d.now)
    (named : (d.peerAnswered v).prot.ports.find? (fun e => e.2.pgid == beAt r.payload 0 2 && e.2.peerDev == v.dev && e.2.peerTree == v.tree) = some (t, p)) :
    heartbeatRx r s = (d.peerAnswered v).takeHeartbeat t v (bitOf (beAt r.payload 5 1) 0) := by
  subst reads
  unfold heartbeatRx
  rw [accepted]
  dsimp only
  rw [if_neg (by decide), if_neg (by simp [length, crc]), named]

/-- A port of the device reads as changed. -/
theorem port_modPort {d : Dev} {t : Nat} {p : Port} (here : d.port t = some p) (f : Port → Port) : (d.modPort t f).port t = some (f p) := by
  simp only [Dev.port] at here
  simp only [Dev.port, Dev.modPort, tget_tmod_same, here, Option.map_some]

/-- The holder's heartbeat in the epoch held renews the lease of a STANDBY. -/
theorem takeHeartbeat_renews {d : Dev} {t : Nat} {p : Port} {v : PeerView} (here : d.port t = some p) (standby : p.state = .standby) (linked : p.towLost = false)
    (holder : v.role = 0) (current : v.epoch = p.epoch) :
    ∃ q, (d.takeHeartbeat t v false).port t = some q ∧ q.state = .standby ∧ q.epoch = p.epoch ∧ q.lastRenew = some d.now ∧ q.peer = some v ∧
      q.holderDev = v.dev := by
  have seen := port_modPort here (fun p => { p with peer := some v, towLost := false })
  unfold Dev.takeHeartbeat
  rw [here]
  simp only [linked, standby, holder, current, Bool.false_eq_true, if_false, beq_self_eq_true, Bool.true_or, and_true, if_true]
  refine ⟨_, port_modPort seen _, ?_⟩
  split <;> exact ⟨standby, rfl, rfl, rfl, rfl⟩

/-! ### The mirror (R288, R375) -/

/-- The grant that a mirrored manifest lists. -/
def mirrorGrant (g : Nat × Nat × Nat × Nat) : Grant :=
  { tid := g.1, start := g.2.1, ncw := g.2.2.1, kind := g.2.2.2, flow := 0, cls := 0, shares := [] }

/-- The manifests of a port's mirror that are not past. -/
def Port.mirroredAhead (p : Port) (now : Nat) : Tbl Manifest := ((p.mirror.map (fun y => y.manifests)).getD []).filter (fun e => decide (now ≤ e.1))

/-- The mirror that a record makes of a port's. -/
def Dev.mirrorFrom (d : Dev) (p : Port) (m : MirrorRec) : Mirror :=
  { at_ := d.now, terms := m.terms.map mirrorTerm, kp := m.kp, sched := { reach := m.reach, mode := m.mode, period := m.period, phase := m.phase },
    keys := if d.keyless then [] else m.terms.foldl (fun t y => y.id.elim t (fun id => tset t id (mirrorKeys y d.now))) [],
    manifests := m.manifest.elim (p.mirroredAhead d.now) (fun y =>
      tset (p.mirroredAhead d.now) y.1 { target := y.1, missed := false, grants := y.2.map mirrorGrant }) }

/-- The visit that a planned move with a dwell begins at the port that gains the lease. -/
def Mirror.visit (x : Mirror) (at_ : Nat) (cal : Bool) (w : Nat) : Drill :=
  { op := if cal then .calibrate else .drill, ref := none, dwell := w, a := at_ - 8, moveAt := at_,
    ids := (x.terms.filter (fun y => y.state = .inService)).filterMap (fun y => y.id), heard := [], maxOffset := 0, e := none, offsets := [], back := none }

section
variable {s d : Dev} {r : TowRx} {m : MirrorRec} {p : Port} (accepted : s.towAccept r 6 = (d, true)) (here : d.port m.tree = some p) (peer : p.peerDev = r.src)
  (gains : p.state = .standby ∨ p.state = .init)
include accepted here peer gains

/-- A record without a move replaces the mirror of its port. -/
theorem mirrorRx_replaces (stays : m.move = none) : mirrorRx r m s = d.modPort m.tree (fun q => { q with mirror := some (d.mirrorFrom p m) }) := by
  unfold mirrorRx
  rw [accepted]
  dsimp only
  rw [here]
  dsimp only
  rw [if_neg (by rcases gains with h | h <;> simp [peer, h]), stays]
  rfl

/-- One with a move prepares it too. -/
theorem mirrorRx_prepares {at_ epoch : Nat} {cal : Bool} (moves : m.move = some (at_, epoch, cal)) :
    mirrorRx r m s = d.modPort m.tree (fun q => { q with
      mirror := some (d.mirrorFrom p m), move := some { moveAt := at_, epoch, gain := true, cal },
      drill := if q.drill.isSome = true then q.drill else m.dwell.map ((d.mirrorFrom p m).visit at_ cal) }) := by
  unfold mirrorRx
  rw [accepted]
  dsimp only
  rw [here]
  dsimp only
  rw [if_neg (by rcases gains with h | h <;> simp [peer, h]), moves]
  rfl

end

/-! ### The end of a dwell and the mean of C (R303, R305) -/

section
variable {d : Dev} {r : DwellEnd} {p : Port} {x y : Drill} {v : Nat} {b : Nat × Nat} (here : d.port r.tree = some p) (drill : p.drill = some x)
  (first : x.back = none)
include here drill first

/-- At the port that holds the lease during the drill the way back is fixed, and the other port of the device hears of it. -/
theorem dwellExpiry_of_holder {e : Dev} (holder : p.state = .holder) (visits : x.ref = none) (measured : y = { x with offsets := r.offsets })
    (ends : y.verdict (d.now + 1) = some v) (back : b = (y.backAt (d.now + 1) v, v))
    (fixed : e = d.modPort r.tree (fun p => { p with drill := some { y with back := some b } })) :
    dwellExpiry r d = if p.isLocal e = true then e.modPort p.peerTree (fun q => { q with
      drill := q.drill.map (fun z => { z with heard := y.heard, maxOffset := y.maxOffset, back := some b }) }) else e := by
  subst fixed back measured
  unfold dwellExpiry
  rw [here]
  dsimp only
  rw [drill]
  dsimp only
  rw [if_neg (by simp [first]), if_pos ⟨holder, by simp [visits]⟩, ends]

/-- At the commanded port, whose peer lies on another device, the way back and its move are fixed. -/
theorem dwellExpiry_of_standby (standby : p.state = .standby) (commanded : x.ref.isSome = true) (remote : p.isLocal d = false)
    (measured : y = { x with heard := r.heard, maxOffset := r.maxOffset, e := if r.heard.isEmpty = true then none else some 0 })
    (ends : y.verdict (d.now + 1) = some v) (back : b = (y.backAt (d.now + 1) v, v)) :
    dwellExpiry r d = d.modPort r.tree (fun p => { p with
      drill := some { y with back := some b }, move := some { moveAt := b.1, epoch := epochNext p.epoch, gain := true, cal := false } }) := by
  subst back measured
  unfold dwellExpiry
  rw [here]
  dsimp only
  rw [drill]
  dsimp only
  rw [if_neg (by simp [first]), if_neg (by simp [standby]), if_pos ⟨standby, commanded, by simp [remote]⟩, ends]

end

/-- The port without its sums, and with the mean added to C. -/
def Dev.meanAdded (d : Dev) (t : Nat) (x : Int) (n : Nat) : Dev := (d.modPort t (fun p => { p with mean := none })).modPort t (fun p => p.addCal (roundDiv x n))

/-- The mean over a new holder's first 64 ticks is reported where it is beyond 8 bits. -/
def Dev.reportDrift (d : Dev) (p : Port) (x : Int) (n : Nat) : Dev := if 8 * n < x.natAbs then d.protEvent p 0x288 (leInt 4 (roundDiv x n)) else d

section
variable {d : Dev} {t u n : Nat} {x : Int} {p : Port} (here : d.port t = some p) (mean : p.mean = some (u, x, n)) (passed : u ≤ d.now)
include here mean passed

/-- Without a sample C stays. -/
theorem calMean_of_none (none_ : n = 0) : calMean t d = d.modPort t (fun p => { p with mean := none }) := by
  unfold calMean
  rw [here]
  dsimp only
  rw [mean]
  exact (if_neg (Nat.not_lt.2 passed)).trans (if_pos none_)

/-- The mean corrects C, at the other port of the device too. -/
theorem calMean_of_some (some_ : n ≠ 0) : calMean t d = Dev.reportDrift
    (if p.isLocal (d.meanAdded t x n) then
      (d.meanAdded t x n).modPort p.peerTree (fun q => { q with cal := ((d.meanAdded t x n).port t).elim 0 (fun q => q.cal) }) else d.meanAdded t x n) p x n := by
  unfold calMean
  rw [here]
  dsimp only
  rw [mean]
  exact (if_neg (Nat.not_lt.2 passed)).trans (if_neg some_)

end

end Sys2Proof.Machine

open Sys2Proof Sys2Proof.Machine

/-- Settles O35: each event is the case of its meaning named by its hypotheses. -/
theorem protectionEvents : Obligations.ProtectionEvents := by
  unfold Obligations.ProtectionEvents
  refine ⟨fun s r edge width => exec_next rfl (pulseRx_of_good edge width), fun s t p r pair heard edge renew => exec_next rfl ?pulse,
    fun s t p here standby expired silent released => exec_next rfl (expiryTest_takes here standby expired silent released),
    fun s t p here standby expired loud heard first => exec_next rfl (expiryTest_holds here standby expired loud heard first),
    fun s t p here init primary due silent => exec_next rfl (initTimeout_primary here init primary due silent),
    fun s t p here init secondary due => exec_next rfl (initTimeout_secondary here init secondary due),
    fun s t p here first late told => exec_next rfl (pathTimeout_eq here (Port.heartbeatDue_of_lost first late) (Port.not_pulseDue told)),
    fun s t p here told paired first late => exec_next rfl (pathTimeout_eq here (Port.not_heartbeatDue told) (Port.pulseDue_of_lost paired first late)),
    fun s t p here firstTow lateTow paired firstPulse latePulse => exec_next rfl
      (pathTimeout_eq here (Port.heartbeatDue_of_lost firstTow lateTow) (Port.pulseDue_of_lost paired firstPulse latePulse)),
    fun s r d v t p accepted length crc reads named => exec_next rfl (heartbeatRx_of_port accepted length crc reads named),
    fun d t p v here standby linked holder current => takeHeartbeat_renews here standby linked holder current, ?mirror, ?move,
    fun s r p x y v b d here drill first holder visits measured ends back fixed => exec_next rfl
      (dwellExpiry_of_holder here drill first holder visits measured ends back fixed),
    fun s r p x y v b here drill first standby commanded remote measured ends back => exec_next rfl
      (dwellExpiry_of_standby here drill first standby commanded remote measured ends back), ?remoteMean, ?localMean,
    fun s t u x p here mean passed => exec_next rfl (calMean_of_none here mean passed rfl)⟩
  case pulse =>
    rw [pulseRx_of_good edge (.inl renew), pair]
    exact pulseTaken_renew heard renew
  case mirror =>
    rintro s r m d p x k accepted here peer gains stays rfl rfl
    exact exec_next rfl (mirrorRx_replaces accepted here peer gains stays)
  case move =>
    intro s r m d p at_ epoch cal accepted here peer gains moves
    exact ⟨d.mirrorFrom p m, m.dwell.map ((d.mirrorFrom p m).visit at_ cal), exec_next rfl (mirrorRx_prepares accepted here peer gains moves), rfl, rfl, rfl, rfl⟩
  case remoteMean =>
    rintro s t u n x p _ here mean passed some_ rfl remote
    refine exec_next rfl ((calMean_of_some here mean passed some_).trans ?_)
    rw [if_neg (show ¬ p.isLocal (s.dev.meanAdded t x n) = true from Bool.eq_false_iff.1 remote)]
    rfl
  case localMean =>
    rintro s t u n x p q _ _ here mean passed some_ rfl near new rfl
    refine exec_next rfl ((calMean_of_some here mean passed some_).trans ?_)
    rw [if_pos (show p.isLocal (s.dev.meanAdded t x n) = true from near), show (s.dev.meanAdded t x n).port t = some q from new]
    rfl
end

section
/-!
PROOFS. The commands of tree protection and twinning (R294, R303, R305, R307, R313 to R316): the case of each in which no check fails.
-/
namespace Sys2Proof.Machine
open Sys2Proof

/-! ### PROT_GROUP_CREATE with OP CREATE (R313) -/

/-- What a new group must meet: its number, its pin and its pulse pair are free, its tree is present and in no group. -/
structure Dev.GroupFits (d : Dev) (r : GroupReq) : Prop where
  number : r.pgid ≤ 1023
  peerDev : r.peerDev ≤ 63
  peerTree : r.peerTree ≤ 63
  present : d.treePresent r.tree = true
  pin : ∀ n, r.pulse = some n → n ≤ 1
  unused : ∀ e ∈ d.prot.ports, e.2.pgid ≠ r.pgid
  free : d.port r.tree = none
  pulse : ∀ e ∈ d.prot.ports, r.pulse.isSome = true → e.2.pulse = r.pulse → e.2.peerDev = r.peerDev

section
variable {d : Dev} {r : GroupReq} (fits : d.GroupFits r)
include fits

/-- The number clashes with no port. -/
theorem Dev.GroupFits.no_clash (f : Nat × Port → Bool) (g : Nat × Port → Bool) :
    d.prot.ports.any (fun e => e.2.pgid == r.pgid && !f e && !g e) = false := by
  simp only [List.any_eq_false, Bool.and_eq_true, beq_iff_eq, not_and]
  exact fun e mem same => absurd same.1 (fits.unused e mem)

/-- The pin is one of the two. -/
theorem Dev.GroupFits.pin_ok : r.pulse.elim false (fun q => decide (1 < q)) = false := by
  cases e : r.pulse with
  | none => rfl
  | some n => exact decide_eq_false (Nat.not_lt.2 (fits.pin n e))

/-- The pulse pair leads to no other device. -/
theorem Dev.GroupFits.pulse_ok : d.prot.ports.any (fun e => r.pulse.isSome && e.2.pulse == r.pulse && e.2.peerDev != r.peerDev) = false := by
  simp only [List.any_eq_false, Bool.and_eq_true, beq_iff_eq, bne_iff_ne, not_and, and_imp, not_not]
  exact fun e mem => fits.pulse e mem

end

/-- The port that a group makes, under the epoch of its primary tree. -/
def Dev.groupPort (d : Dev) (r : GroupReq) (prim : Nat) (primary : Bool) (peerTree : Nat) (st : LeaseState) : Port :=
  { Port.new r.pgid primary r.peerDev peerTree r (d.tree prim).epoch d.now with state := st, holderDev := d.dev.devAddr }

/-- A port of the device is set. -/
def Dev.setPort (d : Dev) (t : Nat) (p : Port) : Dev := { d with prot := { d.prot with ports := tset d.prot.ports t p } }

/-- The tree of a group that begins as its holder. -/
def Dev.beginHolder (d : Dev) (pgid t : Nat) : Dev := ((d.roleHolder t).addHeld t).recordActive pgid t

/-- The answer of CREATE: the epoch, and the state of the port of the request's tree. -/
def Dev.groupMade (d : Dev) (r : GroupReq) (ref : CmdRef) (epoch : Nat) : Dev :=
  d.complete ref .ok (le 2 epoch ++ le 1 ((d.port r.tree).elim 0 (fun p => p.state.code)))

/-- A group on one device makes both its ports: of the tree that holds the lease, and of the other (R289, R294, log entries 63 and 99). -/
theorem groupCreate_local {d : Dev} {r : GroupReq} (fits : d.GroupFits r) (here : r.peerDev = d.dev.devAddr) (apart : r.peerTree ≠ r.tree)
    (peerPresent : d.treePresent r.peerTree = true) (peerFree : d.port r.peerTree = none) {p q h : Nat} {x : Dev}
    (primary : p = if r.primary = true then r.tree else r.peerTree) (other : q = if p = r.tree then r.peerTree else r.tree)
    (holds : h = if (d.tree p).lit = false ∧ tget d.prot.active r.pgid = some q then q else p)
    (made : x = (d.setPort r.tree (d.groupPort r p r.primary r.peerTree (if h = r.tree then .holder else .standby))).setPort r.peerTree
      (d.groupPort r p (!r.primary) r.tree (if h = r.tree then .standby else .holder))) (ref : CmdRef) :
    groupCreate r ref d = ((((if h = r.tree then x.beginHolder r.pgid r.tree else x.beginHolder r.pgid r.peerTree).endDozes r.tree).endDozes
      r.peerTree).setReserve).groupMade r ref (d.tree p).epoch := by
  have local_ : (r.peerDev == d.dev.devAddr) = true := by simpa using here
  have valid : ¬ (1023 < r.pgid ∨ (!d.treePresent r.tree || decide (63 < r.peerDev) || decide (63 < r.peerTree) ||
      (true && (!d.treePresent r.peerTree || r.peerTree == r.tree))) = true ∨ false = true ∨ (!true && !d.tickLocked r.peerDev) = true ∨ false = true) := by
    have := fits.number; have := fits.peerDev; have := fits.peerTree
    simp [fits.present, peerPresent, apart]
    omega
  have free : ¬ ((d.port r.tree).isSome = true ∨ (true = true ∧ (d.port r.peerTree).isSome = true) ∨ false = true) := by
    simp [fits.free, peerFree]
  have prim : (if (r.primary || !true) = true then r.tree else r.peerTree) = p := by rw [primary, Bool.not_true, Bool.or_false]
  have holder : (if (!(d.tree p).lit) = true ∧ tget d.prot.active r.pgid = some q then q else p) = h := by simp only [holds, Bool.not_eq_true']
  unfold groupCreate
  rw [local_]
  dsimp only
  rw [fits.no_clash, fits.pin_ok, fits.pulse_ok, if_neg valid, if_neg free, prim, ← other, holder, made]
  by_cases own : h = r.tree
  · simp only [own, if_true]
    rfl
  · simp only [own, if_false]
    rfl

/-- With a port on another device it makes its own, a lit PRIMARY as HOLDER. -/
theorem groupCreate_remote {d : Dev} {r : GroupReq} (fits : d.GroupFits r) (far : r.peerDev ≠ d.dev.devAddr) (locked : d.tickLocked r.peerDev = true)
    {st : LeaseState} {x : Dev} (state : st = if r.primary = true ∧ (d.tree r.tree).lit = true then .holder else .init)
    (made : x = d.setPort r.tree (d.groupPort r r.tree r.primary r.peerTree st)) (ref : CmdRef) :
    groupCreate r ref d = ((if st = .holder then x.beginHolder r.pgid r.tree else x).endDozes r.tree).setReserve.groupMade r ref (d.tree r.tree).epoch := by
  have remote : (r.peerDev == d.dev.devAddr) = false := by simpa using far
  have valid : ¬ (1023 < r.pgid ∨ (!d.treePresent r.tree || decide (63 < r.peerDev) || decide (63 < r.peerTree) ||
      (false && (!d.treePresent r.peerTree || r.peerTree == r.tree))) = true ∨ false = true ∨ (!false && !d.tickLocked r.peerDev) = true ∨ false = true) := by
    have := fits.number; have := fits.peerDev; have := fits.peerTree
    simp [fits.present, locked]
    omega
  have free : ¬ ((d.port r.tree).isSome = true ∨ (false = true ∧ (d.port r.peerTree).isSome = true) ∨ false = true) := by simp [fits.free]
  have own : (if (r.primary || !false) = true then r.tree else r.peerTree) = r.tree := if_pos (Bool.or_true _)
  have begins : (if (r.primary && (d.tree r.tree).lit) = true then LeaseState.holder else .init) = st := by simp only [state, Bool.and_eq_true]
  unfold groupCreate
  rw [remote]
  dsimp only
  rw [fits.no_clash, fits.pin_ok, fits.pulse_ok, if_neg valid, if_neg free, own, begins, made]
  rfl

/-! ### PROT_GROUP_CREATE with OP DELETE, and LEASE_STATUS (R313, R314) -/

/-- A port of a deleted group goes: a holder's tree stays as it is, another's lanes go idle. -/
def Dev.portRemoved (d : Dev) (pgid : Nat) (e : Nat × Port) : Dev :=
  let d := { d with prot := { d.prot with ports := tdel d.prot.ports e.1, active := tdel d.prot.active pgid } }
  if e.2.state = .holder then d
  else d.modTree e.1 (fun x => { x with attach := .detached, since := d.now, epoch := e.2.epoch, lanes := { x.lanes with state := .idle, wake := none } })

/-- The drills of a group end ABORTED, and its ports go. -/
theorem groupDelete_removes {d : Dev} {pgid : Nat} {e : Nat × Port} {es : List (Nat × Port)}
    (group : d.prot.ports.filter (fun e => e.2.pgid == pgid) = e :: es) (ref : CmdRef) :
    groupDelete pgid ref d = (((e :: es).foldl (fun d e => d.portRemoved pgid e) ((e :: es).foldl (fun d e => d.drillEnd e.1 2) d)).setReserve.pulseIdle).complete
      ref .ok (le 2 e.2.epoch ++ le 1 e.2.state.code) := by
  unfold groupDelete
  rw [group]
  rfl

/-- No drill, none to end. -/
theorem drillEnd_of_none {d : Dev} {t : Nat} {p : Port} (here : d.port t = some p) (idle : p.drill = none) (result : Nat) : d.drillEnd t result = d := by
  unfold Dev.drillEnd
  rw [here]
  dsimp only
  rw [idle]

/-- A port of a group that holds its lease alone on this device goes on as an unprotected tree. -/
theorem groupDelete_of_holder {d : Dev} {t : Nat} {p : Port} (group : d.prot.ports.filter (fun e => e.2.pgid == p.pgid) = [(t, p)])
    (here : d.port t = some p) (holder : p.state = .holder) (idle : p.drill = none) (ref : CmdRef) :
    groupDelete p.pgid ref d = ({ d with prot := { d.prot with ports := tdel d.prot.ports t, active := tdel d.prot.active p.pgid } } :
      Dev).setReserve.pulseIdle.complete ref .ok (le 2 p.epoch ++ le 1 3) := by
  rw [groupDelete_removes group ref, List.foldl_cons, List.foldl_nil, List.foldl_cons, List.foldl_nil, drillEnd_of_none here idle, holder,
    show d.portRemoved p.pgid (t, p) = { d with prot := { d.prot with ports := tdel d.prot.ports t, active := tdel d.prot.active p.pgid } } from if_pos holder]
  rfl

/-- The flags of LEASE_STATUS. -/
def Port.statusFlags (p : Port) (now : Nat) : Nat :=
  b2n p.armed + 2 * b2n (p.peerFresh now) + 4 * b2n (p.lastPulse.elim false (fun x => decide (now < x + 16))) +
    8 * b2n (decide (p.state = .holder) || !p.expired now) + 16 * b2n (if p.state = .holder then p.peer.elim false (fun v => v.heard) else p.heard) +
    32 * b2n (if p.state = .holder then p.peer.elim false (fun v => v.sf) else p.witnessSf)

/-- LEASE_STATUS answers the port of PRIMARY, or else the only one. -/
theorem leaseStatus_answers {d : Dev} {pgid t : Nat} {p : Port}
    (named : ((d.prot.ports.filter (fun e => e.2.pgid == pgid)).find? (fun e => e.2.primary)).or
      (d.prot.ports.filter (fun e => e.2.pgid == pgid)).head? = some (t, p)) (ref : CmdRef) :
    leaseStatus pgid ref d = d.complete ref .ok (le 1 p.state.code ++ le 1 (b2n (!p.primary)) ++ le 2 p.epoch ++ le 1 p.holderDev ++
      le 1 (p.statusFlags d.now) ++ le 1 p.drillResult ++ le 1 0 ++ leInt 4 p.cal ++ le 4 p.switches ++ fromResp (p.lastRenew.getD 0) ++
      fromResp p.lastSwitch ++ fromResp p.lastDrill) := by
  unfold leaseStatus
  dsimp only
  rw [named]
  rfl

/-! ### LEASE_DRILL (R305, R315) -/

/-- The drill that a command notes for the next boundary. -/
def drillNoted (r : DrillReq) (op : DrillOp) (ref : CmdRef) (now : Nat) : Drill :=
  { op, ref := some ref, dwell := if r.dwell = 0 then 8000 else r.dwell, a := now + 1, moveAt := now + 9, ids := [], heard := [], maxOffset := 0,
    e := none, offsets := r.offsets.foldl (fun t e => tset t e.1 e.2) [], back := none }

/-- At a holder of a group in which nothing is under way, a drill, a calibration or a move is noted; only a calibration may find C not armed, and only a
move has no DWELL. -/
theorem leaseDrill_notes {d : Dev} {op : DrillOp} {r : DrillReq} {ps : List (Nat × Port)} (group : ps = d.prot.ports.filter (fun e => e.2.pgid == r.pgid))
    (holds : ∃ e ∈ ps, e.2.state = .holder) (idle : ∀ e ∈ ps, e.2.state ≠ .taking ∧ e.2.drill = none ∧ e.2.move = none ∧ e.2.take = none)
    (armed : op ≠ .calibrate → ∀ e ∈ ps, e.2.armed = true) (dwell : op ≠ .move → r.dwell = 0 ∨ (64 ≤ r.dwell ∧ r.dwell ≤ 80000)) (ref : CmdRef) :
    leaseDrill op r ref d = ps.foldl (fun x e =>
      if e.2.state = .holder then x.modPort e.1 (fun p => { p with drill := some (drillNoted r op ref d.now) }) else x) d := by
  have some_ : ps.isEmpty = false := by
    obtain ⟨e, mem, -⟩ := holds
    exact List.isEmpty_eq_false_iff.2 (List.ne_nil_of_mem mem)
  have holder : ps.any (fun e => e.2.state = .holder || e.2.state = .taking) = true := by
    obtain ⟨e, mem, state⟩ := holds
    exact List.any_eq_true.2 ⟨e, mem, by simp [state]⟩
  have free : ps.any (fun e => e.2.state = .taking || e.2.drill.isSome || e.2.move.isSome || e.2.take.isSome) = false := by
    refine List.any_eq_false.2 (fun e mem => ?_)
    obtain ⟨state, drill, move, take⟩ := idle e mem
    simp [state, drill, move, take]
  have valid : ¬ ((op ≠ .calibrate ∧ ps.any (fun e => !e.2.armed) = true) ∨ (op ≠ .move ∧ r.dwell ≠ 0 ∧ (r.dwell < 64 ∨ 80000 < r.dwell))) := by
    rintro (⟨other, bad⟩ | ⟨other, given, range⟩)
    · obtain ⟨e, mem, unarmed⟩ := List.any_eq_true.1 bad
      simp [armed other e mem] at unarmed
    · have := dwell other
      omega
  subst group
  unfold leaseDrill
  dsimp only
  rw [some_, holder, free, if_neg Bool.false_ne_true, if_neg (by decide), if_neg Bool.false_ne_true, if_neg valid]
  rfl

/-! ### TWIN_FLOW_SET (R307, R316) -/

/-- The pair that a request sets, under the epoch after its last one. -/
def Dev.twinPair (d : Dev) (r : TwinReq) : Pair :=
  { devA := r.devA, devB := r.devB, flowA := r.flowA, flowB := r.flowB, pairHere := r.pairUp, seqHere := r.seq, backupHere := r.backup, seqDev := r.seqDev,
    backupDev := r.backupDev, seq := 0, epoch := nextTwinEpoch (tget d.prot.twinEpochs (pairKey r.devA r.flowA)) (r.backup && !r.seq), up := none,
    down := none }

/-- A flow that a pair may name: of another device, or one of this device's tree flows. -/
structure Dev.TwinFlow (d : Dev) (dev flow : Nat) : Prop where
  device : dev < 64
  number : flow ≤ 131071
  here : dev = d.dev.devAddr → ∃ f, d.flow flow = some f ∧ f.dir ≤ 1

/-- A flow that no pair may name. -/
def Dev.twinUnknown (d : Dev) (dev flow : Nat) : Bool :=
  decide (131071 < flow) || decide (63 < dev) || (dev == d.dev.devAddr && (d.flow flow).elim true (fun f => decide (1 < f.dir)))

theorem Dev.TwinFlow.known {d : Dev} {dev flow : Nat} (x : d.TwinFlow dev flow) : d.twinUnknown dev flow = false := by
  have low : ¬ 63 < dev := by have := x.device; omega
  by_cases own : dev = d.dev.devAddr
  · obtain ⟨f, e, dir⟩ := x.here own
    simp [Dev.twinUnknown, x.number, low, e, dir]
  · simp [Dev.twinUnknown, x.number, low, own]

/-- A pair of known flows of two trees is set under its new epoch. -/
theorem twinSet_sets {d : Dev} {r : TwinReq} (flowA : d.TwinFlow r.devA r.flowA) (flowB : d.TwinFlow r.devB r.flowB) (seqDev : r.seqDev < 64)
    (backupDev : r.backupDev < 64) (apart : (d.pairTrees (d.twinPair r)).1 ≠ (d.pairTrees (d.twinPair r)).2)
    (room : (tget d.prot.pairs (pairKey r.devA r.flowA)).isSome = true ∨ d.prot.pairs.length < 16384)
    (partners : d.partnersOver (tset d.prot.pairs (pairKey r.devA r.flowA) (d.twinPair r)) = false) (ref : CmdRef) :
    twinSet r ref d = ({ d with prot := { d.prot with
      pairs := tset d.prot.pairs (pairKey r.devA r.flowA) (d.twinPair r),
      twinEpochs := tset d.prot.twinEpochs (pairKey r.devA r.flowA) (d.twinPair r).epoch } } : Dev).complete ref .ok (le 1 (d.twinPair r).epoch) := by
  have valid : ¬ ((d.twinUnknown r.devA r.flowA || d.twinUnknown r.devB r.flowB || (d.pairTrees (d.twinPair r)).1 == (d.pairTrees (d.twinPair r)).2 || decide (63 < r.seqDev) ||
      decide (63 < r.backupDev)) = true) := by
    simp [flowA.known, flowB.known, apart]
    omega
  have fits : ¬ (((tget d.prot.pairs (pairKey r.devA r.flowA)).isNone = true ∧ 16384 ≤ d.prot.pairs.length) ∨
      d.partnersOver (tset d.prot.pairs (pairKey r.devA r.flowA) (d.twinPair r)) = true) := by
    rintro (⟨new, full⟩ | bad)
    · rcases room with old | low
      · simp [Option.isNone_iff_eq_none.1 new] at old
      · omega
    · exact Bool.eq_false_iff.1 partners bad
  exact (if_neg valid).trans (if_neg fits)

/-- A pair is cleared, with its counters. -/
theorem twinClear_clears {d : Dev} {devA flowA : Nat} {p : Pair} (pair : tget d.prot.pairs (pairKey devA flowA) = some p) (ref : CmdRef) :
    twinClear devA flowA ref d = ({ d with prot := { d.prot with pairs := tdel d.prot.pairs (pairKey devA flowA) }, ctr := d.ctr.clear 15 (2 * flowA) 2 } :
      Dev).complete ref .ok (le 1 p.epoch) := by
  unfold twinClear
  rw [pair]

end Sys2Proof.Machine

open Sys2Proof Sys2Proof.Machine

/-- Settles O34: a command of a served context runs its body, and each body is the case of its meaning in which the checks pass. -/
theorem protectionCommands : Obligations.ProtectionCommands := by
  unfold Obligations.ProtectionCommands
  refine ⟨?createLocal, ?createRemote, fun s ctx pgid e es served group => exec_served (body := groupDelete pgid) rfl served (groupDelete_removes (d := s.dev.begun ctx) group _),
    fun s ctx t p served group here holder idle => exec_served (body := groupDelete p.pgid) rfl served (groupDelete_of_holder (d := s.dev.begun ctx) group here holder idle _),
    ?status, ?drill, ?calibrate, ?move, ?set, fun s ctx devA flowA p served pair => exec_served (body := twinClear devA flowA) rfl served (twinClear_clears (d := s.dev.begun ctx) pair _)⟩
  case createLocal =>
    rintro s ctx r p q h _ _ _ y served number here peerDev peerTree apart present peerPresent pin unused free peerFree pulse primary other holds rfl rfl rfl rfl
    exact exec_served (body := groupCreate r) rfl served (groupCreate_local (d := s.dev.begun ctx)
      ⟨number, peerDev, peerTree, present, pin, unused, free, pulse⟩ here apart peerPresent peerFree primary other holds rfl _)
  case createRemote =>
    rintro s ctx r st _ y served number far peerDev peerTree present locked pin unused free pulse state rfl rfl
    exact exec_served (body := groupCreate r) rfl served (groupCreate_remote (d := s.dev.begun ctx)
      ⟨number, peerDev, peerTree, present, pin, unused, free, pulse⟩ far locked state rfl _)
  case status =>
    rintro s ctx pgid t _ p served named rfl
    exact exec_served (body := leaseStatus pgid) rfl served (leaseStatus_answers (d := s.dev.begun ctx) named _)
  case drill =>
    rintro s ctx r _ ps served group holds idle armed dwell rfl
    exact exec_served (body := leaseDrill .drill r) rfl served (leaseDrill_notes (d := s.dev.begun ctx) group holds idle (fun _ => armed) (fun _ => dwell) _)
  case calibrate =>
    rintro s ctx r _ ps served group holds idle dwell rfl
    exact exec_served (body := leaseDrill .calibrate r) rfl served (leaseDrill_notes (d := s.dev.begun ctx) group holds idle (fun other => absurd rfl other) (fun _ => dwell) _)
  case move =>
    rintro s ctx r _ ps served group holds idle armed rfl
    exact exec_served (body := leaseDrill .move r) rfl served (leaseDrill_notes (d := s.dev.begun ctx) group holds idle (fun _ => armed) (fun other => absurd rfl other) _)
  case set =>
    rintro s ctx r _ served devA devB seqDev backupDev flowA flowB hereA hereB rfl apart room partners
    exact exec_served (body := twinSet r) rfl served (twinSet_sets (d := s.dev.begun ctx) ⟨devA, flowA, hereA⟩ ⟨devB, flowB, hereB⟩ seqDev backupDev apart room
      partners _)
end

section
/-!
PROOFS. The commands of counters and performance monitoring (R323, R328, R475, R478 to R482, R488, R489): the case of each in which no check fails; and what reprogramming
a counter shows in dumps and windows (R480).
-/
namespace Sys2Proof.Machine
open Sys2Proof

/-! ### COUNTER_DUMP_SET and COUNTER_SELECT (R475, R479 to R481, R488, R489) -/

/-- The settings of a valid request wait. -/
theorem counterDumpSet_waits {r : DumpReq} (valid : dumpReqValid r = true) (ref : CmdRef) (d : Dev) :
    counterDumpSet r ref d = { d with ctr := { d.ctr with dumpPend := d.ctr.dumpPend ++ [(ref,
      { enable := r.enable, slots := r.slots, period := r.period, base := r.base, slotSize := r.slotSize, select := r.select })] } } :=
  if_neg (by rw [valid]; decide)

/-- A valid reprogramming waits. -/
theorem selectProgram_waits {r : ProgramReq} (valid : programReqValid r = true) (ref : CmdRef) (d : Dev) :
    selectProgram r ref d = { d with ctr := { d.ctr with reprograms := d.ctr.reprograms ++ [{ ref, counter := r.counter, prog :=
      { mode := r.mode, kind := r.kind, group := r.group, stat := r.stat, first := r.first, last := r.last, value := 0, gen := 0 } }] } } :=
  if_neg (by rw [valid]; decide)

/-- The clearing of instances of a group waits. -/
theorem selectClear_waits {r : ClearGroupReq} (group : r.group ≤ 21) (last : r.first + r.count ≤ groupSize r.group) (ref : CmdRef) (d : Dev) :
    selectClear r ref d = { d with ctr := { d.ctr with clears := d.ctr.clears ++ [.clear ref r.group r.first r.count] } } :=
  if_neg (not_or.2 ⟨Nat.not_lt.2 group, Nat.not_lt.2 last⟩)

/-- The end of a block's binding waits. -/
theorem selectQueueBlock_unbinds {b : Nat} (block : b ≤ 255) (ref : CmdRef) (d : Dev) :
    selectQueueBlock { block := b, first := 0xFFFFFFFF } ref d = { d with ctr := { d.ctr with clears := d.ctr.clears ++ [.block ref b none] } } := by
  unfold selectQueueBlock
  dsimp only
  rw [decide_eq_true (rfl : (0xFFFFFFFF : Nat) = 0xFFFFFFFF)]
  simp [Nat.not_lt.2 block]

/-- A binding to aligned queues of no other block waits. -/
theorem selectQueueBlock_binds {r : QueueBlockReq} {d : Dev} (block : r.block ≤ 255) (aligned : r.first % 64 = 0) (last : r.first + 64 ≤ 1048576)
    (own : d.ctr.futureBlocks.any (fun b => b.1 != r.block && b.2 == r.first) = false) (ref : CmdRef) :
    selectQueueBlock r ref d = { d with ctr := { d.ctr with clears := d.ctr.clears ++ [.block ref r.block (some r.first)] } } := by
  have binds : decide (r.first = 0xFFFFFFFF) = false := decide_eq_false (by omega)
  unfold selectQueueBlock
  dsimp only
  rw [binds, own]
  exact if_neg (by simp [block, aligned, last])

/-- A window is bound at once. -/
theorem selectWindow_binds {r : WindowReq} (window : r.window ≤ 127) (group : r.group ≤ 21) (first : r.first < groupSize r.group) (ref : CmdRef) (d : Dev) :
    selectWindow r ref d = ({ d with ctr := { d.ctr with windows := tset d.ctr.windows r.window (r.group, r.first) } } : Dev).complete ref .ok :=
  if_neg (by omega)

/-! ### PM_READ (R323, R328) -/

/-- The scope of a request is 0 for a tree and 1 for a terminal. -/
theorem scope_of_terminal {scope : Nat} {terminal : Bool} (named : scope = b2n terminal) : ¬ 1 < scope ∧ (scope == 1) = terminal := by
  subst named
  cases terminal <;> decide

/-- READ answers the bins and the defects of its entity. -/
theorem pmRead_answers {d : Dev} {r : PmReadReq} {terminal : Bool} {e : PmEntity} (scope : r.scope = b2n terminal)
    (entity : d.pmEntity terminal r.tree r.id = some e) (some_ : 1 ≤ r.count) (most : r.count ≤ 8) (ref : CmdRef) :
    pmRead r ref d = d.complete ref .ok (le 1 (e.records r.first r.count).length ++ le 1 (b2n e.dayBins) ++ le 2 0 ++
      le 2 (d.defectsOf terminal r.tree r.id) ++ le 2 0 ++ (e.records r.first r.count).flatten) := by
  obtain ⟨known, kind⟩ := scope_of_terminal scope
  unfold pmRead
  dsimp only
  rw [if_neg known, kind, entity]
  exact if_neg (by omega)

/-- The bin length, and a tree's thresholds, as CONFIG sets them. -/
def Dev.pmSet (d : Dev) (terminal : Bool) (r : PmConfigReq) : Dev :=
  if terminal = true then d.modTermLine r.tree r.id (fun l => { l with pm := l.pm.setDay r.dayBins })
  else d.modLine r.tree (fun l => { l with
    pm := l.pm.setDay r.dayBins, thrPend := if r.thresholds.isSome = true then r.thresholds.map thrOf else l.thrPend })

/-- CONFIG sets them where a tree's thresholds are in range. -/
theorem pmConfig_sets {d : Dev} {r : PmConfigReq} {terminal : Bool} (scope : r.scope = b2n terminal) (entity : (d.pmEntity terminal r.tree r.id).isSome = true)
    (thresholds : terminal = true ∨ ∀ x, r.thresholds = some x → (thrOf x).valid = true) (ref : CmdRef) :
    pmConfig r ref d = (d.pmSet terminal r).complete ref .ok := by
  obtain ⟨known, kind⟩ := scope_of_terminal scope
  obtain ⟨e, he⟩ := Option.isSome_iff_exists.1 entity
  unfold pmConfig
  dsimp only
  rw [if_neg known, kind, he]
  dsimp only
  cases terminal with
  | true => rfl
  | false =>
    cases given : r.thresholds with
    | none => simp [Dev.pmSet, given]
    | some x =>
      have valid := thresholds.resolve_left Bool.false_ne_true x given
      simp [Dev.pmSet, given, valid]

/-! ### GEN (R480) -/

/-- A reprogrammed counter restarts at 0 under its program, with the next GEN. -/
theorem applyProg_restarts (d : Dev) (r : ProgReq) : tget (d.applyProg r).ctr.progs r.counter =
    some { r.prog with value := 0, gen := ((tget d.ctr.progs r.counter).elim 0 (fun q => q.gen) + 1) % 2 ^ 16 } :=
  tget_tset_same _ _ _

/-- The words of a programmable counter are VALUE and GEN. -/
theorem instanceWords_prog : instanceWords 21 = [Stat.progValue.code, Stat.progGen.code] := rfl

/-- A little-endian field that stands whole in a string reads as it was written. -/
theorem leAt_append {a b : Bytes} {o n x : Nat} (starts : a.length = o) : leAt (a ++ (le n x ++ b)) o n = x % 256 ^ n := by
  unfold leAt
  rw [slice_append starts (le_length n x), ofLE_le]

/-- A dump record of a programmable counter carries its GEN (R486). -/
theorem record_gen {j : DumpJob} {i : Nat} {p : Prog} (listed : tget j.progs i = some p) : leAt (j.record 21 i) 2 2 = p.gen % 2 ^ 16 := by
  have word : j.word 21 Stat.progGen.code i = p.gen := by
    unfold DumpJob.word
    dsimp only
    rw [if_pos rfl, listed]
    rfl
  unfold DumpJob.record
  rw [if_pos rfl, word]
  simp only [List.append_assoc]
  rw [← List.append_assoc (le 1 21)]
  exact leAt_append rfl

/-- A window bound to programmable counters, and permitted, shows GEN as the second value of a counter's stride (R481, R483). -/
theorem bar2_gen {c : CounterUnit} {w first i : Nat} {p : Prog} (bound : tget c.windows w = some (21, first)) (permitted : bitOf c.permit 21 = true)
    (shown : i < winCount 21 first) (listed : tget c.snapProgs (first + i) = some p) : c.bar2 w (64 + winStride 21 * i + 8) = p.gen := by
  have stride : winStride 21 = 16 := rfl
  have index : (64 + 16 * i + 8 - 64) / 16 = i := by omega
  have second : (64 + 16 * i + 8 - 64) % 16 / 8 = 1 := by omega
  unfold CounterUnit.bar2
  rw [bound, stride]
  dsimp only
  rw [stride, index, second, if_neg (by rw [permitted]; decide), if_neg (by omega), if_neg (by omega), if_neg (by omega), if_neg (by omega),
    if_neg (Nat.not_le.2 shown), if_pos rfl, listed]
  rfl

end Sys2Proof.Machine

open Sys2Proof Sys2Proof.Machine

/-- Settles O40: a command of a served context runs its body, and each body is the case of its meaning in which the checks pass. -/
theorem counterCommands : Obligations.CounterCommands := by
  unfold Obligations.CounterCommands
  exact ⟨fun s ctx r served valid => exec_served (body := counterDumpSet r) rfl served (counterDumpSet_waits valid _ _),
    fun s ctx r served valid => exec_served (body := selectProgram r) rfl served (selectProgram_waits valid _ _),
    fun s ctx r served group last => exec_served (body := selectClear r) rfl served (selectClear_waits group last _ _),
    fun s ctx b served block => exec_served (body := selectQueueBlock _) rfl served (selectQueueBlock_unbinds block _ _),
    fun s ctx r served block aligned last own => exec_served (body := selectQueueBlock r) rfl served
      (selectQueueBlock_binds (d := s.dev.begun ctx) block aligned last own _),
    fun s ctx r served window group first => exec_served (body := selectWindow r) rfl served (selectWindow_binds window group first _ _),
    fun s ctx g served group => exec_served (body := fun ref d => if 21 < g then d.complete ref .invalid else d.complete ref .ok (catalogResp g)) rfl served
      (if_neg (Nat.not_lt.2 group)),
    fun s ctx r terminal e served scope entity some_ most => exec_served (body := pmRead r) rfl served
      (pmRead_answers (d := s.dev.begun ctx) scope entity some_ most _),
    fun s ctx r terminal served scope entity thresholds => exec_served (body := pmConfig r) rfl served
      (pmConfig_sets (d := s.dev.begun ctx) scope entity thresholds _)⟩

/-- Settles O51: the program after its boundary, and the place of GEN in a record and in a window. -/
theorem reprogramCounter : Obligations.ReprogramCounter := by
  unfold Obligations.ReprogramCounter
  exact ⟨applyProg_restarts, fun j i p listed => record_gen listed,
    fun c w first i p bound permitted shown listed => bar2_gen bound permitted shown listed⟩
end

section
/-!
PROOFS. The commands of time, TEV pins and network triggers (R346, R348 to R353): the case of each in which no check fails, and the boundary of those that wait.
-/
namespace Sys2Proof.Machine
open Sys2Proof

/-! ### TIME_CONFIG (R350) -/

/-- The clock's settings as a request carries them. -/
def clockSetOf (r : ClockReq) : ClockSet :=
  { source := r.source, profile := r.profile, aligned := r.aligned, ppsOut := r.ppsOut, holdLimit := r.holdLimit, ppsWidth := r.ppsWidth,
    phaseAlarm := r.phaseAlarm, phi0 := r.phi0, stepThreshold := r.stepThreshold }

/-- The fields of CLOCK in range. -/
structure ClockFields (r : ClockReq) : Prop where
  source : r.source ≤ 2
  profile : r.profile ≤ 1
  some_width : 1 ≤ r.ppsWidth
  width : r.ppsWidth ≤ 500000
  phi0 : r.phi0 ≤ 124999

/-- CLOCK waits; after the first attach it leaves the alignment as it is. -/
theorem timeClock_waits {d : Dev} {r : ClockReq} (fields : ClockFields r)
    (kept : d.clock.everAttached = true → r.aligned = d.time.set.aligned ∧ r.phi0 = d.time.set.phi0) (ref : CmdRef) :
    timeClock r ref d = d.timePend (.clock ref (clockSetOf r)) := by
  have valid : ¬ (2 < r.source ∨ 1 < r.profile ∨ r.ppsWidth = 0 ∨ 500000 < r.ppsWidth ∨ 124999 < r.phi0) := by
    obtain ⟨source, profile, some_width, width, phi0⟩ := fields
    omega
  have allowed : ¬ (d.clock.everAttached = true ∧ (r.aligned ≠ d.time.set.aligned ∨ r.phi0 ≠ d.time.set.phi0)) := by
    rintro ⟨attached, new⟩
    exact not_and_or.2 new (kept attached)
  exact (if_neg valid).trans (if_neg allowed)

/-- CLOCK at its boundary: aligned mode set in LOCKED counts its phase from here (R337, log entry 117). -/
theorem applyTime_clock (d : Dev) (ref : CmdRef) (x : ClockSet) {n : Nat}
    (locked : n = if x.aligned ∧ !d.time.set.aligned ∧ d.time.state = .locked then d.upNext else d.time.lockedTick) :
    d.applyTime (.clock ref x) = ({ d with time := { d.time with set := x, lockedTick := n } } : Dev).complete ref .ok := by
  subst locked
  rfl

/-- PORT of a port of the variant waits. -/
theorem timePort_waits {d : Dev} {r : TimePortReq} (port : d.netPort r.port = true) (ref : CmdRef) :
    timePort r ref d = d.timePend (.port ref r.port { enable := r.enable, oneStep := r.oneStep, rxLat := r.rxLat, txLat := r.txLat, rxStamp := none, txStamp := none }) :=
  if_neg (by rw [port]; decide)

/-- PORT at its boundary: the stamps stay, and the PTP state of a port that is not disabled and does not come from DISABLED. -/
theorem applyTime_port (d : Dev) (ref : CmdRef) (p : Nat) (x : PtpPort) {y : PtpPort} (old : y = tgetD d.time.ports p x) :
    d.applyTime (.port ref p x) = (({ d with time := { d.time with
      ports := tset d.time.ports p { x with rxStamp := y.rxStamp, txStamp := y.txStamp, reqStamp := y.reqStamp, state := y.state } } } : Dev).ptpState p
        (if x.enable = false then 3 else if y.state = 3 then 1 else y.state)).complete ref .ok := by
  subst old
  simp only [← Bool.not_eq_true']
  rfl

/-- TREE of a present tree waits. -/
theorem timeTree_waits {d : Dev} {r : TimeTreeReq} (present : d.treePresent r.tree = true) (asym : r.asym.natAbs ≤ 1000000) (fixed : r.fixed.natAbs ≤ 100000)
    (ref : CmdRef) : timeTree r ref d = d.timePend (.tree ref r.tree r.asym r.fixed) :=
  if_neg (by
    rintro (absent | far | far)
    · rw [present] at absent
      exact Bool.false_ne_true absent
    · exact Nat.not_lt.2 asym far
    · exact Nat.not_lt.2 fixed far)

/-! ### TIME_INCREMENT_SET (R351) -/

/-- INCREMENT in range under SOURCE HOST is set from the next period on. -/
theorem setIncrement_sets {d : Dev} {inc : Nat} (host : d.time.set.source = 2) (low : 4995 * 2 ^ 32 ≤ inc * 1000) (high : inc * 1000 ≤ 5005 * 2 ^ 32) (now : Nat)
    (ref : CmdRef) : setIncrement inc now ref d = ({ d with time := d.time.setInc inc now } : Dev).complete ref .ok (fromResp 0) := by
  have valid : incOk inc = true := by simp only [incOk, low, high, decide_true, Bool.and_self]
  exact (if_neg (not_not.2 host)).trans (if_neg (by rw [valid]; decide))

/-- STEP_ABS waits under HOST, and under PPS_IN to a whole second. -/
theorem stepAbs_waits {d : Dev} {ns : Nat} (source : d.time.set.source = 2 ∨ (d.time.set.source = 1 ∧ ns = 0)) (range : ns < 1000000000) (sec : Nat)
    (ref : CmdRef) : stepAbs sec ns ref d = d.timePend (.stepAbs (some ref) (sec % 2 ^ 48 * 1000000000 + ns)) := by
  have allowed : ¬ (d.time.set.source = 0 ∨ (d.time.set.source = 1 ∧ ns ≠ 0)) := by omega
  exact (if_neg allowed).trans (if_neg (Nat.not_le.2 range))

/-- Under PPS_IN the step sets the seconds and keeps the nanoseconds (R335). -/
theorem steppedTo_pps (v ns : Nat) : steppedTo 1 v ns = ns * 2 ^ 32 + v % (1000000000 * 2 ^ 32) := by
  unfold steppedTo
  rw [if_pos rfl]

/-- Under another source it sets the whole counter. -/
theorem steppedTo_other {source : Nat} (other : source ≠ 1) (v ns : Nat) : steppedTo source v ns = ns * 2 ^ 32 := by
  unfold steppedTo
  rw [if_neg other, Nat.add_zero]

/-- STEP_ABS at its boundary. -/
theorem applyTime_stepAbs (d : Dev) (ref : Option CmdRef) (ns : Nat) :
    d.applyTime (.stepAbs ref ns) = (d.stepTime (steppedTo d.time.set.source d.time.base ns)).completeOpt ref .ok (fromResp d.now) := rfl

/-- STEP_REL under HOST waits. -/
theorem stepRel_waits {d : Dev} (host : d.time.set.source = 2) (x : Int) (ref : CmdRef) : stepRel x ref d = d.timePend (.stepRel (some ref) x) :=
  if_neg (not_not.2 host)

/-! ### TEV_SCHEDULE (R346, R352) -/

/-- MODE sets the pin and cancels its entries. -/
theorem tevMode_sets {r : TevModeReq} (pin : r.pin ≤ 3) (mode : r.mode ≤ 2) (ref : CmdRef) (d : Dev) :
    tevMode r ref d = ({ d with time := d.time.modPin r.pin (fun p => { p with mode := r.mode, edges := r.edges % 4, entries := [] }) } : Dev).complete ref .ok :=
  if_neg (not_or.2 ⟨Nat.not_lt.2 pin, Nat.not_lt.2 mode⟩)

/-- The fields of ADD in range, for an instant of the counter. -/
structure TevFields (r : TevAddReq) : Prop where
  pin : r.pin ≤ 3
  ns : r.ns < 1000000000
  some_width : 10 ≤ r.width
  width : r.width ≤ 500000000
  period : r.period ≠ 0 → 2 * r.width ≤ r.period ∧ r.period ≤ 1000000000

/-- The instant that ADD names, in ns. -/
def tevInstant (r : TevAddReq) : Nat := r.sec % 2 ^ 48 * 1000000000 + r.ns

/-- The lowest entry number that a pin has free. -/
def TevPin.freeEntry (p : TevPin) : Nat := ((List.range 16).find? (fun i => !p.entries.any (fun e => e.entry == i))).getD 0

/-- The entry of a request. -/
def tevEntryOf (r : TevAddReq) (n : Nat) : TevEntry :=
  { entry := n, start := tevInstant r, next := tevInstant r, width := r.width, period := r.period, left := if r.count = 0 then none else some r.count }

/-- The pin is no OUTPUT, a field is out of range, or the instant is too early. -/
def Dev.tevBad (d : Dev) (r : TevAddReq) (now : Nat) (p : TevPin) : Bool :=
  decide (3 < r.pin) || p.mode != 1 || decide (1000000000 ≤ r.ns) || decide (r.width < 10) || decide (500000000 < r.width) ||
    (r.period != 0 && (decide (r.period < 2 * r.width) || decide (1000000000 < r.period))) ||
    decide (tevInstant r * 2 ^ 32 < d.time.value now + 10000 * 2 ^ 32)

theorem tevBad_eq_false {d : Dev} {r : TevAddReq} {now : Nat} {p : TevPin} (fields : TevFields r) (output : p.mode = 1)
    (ahead : d.time.value now + 10000 * 2 ^ 32 ≤ tevInstant r * 2 ^ 32) : d.tevBad r now p = false := by
  obtain ⟨pin, ns, some_width, width, period⟩ := fields
  have periodOk : (r.period != 0 && (decide (r.period < 2 * r.width) || decide (1000000000 < r.period))) = false := by
    by_cases oneShot : r.period = 0
    · simp [oneShot]
    · obtain ⟨low, high⟩ := period oneShot
      simp [Nat.not_lt.2 low, Nat.not_lt.2 high]
  unfold Dev.tevBad
  rw [periodOk, decide_eq_false (Nat.not_lt.2 ahead), decide_eq_false (Nat.not_lt.2 pin), decide_eq_false (Nat.not_le.2 ns),
    decide_eq_false (Nat.not_lt.2 some_width), decide_eq_false (Nat.not_lt.2 width), output]
  rfl

/-- ADD of an instant 10 µs ahead appends an entry under the lowest free number. -/
theorem tevAdd_appends {d : Dev} {r : TevAddReq} {now : Nat} {p : TevPin} (at_ : p = lget d.time.pins r.pin TevPin.reset) (fields : TevFields r)
    (output : p.mode = 1) (room : p.entries.length < 16) (ahead : d.time.value now + 10000 * 2 ^ 32 ≤ tevInstant r * 2 ^ 32)
    (set : d.time.state ≠ .unset) (ref : CmdRef) :
    tevAdd r now ref d = ({ d with time := d.time.modPin r.pin (fun q => { q with entries := q.entries ++ [tevEntryOf r p.freeEntry] }) } : Dev).complete
      ref .ok (le 1 p.freeEntry) := by
  subst at_
  exact (if_neg (Bool.eq_false_iff.1 (tevBad_eq_false fields output ahead))).trans ((if_neg (Nat.not_le.2 room)).trans (if_neg set))

/-- CANCEL_ALL removes the entries of the pin. -/
theorem tevCancel_removes {pin : Nat} (known : pin ≤ 3) (ref : CmdRef) (d : Dev) :
    tevCancel pin ref d = ({ d with time := d.time.modPin pin (fun p => { p with entries := [] }) } : Dev).complete ref .ok := if_neg (Nat.not_lt.2 known)

/-! ### NET_TRIGGER (R348, R349, R353) -/

/-- The terminals of a mask serve on the tree. -/
def Dev.allServe (d : Dev) (t mask : Nat) : Bool := (maskIds mask).all (fun i => ((d.tree t).byId i).elim false (fun x => x.state = .inService))

/-- A field of a trigger is out of range; a CANCEL uses TRIG_ID alone. -/
def trigBad (r : TrigReq) (cancel : Bool) : Bool :=
  decide (255 < r.trigId) || (!cancel && (decide (7 < r.output) || decide (1000000000 ≤ r.ns) ||
    (r.period != 0 && (decide (r.period < 1000) || decide (1000000000 < r.period)))))

/-- The instant lies less than 4 ms after the counter at the next boundary. -/
def Dev.trigEarly (d : Dev) (r : TrigReq) : Bool :=
  decide ((r.sec % 2 ^ 48 * 1000000000 + r.ns) * 2 ^ 32 < d.time.afterSteps (d.time.atBoundary 0) + 4000000 * 2 ^ 32)

theorem trigBad_set {r : TrigReq} (id : r.trigId ≤ 255) (output : r.output ≤ 7) (ns : r.ns < 1000000000)
    (period : r.period ≠ 0 → 1000 ≤ r.period ∧ r.period ≤ 1000000000) : trigBad r false = false := by
  have periodOk : (r.period != 0 && (decide (r.period < 1000) || decide (1000000000 < r.period))) = false := by
    by_cases once : r.period = 0
    · simp [once]
    · obtain ⟨low, high⟩ := period once
      simp [Nat.not_lt.2 low, Nat.not_lt.2 high]
  unfold trigBad
  rw [periodOk, decide_eq_false (Nat.not_lt.2 id), decide_eq_false (Nat.not_lt.2 output), decide_eq_false (Nat.not_le.2 ns)]
  rfl

theorem trigBad_cancel {r : TrigReq} (id : r.trigId ≤ 255) : trigBad r true = false := by
  unfold trigBad
  rw [decide_eq_false (Nat.not_lt.2 id)]
  rfl

/-- The trigger that waits for its copies. -/
def Dev.trigWaiting (d : Dev) (r : TrigReq) (cancel : Bool) (ref : CmdRef) : NetTrig :=
  { ref, tree := r.tree, body := netTrigBody r cancel, left := (maskIds r.mask).map (fun i => (i, d.now + 1, false)), queued := 0 }

section
variable {d : Dev} {r : TrigReq} {cancel : Bool} (up : d.treeUp r.tree = true) (serve : d.allServe r.tree r.mask = true) (fields : trigBad r cancel = false)
  (ahead : cancel = false → d.trigEarly r = false) (set : d.time.state ≠ .unset) (running : d.time.state ≠ .freeRun) (ref : CmdRef)
include up serve fields ahead set running

/-- A trigger that passes its checks waits where a terminal is named, and else completes. -/
theorem netTrigger_passes : netTrigger r cancel ref d = if maskIds r.mask = [] then d.complete ref .ok (fromResp d.now)
    else { d with time := { d.time with trigs := d.time.trigs ++ [d.trigWaiting r cancel ref] } } := by
  have valid : ¬ ((!d.treeUp r.tree || !d.allServe r.tree r.mask || trigBad r cancel || (!cancel && d.trigEarly r)) = true) := by
    rw [up, serve, fields]
    cases cancel with
    | true => exact Bool.false_ne_true
    | false => rw [ahead rfl]; decide
  exact (if_neg valid).trans (if_neg (not_or.2 ⟨set, running⟩))

theorem netTrigger_waits (named : maskIds r.mask ≠ []) :
    netTrigger r cancel ref d = { d with time := { d.time with trigs := d.time.trigs ++ [d.trigWaiting r cancel ref] } } :=
  (netTrigger_passes up serve fields ahead set running ref).trans (if_neg named)

theorem netTrigger_completes (unnamed : maskIds r.mask = []) : netTrigger r cancel ref d = d.complete ref .ok (fromResp d.now) :=
  (netTrigger_passes up serve fields ahead set running ref).trans (if_pos unnamed)

end

end Sys2Proof.Machine

open Sys2Proof Sys2Proof.Machine

/-- Settles O32: a command of a served context waits or has its effect at once, and each boundary is the case of its change. -/
theorem timeCommands : Obligations.TimeCommands := by
  unfold Obligations.TimeCommands
  refine ⟨fun s ctx r served source profile some_width width phi0 kept => exec_served (body := timeClock r) rfl served
      (timeClock_waits (d := s.dev.begun ctx) ⟨source, profile, some_width, width, phi0⟩ kept _),
    fun d ref x n locked => applyTime_clock d ref x locked,
    fun s ctx r served port => exec_served (body := timePort r) rfl served (timePort_waits (d := s.dev.begun ctx) port _),
    fun d ref p x y old => applyTime_port d ref p x old,
    fun s ctx r served present asym fixed => exec_served (body := timeTree r) rfl served (timeTree_waits (d := s.dev.begun ctx) present asym fixed _),
    fun s ctx served => exec_served (body := fun ref d => d.complete ref .ok (timeStatusResp d)) rfl served rfl,
    fun s ctx inc now served host low high => exec_served (body := setIncrement inc now) rfl served
      (setIncrement_sets (d := s.dev.begun ctx) host low high now _),
    fun s ctx sec ns served source range => exec_served (body := stepAbs sec ns) rfl served (stepAbs_waits (d := s.dev.begun ctx) source range sec _),
    fun d ref ns => ⟨fun pps => ?pps, fun other => ?other⟩,
    fun s ctx x served host => exec_served (body := stepRel x) rfl served (stepRel_waits (d := s.dev.begun ctx) host x _), fun _ _ _ => rfl,
    fun s ctx r served pin mode => exec_served (body := tevMode r) rfl served (tevMode_sets pin mode _ _), ?add,
    fun s ctx pin served known => exec_served (body := tevCancel pin) rfl served (tevCancel_removes known _ _), ?set, ?cancel⟩
  case pps => rw [applyTime_stepAbs, pps, steppedTo_pps]
  case other => rw [applyTime_stepAbs, steppedTo_other other]
  case add =>
    rintro s ctx r now t n p served pin at_ output room ns some_width width period rfl ahead set rfl
    exact exec_served (body := tevAdd r now) rfl served
      (tevAdd_appends (d := s.dev.begun ctx) at_ ⟨pin, ns, some_width, width, period⟩ output room ahead set _)
  case set =>
    intro s ctx r served up serve id output ns period ahead set running
    have fields := trigBad_set id output ns period
    have notEarly : s.dev.trigEarly r = false := decide_eq_false (Nat.not_lt.2 ahead)
    exact ⟨fun named => exec_served (body := netTrigger r false) rfl served
        (netTrigger_waits (d := s.dev.begun ctx) up serve fields (fun _ => notEarly) set running _ named),
      fun unnamed => exec_served (body := netTrigger r false) rfl served
        (netTrigger_completes (d := s.dev.begun ctx) up serve fields (fun _ => notEarly) set running _ unnamed)⟩
  case cancel =>
    intro s ctx r served up serve id set running
    have fields := trigBad_cancel id
    exact ⟨fun named => exec_served (body := netTrigger r true) rfl served
        (netTrigger_waits (d := s.dev.begun ctx) up serve fields (fun h => absurd h (by decide)) set running _ named),
      fun unnamed => exec_served (body := netTrigger r true) rfl served
        (netTrigger_completes (d := s.dev.begun ctx) up serve fields (fun h => absurd h (by decide)) set running _ unnamed)⟩
end

section
/-!
PROOFS. The events of the time unit (R332, R333, R335, R337 to R339, R346, R347, R354, R405, R460): each event in the cases of its meaning.
-/
namespace Sys2Proof.Machine
open Sys2Proof

/-! ### The source and the time state (R332, R354) -/

/-- A loss of PPS_IN is reported once. -/
def Dev.reportPps (d : Dev) : Dev :=
  if d.time.set.source = 1 ∧ d.time.ppsLost = false then ({ d with time := { d.time with ppsLost := true } } : Dev).raise 0x307 [] 0 true else d

section
variable {d e : Dev} (awake : d.host.idle = false) (lost : d.time.set.source = 0 ∨ (d.time.set.source = 1 ∧ d.ppsOut = true)) (reported : e = d.reportPps)
include awake lost reported

/-- A lost source is reported, and takes a LOCKED counter into HOLDOVER. -/
theorem timeSourceLost_eq : timeSourceLost d =
    if e.time.state ≠ .locked then e else ({ e with time := { e.time with holdSince := e.now, goodSamples := 0 } } : Dev).timeState .holdover := by
  have counts : ¬ (d.time.set.source = 2 ∨ d.host.idle = true ∨ (d.time.set.source = 1 ∧ (!d.ppsOut) = true)) := by
    rintro (host | pause | ⟨pps, here⟩)
    · omega
    · exact Bool.eq_false_iff.1 awake pause
    · obtain ptp | ⟨-, out⟩ := lost
      · omega
      · rw [out] at here
        exact Bool.false_ne_true here
  subst reported
  unfold Dev.reportPps
  simp only [← Bool.not_eq_true']
  exact if_neg counts

theorem timeSourceLost_holds (locked : e.time.state = .locked) :
    timeSourceLost d = ({ e with time := { e.time with holdSince := e.now, goodSamples := 0 } } : Dev).timeState .holdover :=
  (timeSourceLost_eq awake lost reported).trans (if_neg (not_not.2 locked))

theorem timeSourceLost_stays (unlocked : e.time.state ≠ .locked) : timeSourceLost d = e := (timeSourceLost_eq awake lost reported).trans (if_pos unlocked)

end

section
variable {d : Dev} (awake : d.host.idle = false)
include awake

/-- Four good samples lock the counter again. -/
theorem timeSourceRegained_locks (held : d.time.state = .holdover ∨ d.time.state = .freeRun) (good : 4 ≤ d.time.goodSamples)
    (source : ¬ (d.time.set.source = 1 ∧ d.time.ppsLost = true)) : timeSourceRegained d = d.timeState .locked :=
  if_pos ⟨held, good, by rw [awake]; rfl, by rw [decide_eq_false source]; rfl⟩

/-- HOLDOVER_LIMIT ends in FREE_RUN. -/
theorem holdoverLimit_ends (holdover : d.time.state = .holdover) (limited : d.time.set.holdLimit ≠ 0)
    (due : d.time.holdSince + d.time.set.holdLimit * Config.ticksPerSecond ≤ d.now) : holdoverLimit d = d.timeState .freeRun :=
  if_pos ⟨holdover, by rw [awake]; rfl, limited, due⟩

end

/-! ### The servo (R332, R333, R335) -/

/-- Adesa does no work, HOST has the counter, or PPS_IN has given no edge: nothing happens. -/
theorem servoUpdate_waits {d : Dev} (idle : d.host.idle = true ∨ d.time.set.source = 2 ∨ (d.time.set.source = 1 ∧ d.time.ppsOffset = none)) (o : ServoOut) :
    servoUpdate o d = d := by
  unfold servoUpdate
  split
  next => rfl
  next works =>
    obtain ⟨source, edge⟩ := (idle.resolve_left (fun h => works (.inl h))).resolve_left (fun h => works (.inr h))
    rw [if_pos source, edge]
    rfl

/-- Under PTP the servo counts its own sample, under PPS_IN that of the last edge, which is taken. -/
theorem servoUpdate_samples {d : Dev} {o : ServoOut} {v : Int} (awake : d.host.idle = false)
    (sample : (d.time.set.source = 0 ∧ v = o.offset) ∨ (d.time.set.source = 1 ∧ d.time.ppsOffset = some v)) :
    servoUpdate o d = { d with time := { d.time.sample v o.inc o.now with
      ppsOffset := if d.time.set.source = 1 then none else (d.time.sample v o.inc o.now).ppsOffset } } := by
  unfold servoUpdate
  rcases sample with ⟨ptp, rfl⟩ | ⟨pps, edge⟩
  · rw [if_neg (by simp [awake, ptp]), if_neg (by omega), if_neg (by omega)]
  · rw [if_neg (by simp [awake, pps]), if_pos pps, edge, if_pos pps]
    rfl

/-- A sample is counted. -/
def TimeUnit.counted (t : TimeUnit) (v : Int) : TimeUnit := { t with goodSamples := if v.natAbs < 100 then t.goodSamples + 1 else 0 }

/-- A sample within STEP_THRESHOLD writes INCREMENT. -/
theorem sample_steers {t : TimeUnit} {v : Int} (near_ : t.set.stepThreshold = 0 ∨ v.natAbs ≤ t.set.stepThreshold) (inc : Option Nat) (now : Nat) :
    t.sample v inc now = inc.elim (t.counted v) (fun i => if incOk i then (t.counted v).setInc i now else t.counted v) :=
  if_neg (by rintro ⟨on, beyond⟩; exact near_.elim on (fun h => Nat.not_lt.2 h beyond))

/-- Neither counting a sample nor writing INCREMENT takes the edge of PPS_IN. -/
theorem steered_ppsOffset (t : TimeUnit) (v : Int) (inc : Option Nat) (now : Nat) :
    (inc.elim (t.counted v) (fun i => if incOk i then (t.counted v).setInc i now else t.counted v)).ppsOffset = t.ppsOffset := by
  cases inc with
  | none => rfl
  | some i => dsimp only [Option.elim]; split <;> rfl

/-- One beyond it steps at the next boundary. -/
theorem sample_steps {t : TimeUnit} {v : Int} (on : t.set.stepThreshold ≠ 0) (beyond : t.set.stepThreshold < v.natAbs) (inc : Option Nat) (now : Nat) :
    t.sample v inc now = { t.counted v with pend := t.pend ++ [.stepRel none v] } :=
  if_pos ⟨on, beyond⟩

/-! ### PPS_OUT (R338) -/

/-- PPS_OUT goes high when TNS passes 0; a pulse already high stays so at least as long. -/
theorem ppsOutPulse_rises {d : Dev} {now n : Nat} (set : d.time.state ≠ .unset) (enabled : d.time.set.ppsOut = true) (passes : d.secondPasses now = true)
    (stop : n = d.clk now + d.time.set.ppsWidth * Config.clocksPerMicrosecond) :
    ppsOutPulse now d = { d with time := { d.time with ppsHigh := some (d.time.ppsHigh.elim n (Nat.max n)) } } := by
  subst stop
  exact if_pos ⟨set, enabled, passes⟩

/-- Within a tick TNS passes 0 where the second changes in the last period. -/
theorem secondPasses_within {d : Dev} {now : Nat} (within : d.time.basePeriod < periodsAt now) :
    d.secondPasses now = (secOf (d.time.value now - d.time.inc) != secOf (d.time.value now)) := by
  have later : (periodsAt now == 0) = false := beq_false_of_ne (Nat.ne_of_gt (Nat.zero_lt_of_lt within))
  unfold Dev.secondPasses
  dsimp only
  rw [if_neg (Nat.not_le.2 within), later, Bool.false_and, Bool.not_false, Bool.and_true]

/-! ### TEV pins (R346, R347) -/

/-- The entry due at an OUTPUT pin fires. -/
theorem tevFire_fires {d : Dev} {pin now : Nat} {e : TevEntry} (output : (lget d.time.pins pin TevPin.reset).mode = 1)
    (due : (lget d.time.pins pin TevPin.reset).due (d.time.ns now) = some e) :
    tevFire pin now d = { d with time := d.time.modPin pin (fun p => p.fire e (d.clk now)) } := by
  unfold tevFire
  dsimp only
  rw [if_neg (not_not.2 output), due]

/-- A one-shot, or the last of a count, goes. -/
theorem fire_entries_last {p : TevPin} {e : TevEntry} (last : e.period = 0 ∨ e.left = some 1) (c : Nat) :
    (p.fire e c).entries = p.entries.filter (fun x => x.entry != e.entry) :=
  if_pos (last.imp_right (fun left => by rw [left]; rfl))

/-- A periodic entry moves on by its period. -/
theorem fire_entries_periodic {p : TevPin} {e : TevEntry} (periodic : e.period ≠ 0) (more : ∀ n, e.left = some n → 2 ≤ n) (c : Nat) :
    (p.fire e c).entries = p.entries.map (fun x => if x.entry = e.entry then { e with next := e.next + e.period, left := e.left.map (· - 1) } else x) := by
  refine if_neg ?_
  rintro (zero | last)
  · exact periodic zero
  · obtain ⟨n, left, one⟩ := Option.map_eq_some_iff.1 last
    have := more n left
    omega

/-- The pin after an edge at a clock of the tick. -/
def Dev.edgeSeen (d : Dev) (pin now : Nat) : Dev := { d with time := d.time.modPin pin (fun p => { p with lastEdge := some (d.clk now) }) }

/-- The record of a captured edge. -/
def captureRecord (rising : Bool) (v : Nat) : Bytes := le 1 (if rising then 1 else 2) ++ le 6 (secOf v) ++ le 4 (nsOf v) ++ le 2 (fracOf v / 65536)

section
variable {d : Dev} {pin now : Nat} {rising : Bool} (capture : (lget d.time.pins pin TevPin.reset).mode = 2)
  (selected : bitOf (lget d.time.pins pin TevPin.reset).edges (if rising then 0 else 1) = true)
  (apart : (lget d.time.pins pin TevPin.reset).lastEdge.elim true (fun l => decide (l * 8 + 100 ≤ d.clk now * 8)) = true)
include capture selected apart

/-- A selected edge, 10 ns after the one before, is raised where the FIFO has room, and else lost. -/
theorem tevEdge_eq : d.tevEdge pin rising now =
    if 64 ≤ d.tevPending pin then ((d.edgeSeen pin now).count 19 .timeTevCaptureLost (33 + pin), false)
    else ((d.edgeSeen pin now).raise (0x308 + pin) (captureRecord rising ((d.edgeSeen pin now).time.stamp now)), true) :=
  if_neg (by
    rintro (other | off | near_)
    · exact other capture
    · rw [selected] at off
      exact Bool.false_ne_true off
    · rw [apart] at near_
      exact Bool.false_ne_true near_)

/-- A captured edge triggers the recorder where its mask names the pin. -/
theorem tevCapture_captures {e : Dev} (raised : e = (d.edgeSeen pin now).raise (0x308 + pin) (captureRecord rising ((d.edgeSeen pin now).time.stamp now)))
    (room : d.tevPending pin < 64) :
    tevCapture pin rising now d = if bitOf e.recd.set.tevMask pin then (e.trigger (e.stamp now) 3 pin 0 now).2 else e := by
  subst raised
  unfold tevCapture
  rw [tevEdge_eq capture selected apart, if_neg (Nat.not_le.2 room)]

/-- A lost edge is counted. -/
theorem tevCapture_loses (full : 64 ≤ d.tevPending pin) :
    tevCapture pin rising now d = (d.edgeSeen pin now).count 19 .timeTevCaptureLost (33 + pin) := by
  unfold tevCapture
  rw [tevEdge_eq capture selected apart, if_pos full]

end

/-! ### The alignment of the tick (R337, R405) -/

/-- θ against the tick reference, where ALIGN has one that is another device. -/
def Dev.refTheta (d : Dev) : Option Int := (if d.tow.align then d.tickRef.filter (fun x => x != d.dev.devAddr) else none).bind d.thetaOf

/-- After the first attach nothing is aligned. -/
theorem tickAlign_attached {d : Dev} (attached : d.clock.everAttached = true) (load : Option Nat) : tickAlign load d = d := if_pos (.inl attached)

section
variable {d : Dev} (first : d.clock.everAttached = false) (load : Option Nat)
include first

/-- In phase-aligned mode, right after LOCKED and without a reference, the tick is lengthened for its phase, and Adesa's cycle number loaded. -/
theorem tickAlign_phase (once : d.clock.tickLengthened = false) (aligned : d.time.set.aligned = true) (locked : d.time.state = .locked)
    (right : d.time.lockedTick + 1 = d.up) (alone : d.refTheta = none) : tickAlign load d = { d with clock := { d.clock with
      lengthenTo := some d.time.alignPeriods, loadCycle := if d.clock.cycleLoaded then d.clock.loadCycle else load, tickLengthened := true } } := by
  unfold Dev.refTheta at alone
  unfold tickAlign
  cases loaded : d.clock.cycleLoaded <;> simp [alone, first, once, aligned, locked, right, loaded]

section
variable {th : Int} (theta : d.refTheta = some th) (unloaded : d.clock.cycleLoaded = false)
include theta unloaded

/-- Outside phase-aligned mode the tick is lengthened for θ, and the reference's cycle number loaded with it. -/
theorem tickAlign_theta (once : d.clock.tickLengthened = false) (free : d.time.set.aligned = false) : tickAlign load d = { d with
    clock := { d.clock with
      lengthenTo := some (thetaPeriods th), loadCycle := some (cycleAt (d.now + 1) (th + (thetaPeriods th : Int) * 5000)), tickLengthened := true },
    tow := { d.tow with aligned := true } } := by
  unfold Dev.refTheta at theta
  unfold tickAlign
  simp [theta, first, once, free, unloaded]

/-- In phase-aligned mode the reference's cycle number is loaded later than the lengthening too. -/
theorem tickAlign_number (done : d.clock.tickLengthened = true) (aligned : d.time.set.aligned = true) : tickAlign load d = { d with
    clock := { d.clock with loadCycle := some (cycleAt (d.now + 1) th) }, tow := { d.tow with aligned := true } } := by
  unfold Dev.refTheta at theta
  unfold tickAlign
  simp [theta, first, done, aligned, unloaded]

end
end

/-! ### PTP messages (R339) -/

section
variable {d : Dev} {port : Nat} (enabled : (tget d.time.ports port).elim false (fun p => p.enable) = true) (awake : d.host.idle = false)
  (live : d.upLive port = true)
include enabled awake live

/-- An enabled port takes its state, and sends the message unless it has no such message or is not the MASTER of a Sync or Announce. -/
theorem ptpInterval_eq (msg st : Nat) : ptpInterval port msg st d =
    if (!([0, 2, 11, 12, 13].contains msg)) = true ∨ ((msg = 0 ∨ msg = 11) ∧ st ≠ 6) then d.ptpState port st
    else ((d.ptpState port st).ptpMake port msg).2.ptpQueue port ((d.ptpState port st).ptpMake port msg).1 :=
  if_neg (by
    rintro (pause | dead | off)
    · exact Bool.eq_false_iff.1 awake pause
    · rw [live] at dead
      exact Bool.false_ne_true dead
    · cases h : tget d.time.ports port <;> simp_all)

theorem ptpInterval_sends {msg st : Nat} (known : msg ∈ [0, 2, 11, 12, 13]) (master : msg = 0 ∨ msg = 11 → st = 6) :
    ptpInterval port msg st d = ((d.ptpState port st).ptpMake port msg).2.ptpQueue port ((d.ptpState port st).ptpMake port msg).1 :=
  (ptpInterval_eq enabled awake live msg st).trans (if_neg (by
    rintro (other | ⟨own, not⟩)
    · rw [List.contains_iff_mem.2 known] at other
      exact Bool.false_ne_true other
    · exact not (master own)))

theorem ptpInterval_silent {msg st : Nat} (no : msg ∉ [0, 2, 11, 12, 13] ∨ ((msg = 0 ∨ msg = 11) ∧ st ≠ 6)) : ptpInterval port msg st d = d.ptpState port st :=
  (ptpInterval_eq enabled awake live msg st).trans (if_pos (no.imp_left (fun other => by
    rw [Bool.eq_false_iff.2 (fun mem => other (List.contains_iff_mem.1 mem))]
    rfl)))

end

section
variable {d : Dev} {port st : Nat} {x : PtpPort} (listed : tget d.time.ports port = some x)
include listed

/-- A change of a port's state is raised. -/
theorem ptpState_changes (new : x.state ≠ st) : d.ptpState port st =
    ({ d with time := { d.time with ports := tmod d.time.ports port (fun x => { x with state := st }) } } : Dev).raise 0x306 (le 1 port ++ le 1 st) := by
  unfold Dev.ptpState
  rw [listed]
  exact if_neg (by simpa using new)

theorem ptpState_same (same : x.state = st) : d.ptpState port st = d := by
  unfold Dev.ptpState
  rw [listed]
  exact if_pos (by simpa using same)

end

end Sys2Proof.Machine

open Sys2Proof Sys2Proof.Machine

/-- Settles O33: each event is the case of its meaning named by its hypotheses. -/
theorem timeEvents : Obligations.TimeEvents := by
  unfold Obligations.TimeEvents
  refine ⟨fun s d awake lost reported => ⟨fun locked => exec_next rfl (timeSourceLost_holds awake lost reported locked),
      fun unlocked => exec_next rfl (timeSourceLost_stays awake lost reported unlocked)⟩,
    fun s held good awake source => exec_next rfl (timeSourceRegained_locks awake held good source),
    fun s holdover awake limited due => exec_next rfl (holdoverLimit_ends awake holdover limited due), ?edge,
    fun s o idle => exec_next rfl (servoUpdate_waits idle o), ?steer, ?step,
    fun s now n set enabled passes stop => exec_next rfl (ppsOutPulse_rises set enabled passes stop),
    fun d now within => secondPasses_within within, fun s pin now e output due => exec_next rfl (tevFire_fires output due),
    fun p e c => ⟨rfl, fun last => fire_entries_last last c, fun periodic more => fire_entries_periodic periodic more c⟩, ?capture, ?phase, ?theta,
    fun s given cycle attached => exec_next rfl (tickAlign_attached attached _), ?interval,
    fun d port st x listed => ⟨ptpState_changes listed, ptpState_same listed⟩⟩
  case edge =>
    rintro s now _ rfl
    rfl
  case steer =>
    rintro s o v _ awake sample near_ rfl
    refine exec_next rfl ((servoUpdate_samples awake sample).trans ?_)
    rw [sample_steers near_, steered_ppsOffset]
    rfl
  case step =>
    intro s o v awake sample on beyond
    exact ⟨_, exec_next rfl (servoUpdate_samples awake sample), congrArg TimeUnit.pend (sample_steps on beyond o.inc o.now)⟩
  case capture =>
    rintro s pin now rising _ _ d2 _ rfl capture selected apart rfl rfl raised
    exact ⟨fun room => exec_next rfl (tevCapture_captures capture selected apart raised room),
      fun full => exec_next rfl (tevCapture_loses capture selected apart full)⟩
  case phase =>
    rintro s given cycle th theta first once aligned locked right rfl
    exact exec_next rfl (tickAlign_phase first _ once aligned locked right theta.symm)
  case theta =>
    intro s given cycle th theta first unloaded
    exact ⟨fun once free => exec_next rfl (tickAlign_theta first _ theta unloaded once free),
      fun done aligned => exec_next rfl (tickAlign_number first _ theta unloaded done aligned)⟩
  case interval =>
    rintro s port msg st _ enabled awake live rfl
    exact ⟨fun known master => exec_next rfl (ptpInterval_sends enabled awake live known master),
      fun no => exec_next rfl (ptpInterval_silent enabled awake live no)⟩
end

section
/-!
PROOFS. The end of a counter dump (R484, R486) and a due key erasure (R372, R374).
-/
namespace Sys2Proof.Machine
open Sys2Proof

/-- The header of a dump's slot. -/
def DumpJob.header (j : DumpJob) (b : Bytes) (n : Nat) (cut : Bool) : Bytes :=
  le 4 0x504D5544 ++ le 2 1 ++ le 2 (b2n cut) ++ le 8 j.seq ++ fromResp j.cycle ++ le 8 j.prev ++ le 4 j.skipped ++ le 4 n ++ le 8 (64 + b.length) ++ le 8 0

/-- The address of a dump's slot. -/
def DumpJob.slotAddr (j : DumpJob) : Nat := j.settings.base + j.head * j.settings.slotSize

/-- The device after a dump: the job has ended, and DUMP_HEAD is past its slot. -/
def Dev.dumpEnded (d : Dev) (j : DumpJob) : Dev := { d with ctr := { d.ctr with job := none, dumpHead := (j.head + 1) % j.settings.slots } }

/-- A dump for which 500,000 bytes a tick have been enough is written, DONE last; a cut one is counted. -/
theorem dumpDone_writes {d : Dev} {j : DumpJob} {b : Bytes} {n : Nat} {cut : Bool} (job : d.ctr.job = some j) (awake : d.host.d3 = false)
    (records : j.records (j.settings.slotSize - 64) (selected j.settings.select) = (b, n, cut)) (time : j.cycle + (63 + b.length) / 500000 ≤ d.now)
    (mem : List Host.Cell) : dumpDone d mem = (if cut then (d.dumpEnded j).countDev .dumpTrunc else d.dumpEnded j,
      memWrite (memWrite (memWrite mem j.slotAddr (j.header b n cut)) (j.slotAddr + 64) b) (j.slotAddr + 56) (fromResp j.cycle)) := by
  unfold dumpDone
  rw [job]
  dsimp only
  rw [if_neg (Bool.eq_false_iff.1 awake), records]
  exact if_neg (Nat.not_lt.2 time)

/-- At X + 64 of a rekey the old downstream slot is erased, where U + 36 is still ahead. -/
theorem rekeyDue_erases_down {d : Dev} {t id : Nat} {r : Rekey} (rekey : (d.keys (globalIndex t id)).rekey = some r) (due : r.x + 64 ≤ d.now)
    (ahead : d.now < r.u + 36) (first : r.erasedDown = false) : d.rekeyDue t id =
    d.modKeys (globalIndex t id) (fun k => { k with down := eraseSlot k.down (!r.phase), rekey := some { r with erasedDown := true } }) := by
  have erases : r.x + 64 ≤ d.now ∧ (!r.erasedDown) = true := ⟨due, by rw [first]; rfl⟩
  unfold Dev.rekeyDue
  dsimp only
  rw [rekey]
  dsimp only
  rw [if_pos erases]
  exact if_neg (Nat.not_le.2 ahead)

end Sys2Proof.Machine

open Sys2Proof Sys2Proof.Machine

/-- Settles O8: the dump that is ready, and the erasures of a rekey in the case of their times. -/
theorem dumpAndKeyErasure : Obligations.DumpAndKeyErasure := by
  unfold Obligations.DumpAndKeyErasure
  refine ⟨?dump, fun _ _ _ => rfl, fun d t id r rekey due ahead first => rekeyDue_erases_down rekey due ahead first⟩
  rintro s j b n cut _ job awake records time rfl
  rw [exec_of_dmaOp rfl s, State.onBoth, dumpDone_writes job awake records time s.hostMem]
  rfl
end

section
/-!
PROOFS. RECORDER_TRIGGER (R428): its status, and its answer at the boundary.
-/
namespace Sys2Proof.Machine
open Sys2Proof

/-- While RUN is clear or STORE_FULL holds it is DENIED. -/
theorem recTrigger_denied {d : Dev} (off : d.recd.set.run = false ∨ d.recd.full = true) (tag : Nat) (ref : CmdRef) :
    recTrigger tag ref d = d.complete ref .denied :=
  if_pos (off.imp_left (fun stands => by rw [stands]; rfl))

section
variable {d : Dev} (run : d.recd.set.run = true) (room : d.recd.full = false) (tag : Nat) (ref : CmdRef)
include run room

/-- Neither keeps the recorder from triggering. -/
theorem recorder_ready : ¬ ((!d.recd.set.run) = true ∨ d.recd.full = true) := by
  rw [run, room]
  decide

/-- Else it waits. -/
theorem recTrigger_waits : recTrigger tag ref d = d.recPend (.trigger ref tag) := if_neg (recorder_ready run room)

/-- Its boundary triggers with its TAG and answers the capture. -/
theorem applyRec_trigger : d.applyRec (.trigger ref tag) =
    (d.trigger (d.stamp 0) 0 0 tag 0).2.complete ref .ok (le 8 (d.trigger (d.stamp 0) 0 0 tag 0).1) := if_neg (recorder_ready run room)

end

end Sys2Proof.Machine

open Sys2Proof Sys2Proof.Machine

/-- Settles O52: the two statuses of the command, and its boundary. -/
theorem softwareTrigger : Obligations.SoftwareTrigger := by
  unfold Obligations.SoftwareTrigger
  exact fun s ctx tag served => ⟨fun off => exec_served (body := recTrigger tag) rfl served (recTrigger_denied (d := s.dev.begun ctx) off tag _),
    fun run room => ⟨exec_served (body := recTrigger tag) rfl served (recTrigger_waits (d := s.dev.begun ctx) run room tag _),
      fun d running free => applyRec_trigger running free tag _⟩⟩
end

section
/-!
PROOFS. The bound on a folded sample (R415, R416): a quantised residual is off by at most half a step, and the escape carries the sample itself.
-/
namespace Sys2Proof.Machine
open Sys2Proof

/-- The nearest multiple of 2d + 1 lies within d. -/
theorem nearest_multiple_bound (d n : Nat) : ((n : Int) - ((n + d) / (2 * d + 1) : Nat) * (2 * d + 1 : Nat)).natAbs ≤ d := by
  have split := Nat.div_add_mod (n + d) (2 * d + 1)
  have rest := Nat.mod_lt (n + d) (Nat.succ_pos (2 * d))
  rw [← Nat.cast_mul, Nat.mul_comm ((n + d) / (2 * d + 1))]
  generalize (2 * d + 1) * ((n + d) / (2 * d + 1)) = multiple, (n + d) % (2 * d + 1) = rem at split rest ⊢
  omega

/-- A quantised value is off by at most d. -/
theorem quantise_bound (d : Nat) (predicted x : Int) : (x - (quantise d predicted x).2).natAbs ≤ d := by
  have bound := nearest_multiple_bound d (x - predicted).natAbs
  unfold quantise
  dsimp only
  generalize ((((x - predicted).natAbs + d) / (2 * d + 1) : Nat) : Int) = m at bound ⊢
  by_cases positive : 0 ≤ x - predicted
  · rw [if_pos positive]
    rw [Int.natAbs_of_nonneg positive] at bound
    rwa [← Int.sub_sub]
  · rw [if_neg positive, Int.neg_mul]
    omega

/-- The value of a sample does not fit, or its code is too long: it takes the escape. -/
def takesEscape (d p : Nat) (r : ChanRun) (x : Int) : Prop :=
  (quantise d r.predict x).2 < -2147483648 ∨ 2147483647 < (quantise d r.predict x).2 ∨ rice p (zigzag (quantise d r.predict x).1) = none

/-- The code that is tried before the escape. -/
def triedCode (d p : Nat) (r : ChanRun) (x : Int) : Option (List Bool) :=
  if decide ((quantise d r.predict x).2 < -2147483648) || decide (2147483647 < (quantise d r.predict x).2) then none
  else rice p (zigzag (quantise d r.predict x).1)

theorem triedCode_eq_none_iff {d p : Nat} {r : ChanRun} {x : Int} : triedCode d p r x = none ↔ takesEscape d p r x := by
  unfold triedCode takesEscape
  split
  next far =>
    simp only [Bool.or_eq_true, decide_eq_true_eq] at far
    exact iff_of_true rfl (far.imp_right Or.inl)
  next near_ =>
    simp only [Bool.or_eq_true, decide_eq_true_eq, not_or] at near_
    simp [near_]

/-- The escape carries the sample. -/
theorem foldSample_escape {d p : Nat} {r : ChanRun} {x : Int} (escapes : takesEscape d p r x) :
    (foldSample d p r x).1 = escape x ∧ (foldSample d p r x).2.y1 = x := by
  have none_ : triedCode d p r x = none := triedCode_eq_none_iff.2 escapes
  unfold triedCode at none_
  unfold foldSample
  dsimp only
  rw [none_]
  exact ⟨rfl, rfl⟩

/-- Without it the decoder takes the quantised value. -/
theorem foldSample_quantised {d p : Nat} {r : ChanRun} {x : Int} (fits : ¬ takesEscape d p r x) :
    (foldSample d p r x).2.y1 = (quantise d r.predict x).2 := by
  obtain ⟨bits, some_⟩ := Option.ne_none_iff_exists'.1 (fun none_ => fits (triedCode_eq_none_iff.1 none_))
  unfold triedCode at some_
  unfold foldSample
  dsimp only
  rw [some_]

/-- The value that the decoder takes is off by at most d. -/
theorem foldSample_bound (d p : Nat) (r : ChanRun) (x : Int) : (x - (foldSample d p r x).2.y1).natAbs ≤ d := by
  by_cases escapes : takesEscape d p r x
  · rw [(foldSample_escape escapes).2, Int.sub_self]
    exact Nat.zero_le d
  · rw [foldSample_quantised escapes]
    exact quantise_bound d r.predict x

end Sys2Proof.Machine

open Sys2Proof Sys2Proof.Machine

/-- Settles O54: the bound for every d; d = 0 leaves no room, and the escape none either. -/
theorem foldBound : Obligations.FoldBound := by
  unfold Obligations.FoldBound
  intro p r x
  refine ⟨fun k _ _ => foldSample_bound (2 ^ k - 1) p r x, ?_, fun d escapes => foldSample_escape escapes⟩
  have exact_ := foldSample_bound 0 p r x
  omega
end

section
/-!
PROOFS. Where an event goes (R444, R447), the budget of Sluice (R507), and the transport of the host interface (R439, R440, R445, R450). First, how a
command that changes the device and host memory is run.
-/
namespace Sys2Proof.Machine
open Sys2Proof

/-- A command with an operation on host memory leads to the device and the memory that its operation answers. -/
theorem exec_next_dma {c : Instr} {s : State} {f : DmaOp} {d : Dev} {m : List Host.Cell} (op : dmaOp c = some f) (is : f s.dev s.hostMem = (d, m)) :
    exec c s = .next { s with dev := d, hostMem := m } := by
  rw [exec_of_dmaOp op, State.onBoth, is]

section
variable {d : Dev} {cycle src cause index : Nat} {flag : Bool} {data : Bytes}

/-- A record of a masked source is counted as masked. -/
theorem raiseAt_of_masked (masked : tgetD d.ev.routes src 0 = 255) : d.raiseAt cycle src cause flag index data = d.countDev .evtMasked := if_pos masked

/-- A record routed to a disabled ring is dropped there. -/
theorem raiseAt_of_disabled {r : Nat} (route : tgetD d.ev.routes src 0 = r) (unmasked : r ≠ 255) (disabled : (d.ring r).enable = false) :
    d.raiseAt cycle src cause flag index data = d.modRing r Ring.drop := by
  unfold Dev.raiseAt
  rw [route]
  exact (if_neg unmasked).trans (if_pos (by rw [disabled]; rfl))

end

/-- The device whose staging has lost its oldest record. -/
def Dev.unstaged (d : Dev) (rest : List EvRec) : Dev := { d with ev := { d.ev with staging := rest } }

/-- A ring's message is held within the coalescing interval after the last one (R447). -/
def Ring.holds (r : Ring) (t : Nat) : Bool := r.lastMsg.elim false (fun m => decide (t < m + r.coalesce * Config.clocksPerMicrosecond))

/-- A ring that has taken a record at clock `t`. -/
def Ring.taken (r : Ring) (head t : Nat) (hold : Bool) : Ring :=
  { r with head, phase := if head = 0 then !r.phase else r.phase, drops := 0, msgDue := hold, lastMsg := if hold then r.lastMsg else some t }

/-- The ring has no room: it is disabled, or full. -/
def Ring.noRoom (r : Ring) : Prop := r.enable = false ∨ (r.head + 1) % r.entries = r.tail % r.entries

section
variable {d : Dev} {e : EvRec} {rest : List EvRec} (served : d.host.idle = false) (awake : d.host.d3 = false) (oldest : d.ev.staging = e :: rest)
include served awake oldest

/-- The oldest staged record is written to a ring with room, and the ring's vector is signalled unless its message is held. -/
theorem eventRaise_writes (enabled : (d.ring e.ring).enable = true)
    (room : ((d.ring e.ring).head + 1) % (d.ring e.ring).entries ≠ (d.ring e.ring).tail % (d.ring e.ring).entries) (now : Nat) (mem : List Host.Cell) :
    eventRaise now d mem =
      (let r := d.ring e.ring
       let x := (d.unstaged rest).modRing e.ring (fun y => y.taken ((r.head + 1) % r.entries) (d.clk now) (r.holds (d.clk now)))
       (if r.holds (d.clk now) then x else x.signal (16 + e.ring), memWrite mem (r.entryAddr r.head) (e.bytes r.phase r.drops))) := by
  unfold eventRaise
  rw [if_neg (by rw [served, awake]; decide), oldest]
  have on : ¬ (!((d.unstaged rest).ring e.ring).enable) = true := by rw [show (d.unstaged rest).ring e.ring = d.ring e.ring from rfl, enabled]; decide
  exact (if_neg on).trans ((if_neg room).trans rfl)

/-- A record for a ring without room is dropped there. -/
theorem eventRaise_drops (noRoom : (d.ring e.ring).noRoom) (now : Nat) (mem : List Host.Cell) :
    eventRaise now d mem = ((d.unstaged rest).modRing e.ring Ring.drop, mem) := by
  unfold eventRaise
  rw [if_neg (by rw [served, awake]; decide), oldest]
  obtain disabled | full := noRoom
  · exact if_pos (by show (!(d.ring e.ring).enable) = true; rw [disabled]; rfl)
  · exact ite_eq_left_iff.2 (fun _ => if_pos full)

end

/-- The record that a ring without coalescing in force takes signals its vector. -/
theorem eventRaise_signals {d : Dev} {e : EvRec} {rest : List EvRec} (served : d.host.idle = false) (awake : d.host.d3 = false)
    (oldest : d.ev.staging = e :: rest) (enabled : (d.ring e.ring).enable = true)
    (room : ((d.ring e.ring).head + 1) % (d.ring e.ring).entries ≠ (d.ring e.ring).tail % (d.ring e.ring).entries)
    (fresh : (d.ring e.ring).lastMsg = none) (now : Nat) (mem : List Host.Cell) :
    (eventRaise now d mem).1 = ((d.unstaged rest).modRing e.ring (fun r => { r with
      head := (r.head + 1) % r.entries, phase := if (r.head + 1) % r.entries = 0 then !r.phase else r.phase, drops := 0,
      msgDue := false, lastMsg := some (d.clk now) })).signal (16 + e.ring) := by
  have sends : (d.ring e.ring).holds (d.clk now) = false := by unfold Ring.holds; rw [fresh]; rfl
  rw [eventRaise_writes served awake oldest enabled room]
  dsimp only
  rw [sends]
  rfl

end Sys2Proof.Machine

open Sys2Proof Sys2Proof.Machine

/-- Settles O57: the routes at reset, and a record in the cases of its route and of its ring. -/
theorem eventRouting : Obligations.EventRouting := by
  unfold Obligations.EventRouting
  refine ⟨fun d cycle src cause flag index data => ⟨rfl, raiseAt_of_masked, fun r => raiseAt_of_disabled, fun _ => rfl⟩, ?signals⟩
  exact fun d mem now e rest served awake oldest enabled room fresh => eventRaise_signals served awake oldest enabled room fresh now mem
end

section
namespace Sys2Proof.Machine
open Sys2Proof

/-! ### The budget of Sluice (R507) -/

/-- What the model refuses is a field out of range. -/
theorem budgetBad_iff (r : BudgetReq) :
    (r.budget < 80 ∨ 480 < r.budget ∨ r.waitLimit = 0 ∨ 3600 < r.waitLimit ∨ r.prio.length ≠ 7 ∨ r.prio.any (fun p => decide (3 < p))) ↔
      ¬ (80 ≤ r.budget ∧ r.budget ≤ 480 ∧ 1 ≤ r.waitLimit ∧ r.waitLimit ≤ 3600 ∧ r.prio.length = 7 ∧ r.prio.all (fun p => decide (p ≤ 3)) = true) := by
  have prios : r.prio.any (fun p => decide (3 < p)) = true ↔ ¬ r.prio.all (fun p => decide (p ≤ 3)) = true := by simp
  simp only [prios, not_and_or, Nat.not_le, Nat.lt_one_iff, ne_eq]

variable {d : Dev} {r : BudgetReq}

/-- A request with its fields in range waits for the next boundary. -/
theorem sluiceBudget_waits
    (fields : 80 ≤ r.budget ∧ r.budget ≤ 480 ∧ 1 ≤ r.waitLimit ∧ r.waitLimit ≤ 3600 ∧ r.prio.length = 7 ∧ r.prio.all (fun p => decide (p ≤ 3)) = true)
    (ref : CmdRef) :
    sluiceBudget r ref d = { d with sluice := { d.sluice with pend := d.sluice.pend ++ [(ref, r.budget, r.waitLimit, r.prio)] } } :=
  if_neg (fun bad => (budgetBad_iff r).1 bad fields)

/-- One with a field out of range is INVALID. -/
theorem sluiceBudget_refuses
    (bad : ¬ (80 ≤ r.budget ∧ r.budget ≤ 480 ∧ 1 ≤ r.waitLimit ∧ r.waitLimit ≤ 3600 ∧ r.prio.length = 7 ∧ r.prio.all (fun p => decide (p ≤ 3)) = true))
    (ref : CmdRef) : sluiceBudget r ref d = d.complete ref .invalid := if_pos ((budgetBad_iff r).2 bad)

/-- The device under a new budget, its request answered. -/
def Dev.budgeted (d : Dev) (ref : CmdRef) (budget waitLimit : Nat) (prio : List Nat) : Dev :=
  ({ d with sluice := { d.sluice with pend := [], budget, waitLimit, prio } } : Dev).complete ref .ok

/-- The boundary takes the waiting budget over, and reports one that is short. -/
theorem applyBudgets_one {ref : CmdRef} {budget waitLimit : Nat} {prio : List Nat} (pend : d.sluice.pend = [(ref, budget, waitLimit, prio)]) :
    d.applyBudgets = (let x := d.budgeted ref budget waitLimit prio
      if budget < x.sluice.base + x.sluice.heldTokens + x.sluice.reserve then
        x.raise 0x3A3 (le 2 budget ++ le 2 (x.sluice.base + x.sluice.heldTokens + x.sluice.reserve)) else x) := by
  unfold Dev.applyBudgets
  rw [pend]
  exact if_congr (and_iff_right rfl) rfl rfl

end Sys2Proof.Machine

open Sys2Proof Sys2Proof.Machine

/-- Settles O58: the values at reset, the request in range and out of it, and the boundary. -/
theorem sluiceBudgetSet : Obligations.SluiceBudgetSet := by
  unfold Obligations.SluiceBudgetSet
  refine fun s ctx r => ⟨rfl, rfl, rfl, fun served => ⟨fun fields => ?_, fun bad => ?_⟩, fun d ref pend => applyBudgets_one pend⟩
  · exact exec_served (body := sluiceBudget r) rfl served (sluiceBudget_waits (d := s.dev.begun ctx) fields _)
  · exact exec_served (body := sluiceBudget r) rfl served (sluiceBudget_refuses (d := s.dev.begun ctx) bad _)
end

section
/-!
PROOFS. The transport of the host interface: the doorbell and the checks of its page (R439, R440), the completion of a page, and a transmit ring (R450).
-/
namespace Sys2Proof.Machine
open Sys2Proof

/-! ### The doorbell (R439) -/

/-- The page of a doorbell. -/
def Dev.doorbellPage (d : Dev) (o : Doorbell) : Nat := pageAddr (d.ctx o.ctx) o.value

/-- The page that a doorbell puts to its context. -/
def Dev.newPage (d : Dev) (o : Doorbell) (p : PageRead) (c : MbCtx) : MbPage :=
  { addr := d.doorbellPage o, seq := (d.ctx o.ctx).seq + 1, hostTag := p.hostTag, early := headerCheck c p, opcode := p.opcode, tick := d.now }

section
variable {d : Dev} {o : Doorbell} (known : o.ctx < 8) (mem : List Host.Cell)
include known

/-- A doorbell that no page can be read for now waits. -/
theorem doorbell_waits (enabled : (d.ctx o.ctx).enable = true) (serves : d.host.serves = true) (still : d.host.d3 = true ∨ d.host.pause = true) :
    doorbell o d mem = ({ d with host := { d.host with rung := d.host.rung ++ [o] } }, mem) :=
  (if_neg (Nat.not_le.2 known)).trans (if_pos ⟨enabled, serves, still⟩)

/-- One of a context that is disabled or not served is discarded. -/
theorem doorbell_discards (off : (d.ctx o.ctx).enable = false ∨ d.host.serves = false) :
    doorbell o d mem = (d.modCtx o.ctx (fun c => { c with discarded := (c.discarded + 1) % 2 ^ 32 }), mem) := by
  have idle : ¬ ((d.ctx o.ctx).enable = true ∧ d.host.serves = true ∧ (d.host.d3 = true ∨ d.host.pause = true)) := by
    rintro ⟨enabled, serves, _⟩
    rw [enabled, serves] at off
    exact off.elim (Bool.noConfusion ·) (Bool.noConfusion ·)
  have discards : (!(d.ctx o.ctx).enable || !d.host.serves) = true := by obtain h | h := off <;> simp [h]
  exact (if_neg (Nat.not_le.2 known)).trans ((if_neg idle).trans (if_pos discards))

section
variable (awake : d.host.d3 = false) (runs : d.host.pause = false) (enabled : (d.ctx o.ctx).enable = true) (serves : d.host.serves = true)
include awake runs enabled serves

/-- A doorbell that is served gets to the number of commands outstanding. -/
theorem doorbell_served : doorbell o d mem =
    if 8 ≤ (d.ctx o.ctx).pages.length then
      ((d.modCtx o.ctx (fun c => { c with
          submitted := (c.submitted + 1) % 2 ^ 32, completed := (c.completed + 1) % 2 ^ 32, seq := (d.ctx o.ctx).seq + 1 })).signal o.ctx,
        writeDone mem (d.doorbellPage o) ((d.ctx o.ctx).seq + 1) d.now .busy [] true)
    else match o.page with
    | none => ((d.modCtx o.ctx (fun c => { c with discarded := (c.discarded + 1) % 2 ^ 32 })).raise 0x3D8 (le 1 o.ctx ++ le 8 (d.doorbellPage o)), mem)
    | some p => (d.modCtx o.ctx (fun c => { c with
        submitted := (c.submitted + 1) % 2 ^ 32, seq := (d.ctx o.ctx).seq + 1, pages := c.pages ++ [d.newPage o p c] }),
      memWrite (memWrite (memWrite mem (d.doorbellPage o + 16) (le 8 ((d.ctx o.ctx).seq + 1))) (d.doorbellPage o + 8) (le 1 Status.pending.code))
        (d.doorbellPage o + 3) [1]) := by
  have now : ¬ ((d.ctx o.ctx).enable = true ∧ d.host.serves = true ∧ (d.host.d3 = true ∨ d.host.pause = true)) := by rw [awake, runs]; simp
  have taken : ¬ (!(d.ctx o.ctx).enable || !d.host.serves) = true := by rw [enabled, serves]; decide
  exact (if_neg (Nat.not_le.2 known)).trans ((if_neg now).trans ((if_neg taken).trans rfl))

/-- With eight commands outstanding it is answered BUSY. -/
theorem doorbell_busy (full : 8 ≤ (d.ctx o.ctx).pages.length) : doorbell o d mem =
    ((d.modCtx o.ctx (fun c => { c with
        submitted := (c.submitted + 1) % 2 ^ 32, completed := (c.completed + 1) % 2 ^ 32, seq := (d.ctx o.ctx).seq + 1 })).signal o.ctx,
      writeDone mem (d.doorbellPage o) ((d.ctx o.ctx).seq + 1) d.now .busy [] true) :=
  (doorbell_served known mem awake runs enabled serves).trans (if_pos full)

/-- One whose page cannot be read is discarded and reported. -/
theorem doorbell_unreadable (room : (d.ctx o.ctx).pages.length < 8) (page : o.page = none) : doorbell o d mem =
    ((d.modCtx o.ctx (fun c => { c with discarded := (c.discarded + 1) % 2 ^ 32 })).raise 0x3D8 (le 1 o.ctx ++ le 8 (d.doorbellPage o)), mem) := by
  rw [doorbell_served known mem awake runs enabled serves, if_neg (Nat.not_le.2 room), page]

/-- One whose page is read puts it to its context. -/
theorem doorbell_takes {p : PageRead} (room : (d.ctx o.ctx).pages.length < 8) (page : o.page = some p) : doorbell o d mem =
    (d.modCtx o.ctx (fun c => { c with
        submitted := (c.submitted + 1) % 2 ^ 32, seq := (d.ctx o.ctx).seq + 1, pages := c.pages ++ [d.newPage o p c] }),
      memWrite (memWrite (memWrite mem (d.doorbellPage o + 16) (le 8 ((d.ctx o.ctx).seq + 1))) (d.doorbellPage o + 8) (le 1 Status.pending.code))
        (d.doorbellPage o + 3) [1]) := by
  rw [doorbell_served known mem awake runs enabled serves, if_neg (Nat.not_le.2 room), page]

end
end

/-! ### The checks of a page (R440) -/

section
variable {c : MbCtx} {p : PageRead}

/-- A page of another format answers VERSION. -/
theorem headerCheck_version (other : p.format ≠ 1) : headerCheck c p = some .version := if_pos other

/-- A group that the context does not allow is DENIED. -/
theorem headerCheck_denied (format : p.format = 1) (low : 1 ≤ p.opcode / 256) (high : p.opcode / 256 ≤ 14)
    (barred : bitOf c.allow (p.opcode / 256 - 1) = false) : headerCheck c p = some .denied :=
  (if_neg (not_not.2 format)).trans (if_pos ⟨low, high, by rw [barred]; rfl⟩)

section
variable (format : p.format = 1) (allowed : p.opcode / 256 < 1 ∨ 14 < p.opcode / 256 ∨ bitOf c.allow (p.opcode / 256 - 1) = true)
include format allowed

/-- An allowed group gets to the checks of the opcode. -/
theorem headerCheck_allowed : headerCheck c p =
    if !opcodeListed p.opcode then some .invalid
    else if p.reqLen < requestBytes p.opcode p.payload then some .invalid
    else if operationBad p.opcode p.payload then some .invalid
    else none := by
  have passes : ¬ (1 ≤ p.opcode / 256 ∧ p.opcode / 256 ≤ 14 ∧ (!bitOf c.allow (p.opcode / 256 - 1)) = true) := by
    rintro ⟨low, high, barred⟩
    obtain below | above | bit := allowed
    · exact Nat.not_lt.2 low below
    · exact Nat.not_lt.2 high above
    · rw [bit] at barred
      exact Bool.noConfusion barred
  exact (if_neg (not_not.2 format)).trans (if_neg passes)

/-- An opcode that is not listed, or a request too short for it, is INVALID. -/
theorem headerCheck_invalid (bad : opcodeListed p.opcode = false ∨ p.reqLen < requestBytes p.opcode p.payload) : headerCheck c p = some .invalid := by
  rw [headerCheck_allowed format allowed]
  obtain unlisted | short := bad
  · exact if_pos (by rw [unlisted]; rfl)
  · exact ite_eq_left_iff.2 (fun _ => if_pos short)

/-- A page that passes every check gets no status yet. -/
theorem headerCheck_passes (listed : opcodeListed p.opcode = true) (whole : requestBytes p.opcode p.payload ≤ p.reqLen)
    (operation : operationBad p.opcode p.payload = false) : headerCheck c p = none := by
  rw [headerCheck_allowed format allowed, listed, operation]
  exact (if_neg (by decide)).trans ((if_neg (Nat.not_lt.2 whole)).trans (if_neg (by decide)))

end
end

/-! ### The completion of a page (R439, R440) -/

/-- The device after the oldest page of a context has left it. -/
def Dev.pageClosed (d : Dev) (ctx : Nat) (rest : List MbPage) : Dev :=
  (d.modCtx ctx (fun c => { c with pages := rest, completed := (c.completed + 1) % 2 ^ 32 })).signal ctx

section
variable {d : Dev} {ctx : Nat} {p : MbPage} {rest : List MbPage} (awake : d.host.d3 = false) (alive : d.host.fatal = false) (runs : d.host.pause = false)
  (ready : d.host.ready = true) (oldest : (d.ctx ctx).pages = p :: rest) (mem : List Host.Cell)
include awake alive runs ready oldest

/-- A page that its header check answered completes with that status. -/
theorem mailboxComplete_early {st : Status} (early : p.early = some st) :
    mailboxComplete ctx d mem = (d.pageClosed ctx rest, writeDone mem p.addr p.seq d.now st [] false) := by
  unfold mailboxComplete
  rw [if_neg (by rw [awake, alive, runs, ready]; decide), oldest]
  dsimp only
  rw [early]
  rfl

/-- Another completes with the result of its command. -/
theorem mailboxComplete_result {r : MbResult} {others : List MbResult} (early : p.early = none)
    (result : takeResult ctx d.host.results = some (r, others)) :
    mailboxComplete ctx d mem = (({ d with host := { d.host with results := others } } : Dev).pageClosed ctx rest,
      writeDone mem p.addr p.seq d.now (r.status.getD .ok) r.resp false) := by
  unfold mailboxComplete
  rw [if_neg (by rw [awake, alive, runs, ready]; decide), oldest]
  dsimp only
  rw [early]
  dsimp only
  rw [result]
  rfl

end

/-! ### A transmit ring (R450) -/

/-- The device after a transmit ring has given a frame of `n` descriptors. -/
def Dev.txTaken (d : Dev) (k n : Nat) : Dev := (d.modPktRing k (fun r => { r with head := (r.head + n) % r.entries })).signal (8 + k)

/-- A frame of a ring that is served leaves it, and goes to the pipeline unless it is in error. -/
theorem hostTxFetch_takes {d : Dev} {o : TxFetch} {ds : List TxDesc} (ring : o.ring ≤ 3) (enabled : (d.pktRing o.ring).enable = true)
    (awake : d.host.d3 = false) (free : d.backPressure = false) (clocked : d.gated = false) (first : d.ringBefore o.ring o.ready = false)
    (frame : frameDescs (o.descs.take (d.pktRing o.ring).posted) = some ds) (mem : List Host.Cell) :
    hostTxFetch o d mem =
      (if txBad ds then ((d.txTaken o.ring ds.length).count 20 .hostTxErr o.ring).raiseFirst 0x3DA (le 1 o.ring ++ le 2 (d.pktRing o.ring).head)
        else ((d.txTaken o.ring ds.length).count 20 .hostTxFrames o.ring).pipeline
          (Pkt.make (ds.flatMap (fun x => fit x.len x.data)) 4 o.ring (0x4030 + o.ring) 80 o.lane o.now),
      returnDescs mem (d.pktRing o.ring) (txBad ds) (d.pktRing o.ring).head ds) := by
  have serves : ¬ (3 < o.ring ∨ (!(d.pktRing o.ring).enable) = true ∨ d.host.d3 = true ∨ d.backPressure = true ∨ d.gated = true ∨
      d.ringBefore o.ring o.ready = true) := by
    rw [enabled, awake, free, clocked, first]
    rintro (h | h | h | h | h | h)
    · exact Nat.not_lt.2 ring h
    all_goals exact Bool.noConfusion h
  unfold hostTxFetch
  dsimp only
  rw [if_neg serves, frame]
  dsimp only
  cases txBad ds <;> rfl

end Sys2Proof.Machine

open Sys2Proof Sys2Proof.Machine

/-- Settles O14: a doorbell, a page's checks, its completion, an event and a transmit descriptor, each in the cases of its meaning. -/
theorem doorbellAndCompletion : Obligations.DoorbellAndCompletion := by
  unfold Obligations.DoorbellAndCompletion
  refine ⟨fun s o p awake runs known enabled serves room page => ?takes, fun s o awake runs known => ⟨?busy, ?unreadable⟩, fun s o known => ⟨?waits, ?discards⟩,
    fun c p => ⟨headerCheck_version, headerCheck_denied, fun format allowed =>
      ⟨headerCheck_invalid format allowed, headerCheck_passes format allowed⟩⟩, ?result, ?early, ?written, ?dropped, ?transmit⟩
  case takes => exact exec_next_dma rfl (doorbell_takes known s.hostMem awake runs enabled serves room page)
  case busy => exact fun enabled serves full => exec_next_dma rfl (doorbell_busy known s.hostMem awake runs enabled serves full)
  case unreadable => exact fun enabled serves room page => exec_next_dma rfl (doorbell_unreadable known s.hostMem awake runs enabled serves room page)
  case waits => exact fun enabled serves still => exec_next_dma rfl (doorbell_waits known s.hostMem enabled serves still)
  case discards => exact fun off => exec_next_dma rfl (doorbell_discards known s.hostMem off)
  case result =>
    exact fun s ctx p rest r others awake alive runs ready oldest early result =>
      exec_next_dma rfl (mailboxComplete_result awake alive runs ready oldest s.hostMem early result)
  case early =>
    exact fun s ctx p rest st awake alive runs ready oldest early =>
      exec_next_dma rfl (mailboxComplete_early awake alive runs ready oldest s.hostMem early)
  case written =>
    rintro s now e rest _ _ _ served awake oldest rfl enabled room rfl rfl
    exact exec_next_dma rfl (eventRaise_writes served awake oldest enabled room now s.hostMem)
  case dropped =>
    exact fun s now e rest served awake oldest noRoom => exec_next_dma rfl (eventRaise_drops served awake oldest noRoom now s.hostMem)
  case transmit =>
    rintro s o ds _ _ ring rfl enabled awake free clocked first frame rfl
    exact exec_next_dma rfl (hostTxFetch_takes ring enabled awake free clocked first frame s.hostMem)
end

section
/-!
PROOFS. The commands of power, reset and the board profile (R503, R504, R506, R508).
-/
namespace Sys2Proof.Machine
open Sys2Proof

variable {d : Dev} {ref : CmdRef}

/-- With its confirm word and outside a pause, SYS_RESET SYSTEM sets the reset for 1 ms later. -/
theorem sysResetSystem_sets (runs : d.upd.pause = none) :
    sysResetSystem 0x6408 ref d = { d with dev := { d.dev with resetAt := some (d.now + 8) } } :=
  (if_neg (not_not.2 rfl)).trans (if_neg (by rw [runs]; exact Bool.false_ne_true))

/-- SYS_RESET MANAGEMENT restarts the management unit then. -/
theorem sysResetManagement_restarts (runs : d.upd.pause = none) : sysResetManagement 0x6408 ref d = d.mgmtRestart 2 (some ref) :=
  (if_neg (not_not.2 rfl)).trans (if_neg (by rw [runs]; exact Bool.false_ne_true))

/-- A valid section of the profile is loaded outside a pause and a verification. -/
theorem boardProfileLoad_loads {r : BoardProfileReq} {b : Bytes} (known : r.section_ ≤ 3) (length : r.length = sectionLength r.section_)
    (runs : d.upd.pause.isNone = true) (idle : d.upd.session.elim false (fun x => decide (x.state = .verifying)) = false) (data : r.data = some b)
    (valid : sectionOk r.section_ b = true) : boardProfileLoad r ref d =
    ((if r.persist then { d with flash := d.flash.set r.section_ b } else d).loadSection r.section_ b ref.ctx).complete ref .ok := by
  have inRange : ¬ (3 < r.section_ ∨ r.length ≠ sectionLength r.section_) := fun bad => bad.elim (Nat.not_lt.2 known) (fun other => other length)
  have free : ¬ (d.upd.pause.isSome = true ∨ d.upd.session.elim false (fun x => decide (x.state = .verifying)) = true) := by
    rw [idle, Option.isSome_eq_false_iff.2 runs]
    decide
  unfold boardProfileLoad
  rw [if_neg inRange, if_neg free, data]
  exact if_neg (by rw [valid]; decide)

/-- A power state of the table waits for the boundary. -/
theorem powerStateSet_waits {p : PowerState} (listed : p ∈ [PowerState.active, .trim, .quiet, .doze]) :
    powerStateSet p.code ref d = { d with dev := { d.dev with powerPend := d.dev.powerPend ++ [(ref, p)] } } := by
  have named : ([.active, .trim, .quiet, .doze] : List PowerState)[p.code]? = some p := by
    revert p
    decide
  unfold powerStateSet
  rw [named]

/-- A context is served outside a pause of the image only (R460). -/
theorem pause_isNone_of_served {op ctx : Nat} (served : d.served ctx op = true) : d.upd.pause.isNone = true := by
  simp only [Dev.served, Bool.and_eq_true] at served
  exact served.1.1.1.2

end Sys2Proof.Machine

open Sys2Proof Sys2Proof.Machine

/-- Settles O16: each command with a valid request. -/
theorem powerAndBudget : Obligations.PowerAndBudget := by
  unfold Obligations.PowerAndBudget
  refine ⟨fun s ctx served runs => ?reset, fun s ctx served runs => ?restart, ?profile, ?power, ?budget, ?status⟩
  case reset => exact exec_served (body := sysResetSystem 0x6408) rfl served (sysResetSystem_sets (d := s.dev.begun ctx) runs)
  case restart => exact exec_served (body := sysResetManagement 0x6408) rfl served (sysResetManagement_restarts (d := s.dev.begun ctx) runs)
  case profile =>
    intro s ctx r b served known length awake idle data valid
    have runs : s.dev.upd.pause.isNone = true := pause_isNone_of_served served
    exact exec_served_dma (body := boardProfileLoad r) rfl served awake
      (boardProfileLoad_loads (d := s.dev.begun ctx) known length runs idle data valid)
  case power =>
    exact fun s ctx p served listed => exec_served (body := powerStateSet p.code) rfl served (powerStateSet_waits (d := s.dev.begun ctx) listed)
  case budget =>
    exact fun s ctx r served budgetMin budgetMax limitMin limitMax count prios => exec_served (body := sluiceBudget r) rfl served
      (sluiceBudget_waits (d := s.dev.begun ctx) ⟨budgetMin, budgetMax, limitMin, limitMax, count, prios⟩ _)
  case status => exact fun s ctx served => exec_served (body := fun ref d => d.complete ref .ok (sluiceStatusResp d)) rfl served rfl
end

section
/-!
PROOFS. The TAP and the debug module (R500 to R502).
-/
namespace Sys2Proof.Machine
open Sys2Proof

variable {d : Dev}

/-- With debug open EXTEST drives the preload in QUIET. -/
theorem tapExtest_drives (opened : d.debugOn = true) (quiet : d.dev.power = .quiet) :
    tapExtest d = { d.tck with dbg := { d.dbg with scanDriven := some d.dbg.scanPreload } } := if_pos ⟨opened, quiet⟩

/-- Elsewhere it is BYPASS. -/
theorem tapExtest_bypass (off : d.debugOn = false ∨ d.dev.power ≠ .quiet) : tapExtest d = d.tck :=
  if_neg (fun on => off.elim (fun closed => Bool.false_ne_true (closed.symm.trans on.1)) (fun other => other on.2))

/-- A command of the debug module on a halted core. -/
theorem halted_command {n : Nat} (opened : d.debugOn = true) (core : n ≤ 3) (halted : (d.core n).halted = true) :
    d.tck.debugOn = true ∧ n ≤ 3 ∧ (d.tck.core n).halted = true := ⟨opened, core, halted⟩

/-- A running core is halted. -/
theorem haltCore_running {n : Nat} (core : n ≤ 3) (running : d.coreHalted n = false) :
    d.haltCore n = (d.modCore n (fun c => { c with halted := true })).haltEvent n true :=
  if_neg (fun bad => bad.elim (Nat.not_lt.2 core) (fun halted => Bool.false_ne_true (running.symm.trans halted)))

section
variable {r : BreakHit} (opened : d.debugOn = true) (core : r.core ≤ 3)
include opened core

/-- A breakpoint is set, and halts its core at an execution of its address. -/
theorem breakpointHit_breaks (unit : r.unit_ ≤ 7) (fetch : r.access = 0) (at_ : r.addr = r.first) : breakpointHit r d =
    (d.modCore r.core (fun c => { c with breakpoints := lset c.breakpoints r.unit_ (some r.first) })).haltCore r.core := by
  have known : ¬ ((!d.debugOn) = true ∨ 3 < r.core ∨ 11 < r.unit_) := by rw [opened]; simp only [Bool.not_true, Bool.false_eq_true, false_or]; omega
  have below : r.unit_ < 8 := by omega
  have hit : (r.access == 0 && r.addr == r.first) = true := by rw [fetch, at_]; simp
  unfold breakpointHit
  rw [if_neg known]
  simp only [if_pos below]
  exact if_pos hit

/-- A watchpoint is set, and halts its core at an access of its kind in its range. -/
theorem breakpointHit_watches (unitMin : 8 ≤ r.unit_) (unitMax : r.unit_ ≤ 11) (low : r.first ≤ r.addr) (high : r.addr ≤ r.last)
    (kind : (r.access = 1 ∧ r.onRead = true) ∨ (r.access = 2 ∧ r.onWrite = true)) : breakpointHit r d =
    (d.modCore r.core (fun c => { c with
      watchpoints := lset c.watchpoints (r.unit_ - 8) (some (r.first, r.last, r.onRead, r.onWrite)) })).haltCore r.core := by
  have known : ¬ ((!d.debugOn) = true ∨ 3 < r.core ∨ 11 < r.unit_) := by rw [opened]; simp only [Bool.not_true, Bool.false_eq_true, false_or]; omega
  have hit : (decide (r.first ≤ r.addr) && decide (r.addr ≤ r.last) && ((r.access == 1 && r.onRead) || (r.access == 2 && r.onWrite))) = true := by
    simp only [low, high, decide_true, Bool.and_true, Bool.true_and, Bool.or_eq_true, Bool.and_eq_true, beq_iff_eq]
    exact kind
  unfold breakpointHit
  rw [if_neg known]
  simp only [if_neg (Nat.not_lt.2 unitMin)]
  exact if_pos hit

end

/-! ### Memory of the system (R501) -/

/-- The answer to a read of management memory: the byte that was written, or else a free value. -/
def Dev.answeredMgmt (d : Dev) : Option Byte → Dev
  | some b => d.answered b.toNat false
  | none => d.draw.2.answered (d.draw.1 % 256) false

section
variable {r : MemAccess} (opened : d.debugOn = true) (mem : List Host.Cell)
include opened

/-- With debug open an access is served. -/
theorem systemMemory_serves : ¬ (!d.tck.debugOn) = true := by show ¬ (!d.debugOn) = true; rw [opened]; decide

section
variable (space : r.space = 0) (inside : r.addr < Config.mgmtBytes)
include space inside

omit opened in
/-- An address within management memory is in its space. -/
theorem mgmtSpace : (if r.space = 0 ∧ Config.mgmtBytes ≤ r.addr then 3 else r.space) = 0 :=
  (if_neg (fun beyond => Nat.not_le.2 inside beyond.2)).trans space

/-- A write to management memory. -/
theorem systemMemory_write (write : r.write = true) : systemMemory r d mem =
    ({ d.tck with dbg := { d.tck.dbg with mgmtMem := memPut d.dbg.mgmtMem r.addr (BitVec.ofNat 8 r.value), lastError := false } }, mem) := by
  unfold systemMemory
  dsimp only
  rw [if_neg (systemMemory_serves opened), mgmtSpace space inside, write]
  rfl

/-- A read of management memory answers what was written. -/
theorem systemMemory_read (read : r.write = false) :
    systemMemory r d mem = (d.tck.answeredMgmt (memRead d.dbg.mgmtMem r.addr), mem) := by
  unfold systemMemory
  dsimp only
  rw [if_neg (systemMemory_serves opened), mgmtSpace space inside, read]
  show (match memRead d.dbg.mgmtMem r.addr with
    | some b => (d.tck.answered b.toNat false, mem)
    | none => (d.tck.draw.2.answered (d.tck.draw.1 % 256) false, mem)) = _
  cases memRead d.dbg.mgmtMem r.addr <;> rfl

end

/-- A read of BAR0. -/
theorem systemMemory_readBar0 (space : r.space = 1) (read : r.write = false) :
    systemMemory r d mem = ((readBar0 r.addr d.tck).answered (readBar0 r.addr d.tck).host.readData false, mem) := by
  have bar : (if r.space = 0 ∧ Config.mgmtBytes ≤ r.addr then 3 else r.space) = 1 := by simp [space]
  unfold systemMemory
  dsimp only
  rw [if_neg (systemMemory_serves opened), bar, read]
  rfl

/-- An access to any other space answers an error. -/
theorem systemMemory_error (other : 3 ≤ r.space ∨ (r.space = 0 ∧ Config.mgmtBytes ≤ r.addr)) :
    systemMemory r d mem = (d.tck.answered 0 true, mem) := by
  have refused : ∃ n, (if r.space = 0 ∧ Config.mgmtBytes ≤ r.addr then 3 else r.space) = n + 3 := by
    obtain ⟨n, far⟩ | beyond := other.imp_left Nat.exists_eq_add_of_le'
    · exact ⟨n, by rw [if_neg (fun h => absurd h.1 (by omega)), far]⟩
    · exact ⟨0, if_pos beyond⟩
  obtain ⟨n, none⟩ := refused
  unfold systemMemory
  dsimp only
  rw [if_neg (systemMemory_serves opened), none]
  cases r.write <;> rfl

end

end Sys2Proof.Machine

open Sys2Proof Sys2Proof.Machine

/-- Settles O43: each operation of the TAP and of the debug module, in the cases of its meaning. -/
theorem debugPort : Obligations.DebugPort := by
  unfold Obligations.DebugPort
  refine ⟨fun s => ⟨_, rfl, rfl⟩, fun s window pubkey sig secured => ?signed, fun s opened quiet => exec_next rfl (tapExtest_drives opened quiet),
    fun s off => ⟨exec_next rfl (tapExtest_bypass off), rfl⟩, fun s pins pre opened => exec_next rfl (if_pos opened), fun s n opened core running => ?halt,
    fun s n opened core halted => exec_next rfl (if_pos (halted_command opened core halted)),
    fun s n opened core halted => exec_next rfl (if_pos (halted_command opened core halted)),
    fun s r opened core unit fetch at_ => exec_next rfl (breakpointHit_breaks opened core unit fetch at_),
    fun s r opened core unitMin unitMax low high kind => exec_next rfl (breakpointHit_watches opened core unitMin unitMax low high kind),
    ?write, ?read, ?free, ?bar, ?error⟩
  case signed => exact exec_next rfl (if_neg (not_not.2 secured))
  case halt => exact exec_next rfl ((if_pos opened).trans (haltCore_running (d := s.dev.tck) core running))
  case write => exact fun s r opened space inside write => exec_next_dma rfl (systemMemory_write opened s.hostMem space inside write)
  case read =>
    intro s r b opened space inside read written
    rw [exec_next_dma rfl (systemMemory_read opened s.hostMem space inside read), written]
    rfl
  case free =>
    intro s r opened space inside read unwritten
    rw [exec_next_dma rfl (systemMemory_read opened s.hostMem space inside read), unwritten]
    rfl
  case bar => exact fun s r opened space read => exec_next_dma rfl (systemMemory_readBar0 opened s.hostMem space read)
  case error => exact fun s r opened other => exec_next_dma rfl (systemMemory_error opened s.hostMem other)
end

section
/-!
PROOFS. What a boot makes of the device (R498, R499): the device at reset, with what the flash, the fuses and the VBAT domain keep.
-/
namespace Sys2Proof.Machine
open Sys2Proof

variable {d : Dev}

/-- Writing the running slot's settings changes the update unit alone. -/
theorem persisted_upd (d : Dev) : ∃ u, (if d.dev.power = .offVbat then d else d.persist) = { d with upd := u } := by
  unfold Dev.persist
  by_cases off : d.dev.power = .offVbat
  · exact ⟨d.upd, if_pos off⟩
  · rw [if_neg off]
    by_cases paused : d.upd.pause.elim false (fun p => p.begun) = true
    · exact ⟨d.upd, if_pos paused⟩
    · exact ⟨_, if_neg paused⟩

/-- The device at reset, with what survives, but for the update unit. -/
def Dev.bootBase (d : Dev) (a c : Nat) : Dev :=
  { Dev.reset with
    dev := { Dev.reset.dev with variant := d.dev.variant, devAddr := a, strap := a, unitId := d.dev.unitId, eui64 := d.dev.eui64, stepping := d.dev.stepping,
                                resetCause := c, subsys := d.flash.system.map (fun b => (leAt b 20 2, leAt b 22 2)) },
    profile := d.flash, flash := d.flash,
    sec := { Dev.reset.sec with lifecycle := d.sec.lifecycle, authHash := d.sec.authHash, flashAlarmed := d.sec.flashAlarmed, vbat := d.sec.vbat,
                                actions := d.sec.actions, failLimit := d.sec.failLimit, debug := debugAtReset d.sec.lifecycle },
    recd := { Dev.reset.recd with dir := d.recd.dir, store := d.recd.store, storeSlots := d.recd.storeSlots, storeNext := d.recd.storeNext,
                                  nextId := d.recd.nextId, full := d.recd.full },
    prot := { Dev.reset.prot with active := d.prot.active, twinEpochs := d.prot.twinEpochs },
    freeCtr := d.freeCtr }

/-- Running a slot names it and its version. -/
theorem runSlot_dev (e : Dev) (slot : Nat) : ∃ fwVersion, e.runSlot slot = { e with dev := { e.dev with slot, fwVersion } } := ⟨e.slotVersion slot, rfl⟩

/-- Falling back to the other slot changes the update unit alone. -/
theorem fallback_upd (e : Dev) (back : Bool) (v : Update) : ∃ u, (if back then ({ e with upd := v } : Dev) else e) = { e with upd := u } := by
  cases back
  · exact ⟨e.upd, rfl⟩
  · exact ⟨v, rfl⟩

/-- A boot gives the device at reset with what survives, and changes the update unit, the uplinks, the references, and the slot that runs: it chooses
the slot, runs it, and brings the profile into force. -/
theorem booted_changes (d : Dev) (a c : Nat) : ∃ (u : Update) (l : Uplinks) (r : RefClk) (slot fwVersion : Nat),
    d.booted a c = { d.bootBase a c with upd := u, upl := l, ref := r, dev := { (d.bootBase a c).dev with slot, fwVersion } } := by
  obtain ⟨v, kept⟩ := persisted_upd d
  unfold Dev.booted
  rw [kept]
  extract_lets _ _ found other
  generalize found.session.elim _ _ = readBack
  obtain ⟨session, img⟩ := readBack
  dsimp -zeta only
  extract_lets _ started back _ chosen run applied
  obtain ⟨u, chooses⟩ : ∃ u, chosen = { started with upd := u } := fallback_upd started back _
  obtain ⟨fwVersion, runs⟩ : ∃ fwVersion, run = { chosen with dev := { chosen.dev with slot := chosen.upd.bootSlot, fwVersion } } := runSlot_dev chosen _
  obtain ⟨l, applies⟩ : ∃ l, applied = { run with upl := l } := applyEntry_foldl (List.range 9) run
  clear_value applied
  subst applies
  clear_value run
  subst runs
  clear_value chosen
  subst chooses
  exact ⟨_, _, _, _, _, rfl⟩

end Sys2Proof.Machine
end

section
/-!
PROOFS. Resets, the loss of the rails and the end of a restart (R380, R435, R462, R491, R498, R499, R502).
-/
namespace Sys2Proof.Machine
open Sys2Proof

variable {d : Dev}

/-! ### Resets and rails -/

section
variable (powered : d.dev.power ≠ .offVbat)
include powered

/-- SRST_N resets the system. -/
theorem systemReset_pin : systemReset 2 d = d.systemReset 2 := (if_neg powered).trans (if_pos rfl)

/-- So does a SYS_RESET whose time has passed. -/
theorem systemReset_command {r : Nat} (commanded : d.dev.resetAt = some r) (passed : r ≤ d.now) : systemReset 3 d = d.systemReset 3 :=
  (if_neg powered).trans ((if_neg (by decide)).trans (if_pos ⟨rfl, by rw [commanded]; exact decide_eq_true passed⟩))

/-- A missed watchdog of a core that runs restarts the management unit. -/
theorem managementRestart_restarts {c : Nat} (core : c ≤ 3) (running : d.coreHalted c = false) : managementRestart c d = d.mgmtRestart 1 none := by
  refine if_neg ?_
  rintro (off | beyond | halted)
  · exact powered off
  · exact Nat.not_lt.2 core beyond
  · exact Bool.false_ne_true (running.symm.trans halted)

/-- A fatal error of Adesa stops it. -/
theorem adesaFatal_stops (alive : d.host.fatal = false) : adesaFatal d =
    (let e : Dev := { d with host := { d.host with fatal := true } }
     if d.upd.trial.isSome then e.rollback 6 none else e) :=
  if_neg (fun bad => bad.elim powered (fun fatal => Bool.false_ne_true (alive.symm.trans fatal)))

end

/-- A fall of VBAT while main power is off loses the owner key, where there is one. -/
theorem vbatFall_off (off : d.dev.power = .offVbat) : vbatFall d = if d.sec.vbat.ownerKey.isSome then
    { d with sec := { d.sec with vbat := { d.sec.vbat with ownerKey := none, keyLost := true } } } else d := if_congr (and_iff_right off) rfl rfl

/-! ### A management restart -/

/-- The restarts of the last 60 s, with this one. -/
def Dev.recentRestarts (d : Dev) : List Nat := (d.now :: d.dev.restarts).filter (fun t => decide (d.now < t + 60 * Config.ticksPerSecond))

/-- A restart closes debug that was open by a challenge. -/
def Dev.challengeClosed (d : Dev) : Dev := match d.sec.debug with | .challengeOpen _ => d.setDebug .closed | _ => d

/-- The device of a restart, before it takes its course. -/
def Dev.restartReported (d e : Dev) (cause : Nat) : Dev := ({ e with dev := { e.dev with restarts := d.recentRestarts } } : Dev).raise 0x3A6 [] cause

/-- Such debug is closed, and any other stays. -/
theorem challengeClosed_eq {e : Dev} (closed : ((∃ u, d.sec.debug = .challengeOpen u) ∧ e = d.setDebug .closed) ∨
    ((∀ u, d.sec.debug ≠ .challengeOpen u) ∧ e = d)) : d.challengeClosed = e := by
  unfold Dev.challengeClosed
  obtain ⟨⟨u, challenge⟩, rfl⟩ | ⟨other, rfl⟩ := closed
  · rw [challenge]
  · cases state : e.sec.debug with
    | challengeOpen u => exact absurd state (other u)
    | closed | opened => rfl

/-- A management restart closes such debug and is reported, and then takes its course. -/
theorem mgmtRestart_courses (d : Dev) (cause : Nat) (ref : Option CmdRef) : d.mgmtRestart cause ref =
    (let e := d.restartReported d.challengeClosed cause
     if 3 ≤ d.recentRestarts.length then e.systemReset 4
     else if e.upd.trial.isSome then e.rollback 6 ref
     else { e with host := { e.host with ready := false, evtReady := false, fatal := false }, dev := { e.dev with mgmtRestartRef := ref } }) := by
  unfold Dev.mgmtRestart Dev.challengeClosed Dev.restartReported
  cases d.sec.debug <;> rfl

end Sys2Proof.Machine

open Sys2Proof Sys2Proof.Machine

/-- Settles O17: each reset, the state that a boot leaves, and the courses of a restart. -/
theorem resetsAndRails : Obligations.ResetsAndRails := by
  unfold Obligations.ResetsAndRails
  refine ⟨?power, ?boot, fun s powered => ⟨exec_next rfl (systemReset_pin powered), fun r commanded passed => exec_next rfl (systemReset_command powered commanded passed)⟩,
    ?reset, ?rails, fun s c powered core running => exec_next rfl (managementRestart_restarts powered core running), ?restart, ?settings, ?fatal,
    fun s off => exec_next rfl (vbatFall_off off)⟩
  case power =>
    rintro s p _ _ _ rfl rfl rfl
    rfl
  case boot =>
    intro d a c
    obtain ⟨u, l, r, slot, fwVersion, changes⟩ := booted_changes d a c
    rw [changes]
    exact ⟨rfl, rfl, rfl, rfl, rfl, rfl, rfl, rfl, rfl, rfl, rfl, rfl, rfl, rfl, rfl, rfl⟩
  case reset =>
    rintro d c _ _ _ rfl rfl rfl
    rfl
  case rails =>
    rintro s _ powered rfl
    exact exec_next rfl (if_neg powered)
  case restart =>
    rintro d d2 _ cause ref _ rfl closed rfl
    rw [mgmtRestart_courses, challengeClosed_eq closed]
    refine ⟨fun third => if_pos third, fun early trial => ?_, fun early running => ?_⟩
    · exact (if_neg (Nat.not_le.2 early)).trans (if_pos trial)
    · exact (if_neg (Nat.not_le.2 early)).trans (if_neg (Bool.eq_false_iff.1 running))
  case settings =>
    rintro s _ _ _ _ ready due rfl rfl rfl rfl
    refine exec_next rfl (if_neg ?_)
    rw [ready, due]
    decide
  case fatal =>
    rintro s _ powered alive rfl
    exact exec_next rfl (adesaFatal_stops powered alive)
end

section
/-!
PROOFS. The commands of keys and security associations (R368, R372, R383, R384, R385).
-/
namespace Sys2Proof.Machine
open Sys2Proof

variable {d : Dev} {ref : CmdRef}

/-! ### SA_INSTALL (R383) -/

/-- The key that a request brings: in clear under TEST, and otherwise what the owner key opens. -/
def Dev.broughtKey (d : Dev) (r : SaInstallReq) : Option Bytes :=
  if r.test then some r.cipher else d.sec.vbat.ownerKey.bind (fun o => gcmOpen o.toNat r.iv (saHead r) r.cipher r.tag)

/-- An install that is allowed stores its key, which the pipeline of the cipher has unwrapped. -/
theorem saInstall_stores {r : SaInstallReq} {k : Bytes} (fields : d.installOk r = true) (calm : d.sec.lifecycle ≠ .alarmed)
    (kept : d.sec.lifecycle ≠ .decommissioned) (test : r.test = true → d.sec.lifecycle = .manufacture) (key : d.broughtKey r = some k) :
    saInstall r ref d = ((if r.test then d else d.cipherUse 2 8 80 (d.clk 0) true).installKey r (BitVec.ofNat 256 (ofBE k))).complete ref .ok := by
  have inRange : ¬ (!d.installOk r) = true := by rw [fields]; decide
  have allowed : ¬ (r.test = true ∧ d.sec.lifecycle ≠ .manufacture) := fun bad => bad.2 (test bad.1)
  have live : ¬ (d.sec.lifecycle = .alarmed ∨ d.sec.lifecycle = .decommissioned) := fun bad => bad.elim calm kept
  unfold saInstall
  rw [if_neg inRange, if_neg allowed, if_neg live]
  unfold Dev.broughtKey at key
  dsimp only
  rw [key]

section
variable {r : SaInstallReq} {key : BitVec 256}

/-- A terminal key is stored with its terminal. -/
theorem installKey_terminal (kind : r.kind = 0) : d.installKey r key = d.modKeys (globalIndex r.unit_ r.index) (fun k => { k with tk := some key }) := by
  unfold Dev.installKey
  rw [kind]
  rfl

/-- The security association of a request. -/
def Dev.broughtSa (d : Dev) (r : SaInstallReq) (key : BitVec 256) : MacsecSa :=
  { key, tx := r.tx, sub := r.sub, sci := r.sci, ssci := r.ssci, an := r.an, confOffset := r.confOffset, replay := r.replay,
    salt := r.salt, nextPn := r.nextPn, low := r.nextPn, stopped := false, installed := d.now }

/-- The device with it: a transmit SA becomes the one in force where its port has none. -/
def Dev.saStored (d : Dev) (r : SaInstallReq) (key : BitVec 256) : Dev :=
  let p := r.unit_ * 4 + r.sub
  { d with sec := { d.sec with
    macsec := tset d.sec.macsec (r.unit_ * 64 + r.index) (d.broughtSa r key),
    txActive := if r.tx ∧ (tget d.sec.txActive p).isNone then tset d.sec.txActive p r.index else d.sec.txActive,
    macsecPorts := if d.sec.macsecPorts.contains p then d.sec.macsecPorts else d.sec.macsecPorts ++ [p] } }

/-- A MACsec key is stored as a security association; one whose next PN is past the mark is reported (R368). -/
theorem installKey_macsec (kind : r.kind = 1) : d.installKey r key =
    if r.tx ∧ pnMark ≤ r.nextPn then (d.saStored r key).raise 0x2CA (le 1 (r.unit_ * 4 + r.sub) ++ le 1 r.index) else d.saStored r key := by
  unfold Dev.installKey
  rw [kind]
  rfl

/-- The device whose objects in flight are voided. -/
def Dev.objectsVoided (d : Dev) : Dev := (d.tow.bulk.filter (fun b => !b.void && !b.complete)).foldl (fun d b => d.voidObject b 3) d

/-- A fabric key takes the place of the one before it, with no object in flight. -/
theorem installKey_fabric (kind : r.kind = 2) : d.installKey r key = { d.objectsVoided with
    sec := { d.objectsVoided.sec with fabricKey := some key, fabricSalt := r.salt / 2 ^ 64, object := 0 }, tow := { d.objectsVoided.tow with bulk := [] } } := by
  unfold Dev.installKey
  rw [kind]
  rfl

end

/-! ### SA_REKEY (R384) -/

/-- A rekey of a keyed terminal begins at the boundary. -/
theorem rekeyTerminal_waits {t id : Nat} (calm : d.sec.lifecycle ≠ .alarmed) (up : d.treeUp t = true) (keyed : d.keyed t id = true)
    (free : d.rekeying t id = false) : rekeyTerminal t id ref d = { d with sec := { d.sec with rekeyPend := d.sec.rekeyPend ++ [(some ref, t, id)] } } :=
  (if_neg calm).trans ((if_neg (by rw [up, keyed]; decide)).trans (if_neg (Bool.eq_false_iff.1 free)))

/-- The request of a mass rekey. -/
def Dev.massRequest (d : Dev) (ref : CmdRef) : SluiceReq :=
  { op := .massRekey d.sec.nextJob, index := ref.ctx, since := d.now, ref := some ref, reported := false }

/-- A mass rekey of a present tree, or of the device, is put to Sluice. -/
theorem massRekey_requests {scope unit_ : Nat} (calm : d.sec.lifecycle ≠ .alarmed) (up : scope = 1 → d.treeUp unit_ = true)
    (free : (d.inScope scope unit_).any (fun p => d.rekeying p.1 p.2) = false) (room : d.sluice.fifo.length < 1024)
    (fits : d.sluice.base + d.sluice.reserve + (HeavyOp.massRekey d.sec.nextJob).cost ≤ d.sluice.budget) : massRekey scope unit_ ref d =
    { d with
      sluice := { d.sluice with fifo := d.sluice.fifo ++ [d.massRequest ref] },
      sec := { d.sec with nextJob := d.sec.nextJob + 1, mass := d.sec.mass ++ [{ job := d.sec.nextJob, scope, unit_, ref, x := none }] } } := by
  have present : ¬ (scope = 1 ∧ (!d.treeUp unit_) = true) := by
    rintro ⟨tree, missing⟩
    rw [up tree] at missing
    exact Bool.noConfusion missing
  unfold massRekey
  rw [if_neg calm, if_neg present, if_neg (Bool.eq_false_iff.1 free)]
  dsimp only
  rw [request_waits d _ ref.ctx (some ref) room fits]
  exact if_pos rfl

section
variable {u a : Nat} (calm : d.sec.lifecycle ≠ .alarmed) {x : MacsecSa} (sa : tget d.sec.macsec (u * 64 + a) = some x) (index : a ≤ 63) (uplink : u < d.uplinkCount)
include calm sa index uplink

/-- A switch to a transmit SA waits for the boundary. -/
theorem txSwitch_waits (transmit : x.tx = true) : txSwitch u a ref d = { d with sec := { d.sec with txPend := d.sec.txPend ++ [(ref, u, a)] } } := by
  have usable : ¬ ((tget d.sec.macsec (u * 64 + a)).elim true (fun x => !x.tx) = true ∨ 63 < a ∨ d.uplinkCount ≤ u) := by
    rw [sa]
    rintro (receive | beyond | missing)
    · exact Bool.false_ne_true ((congrArg (!·) transmit).symm.trans receive)
    · exact Nat.not_lt.2 index beyond
    · exact Nat.not_le.2 uplink missing
  exact (if_neg calm).trans (if_neg usable)

/-- The device without an SA; the last SA of a port takes the port with it. -/
def Dev.saDropped (d : Dev) (u a : Nat) (x : MacsecSa) : Dev :=
  { d with sec := { d.sec with
    macsec := tdel d.sec.macsec (u * 64 + a),
    txActive := if tget d.sec.txActive (u * 4 + x.sub) = some a then tdel d.sec.txActive (u * 4 + x.sub) else d.sec.txActive,
    macsecPorts := if (tdel d.sec.macsec (u * 64 + a)).any (fun e => e.1 / 64 == u && e.2.sub == x.sub) then d.sec.macsecPorts
      else d.sec.macsecPorts.filter (· != u * 4 + x.sub) } }

/-- An SA is deleted and reported at once. -/
theorem saDelete_drops : saDelete u a ref d =
    ((d.saDropped u a x).raise 0x2C6 (le 1 4 ++ le 6 d.now)).complete ref .ok (fromResp d.now ++ fromResp d.now) := by
  have found : (if 63 < a ∨ d.uplinkCount ≤ u then none else tget d.sec.macsec (u * 64 + a)) = some x :=
    (if_neg (fun bad => bad.elim (Nat.not_lt.2 index) (Nat.not_le.2 uplink))).trans sa
  unfold saDelete
  rw [if_neg calm, found]
  rfl

end

/-! ### SA_STATUS (R385) -/

/-- A unit or an index that there is not is INVALID. -/
theorem saStatus_invalid {k u i : Nat} (none : (k = 0 ∧ (d.treePresent u = false ∨ 255 < i)) ∨ (k = 1 ∧ (d.uplinkCount ≤ u ∨ 63 < i)) ∨ 2 ≤ k) :
    saStatus k u i ref d = d.complete ref .invalid := by
  obtain ⟨rfl, bad⟩ | ⟨rfl, bad⟩ | other := none
  · exact if_pos (bad.imp_left (fun missing => by rw [missing]; rfl))
  · exact if_pos bad
  · obtain ⟨n, rfl⟩ := Nat.exists_eq_add_of_le' other
    rfl

/-- The status of an SA of an uplink. -/
theorem saStatus_macsec {u i : Nat} (uplink : u < d.uplinkCount) (index : i ≤ 63) : saStatus 1 u i ref d =
    (let x := tget d.sec.macsec (u * 64 + i)
     d.complete ref .ok (le 1 (x.elim 0 (fun y => if y.stopped then 3 else if y.tx then 2 else 1)) ++ le 1 (x.elim 0 (·.an)) ++ zeros 6 ++
      le 8 (x.elim 0 (fun y => if y.tx then y.nextPn else y.low)) ++ le 4 (d.counter 14 .macsecTag (u * 64 + i)) ++
      le 4 (d.counter 14 .macsecReplay (u * 64 + i)) ++ fromResp (x.elim 0 (·.installed)))) := by
  unfold saStatus
  refine (if_neg (fun bad => bad.elim (Nat.not_le.2 uplink) (Nat.not_lt.2 index))).trans ?_
  dsimp only
  cases tget d.sec.macsec (u * 64 + i) <;> rfl

/-- The status of a terminal's keys. -/
theorem saStatus_terminal {t i : Nat} (present : d.treePresent t = true) (index : i ≤ 255) : saStatus 0 t i ref d =
    (let k := d.keys (globalIndex t i)
     d.complete ref .ok (le 1 (if k.stopped.isSome then 4 else if k.rekey.isSome then 3 else if k.firstX.isSome then 2 else if k.tk.isSome then 1 else 0) ++
      le 1 (b2n k.downPhase) ++ le 1 (b2n (d.kp t)) ++ zeros 5 ++ fromResp ((slotOf k.down k.downPhase).elim 0 (fun x => x.kc d.now)) ++
      le 4 (d.counter 3 .saTagFail (2 * globalIndex t i + 1)) ++ le 4 (d.counter 3 .saStopDrop (2 * globalIndex t i)) ++ fromResp k.lastRekey)) :=
  if_neg (fun bad => bad.elim (fun missing => by rw [present] at missing; exact Bool.noConfusion missing) (Nat.not_lt.2 index))

end Sys2Proof.Machine

open Sys2Proof Sys2Proof.Machine

/-- Settles O29: each command of keys and SAs with a valid request, and the status of what there is not. -/
theorem keyCommands : Obligations.KeyCommands := by
  unfold Obligations.KeyCommands
  refine ⟨?install, fun d r key => ⟨installKey_terminal, ?macsec, ?fabric⟩, ?terminal, ?tree, ?device, ?switch, ?delete, ?invalid, ?status, ?termStatus⟩
  case install =>
    intro s ctx r k served fields calm kept test wrapped
    have key : s.dev.broughtKey r = some k := by
      unfold Dev.broughtKey
      cases clear : r.test with
      | true => exact (if_pos rfl).trans (congrArg some (test clear).2.symm)
      | false => exact (if_neg Bool.false_ne_true).trans (wrapped clear)
    exact exec_served (body := saInstall r) rfl served
      (saInstall_stores (d := s.dev.begun ctx) fields calm kept (fun clear => (test clear).1) key)
  case macsec =>
    rintro kind _ _ _ rfl rfl rfl
    exact installKey_macsec kind
  case fabric =>
    rintro kind _ rfl
    exact installKey_fabric kind
  case terminal =>
    exact fun s ctx t id served calm up keyed free => exec_served (body := rekeyTerminal t id) rfl served
      (rekeyTerminal_waits (d := s.dev.begun ctx) calm up keyed free)
  case tree =>
    exact fun s ctx t served calm up free room fits => ⟨_, _, rfl, rfl, exec_served (body := massRekey 1 t) rfl served
      (massRekey_requests (d := s.dev.begun ctx) calm (fun _ => up) free room fits)⟩
  case device =>
    exact fun s ctx served calm free room fits => ⟨_, _, rfl, rfl, exec_served (body := massRekey 2 0) rfl served
      (massRekey_requests (d := s.dev.begun ctx) calm (fun tree => absurd tree (by decide)) free room fits)⟩
  case switch =>
    exact fun s ctx u a x served calm sa transmit index uplink => exec_served (body := txSwitch u a) rfl served
      (txSwitch_waits (d := s.dev.begun ctx) calm sa index uplink transmit)
  case delete =>
    exact fun s ctx u a x served calm sa index uplink => exec_served (body := saDelete u a) rfl served
      (saDelete_drops (d := s.dev.begun ctx) calm sa index uplink)
  case invalid =>
    exact fun s ctx k u i served none => exec_served (body := saStatus k u i) rfl served (saStatus_invalid (d := s.dev.begun ctx) none)
  case status =>
    rintro s ctx u i _ served uplink index rfl
    exact exec_served (body := saStatus 1 u i) rfl served (saStatus_macsec (d := s.dev.begun ctx) uplink index)
  case termStatus =>
    rintro s ctx t i _ served present index rfl
    exact exec_served (body := saStatus 0 t i) rfl served (saStatus_terminal (d := s.dev.begun ctx) present index)
end

section
/-!
PROOFS. Tamper policy, tamper and the lifecycle (R376 to R380, R386, R387), and the authorisation of debug (R381, R388, R389, R513).
-/
namespace Sys2Proof.Machine
open Sys2Proof

variable {d : Dev} {ref : CmdRef}

/-! ### TAMPER_POLICY_SET (R386) -/

/-- A policy is weaker than the one in force. -/
def Dev.weaker (d : Dev) (r : TamperSetReq) : Prop := r.action < (lget d.sec.actions r.source .log).code ∨ d.sec.failLimit < r.failLimit

/-- The device under a policy. -/
def Dev.policySet (d : Dev) (r : TamperSetReq) : Dev :=
  { d with sec := { d.sec with actions := lset d.sec.actions r.source (actionOf r.action), failLimit := r.failLimit } }

/-- The bytes of a policy that are signed. -/
def policyBytes (r : TamperSetReq) : Bytes := le 1 0 ++ le 1 r.source ++ le 1 r.action ++ le 1 r.failLimit ++ zeros 28

section
variable {r : TamperSetReq} (source : r.source ≤ 5) (action : r.action ≤ 2) (limitMin : 1 ≤ r.failLimit) (limitMax : r.failLimit ≤ 15)
  (calm : d.sec.lifecycle ≠ .alarmed)
include source action limitMin limitMax calm

/-- A policy in range outside ALARMED takes effect, unless it is a weaker one in SECURED, which needs its signature. -/
theorem tamperSet_inRange : tamperSet r ref d =
    if d.sec.lifecycle = .secured ∧ (decide (r.action < (lget d.sec.actions r.source .log).code) || decide (d.sec.failLimit < r.failLimit)) = true then
      match r.auth with
      | none => d.complete ref .denied
      | some a =>
        if (d.authOk 0x0704 (policyBytes r) a).1 then ((d.authOk 0x0704 (policyBytes r) a).2.policySet r).complete ref .ok
        else (d.authOk 0x0704 (policyBytes r) a).2.complete ref .denied
    else (d.policySet r).complete ref .ok := by
  have inRange : ¬ (5 < r.source ∨ 2 < r.action ∨ r.failLimit = 0 ∨ 15 < r.failLimit) := by omega
  exact (if_neg inRange).trans (if_neg calm)

/-- One that needs no signature takes effect. -/
theorem tamperSet_applies (free : d.sec.lifecycle ≠ .secured ∨ ((lget d.sec.actions r.source .log).code ≤ r.action ∧ r.failLimit ≤ d.sec.failLimit)) :
    tamperSet r ref d = (d.policySet r).complete ref .ok := by
  rw [tamperSet_inRange source action limitMin limitMax calm, if_neg]
  rintro ⟨secured, weaker⟩
  obtain other | ⟨actionKept, limitKept⟩ := free
  · exact other secured
  · rw [decide_eq_false (Nat.not_lt.2 actionKept), decide_eq_false (Nat.not_lt.2 limitKept)] at weaker
    exact Bool.noConfusion weaker

section
variable (secured : d.sec.lifecycle = .secured) (weaker : d.weaker r)
include secured weaker

omit source action limitMin limitMax calm in
/-- A weaker one in SECURED needs its signature. -/
theorem needsSignature :
    d.sec.lifecycle = .secured ∧ (decide (r.action < (lget d.sec.actions r.source .log).code) || decide (d.sec.failLimit < r.failLimit)) = true := by
  refine ⟨secured, ?_⟩
  rw [Bool.or_eq_true, decide_eq_true_iff, decide_eq_true_iff]
  exact weaker

/-- Without one it is DENIED. -/
theorem tamperSet_unsigned (unsigned : r.auth = none) : tamperSet r ref d = d.complete ref .denied := by
  rw [tamperSet_inRange source action limitMin limitMax calm, if_pos (needsSignature secured weaker), unsigned]

/-- With one it takes effect where the signature verifies. -/
theorem tamperSet_signed {a : AuthBlock} (signed : r.auth = some a) : tamperSet r ref d =
    (let c := d.authOk 0x0704 (policyBytes r) a
     if c.1 then (c.2.policySet r).complete ref .ok else c.2.complete ref .denied) := by
  rw [tamperSet_inRange source action limitMin limitMax calm, if_pos (needsSignature secured weaker), signed]

end
end

/-! ### LIFECYCLE_ADVANCE (R387) -/

section
variable {r : LifecycleReq}

/-- PROVISION in MANUFACTURE stores the owner key and the hash. -/
theorem lifecycleProvision_advances (state : d.sec.lifecycle = .manufacture) (clear : r.clear = true) : lifecycleProvision r ref d =
    (({ d with sec := { d.sec with authHash := some r.authHash } } : Dev).setOwner (BitVec.ofNat 256 (ofBE r.ownerKey))).advanced ref .provisioned := by
  refine if_neg ?_
  rw [state, clear]
  decide

/-- SECURE in PROVISIONED takes effect where its signature verifies. -/
theorem lifecycleSecure_signed (state : d.sec.lifecycle = .provisioned) : lifecycleSecure r ref d =
    (let a := d.authOk 0x0705 (lcHead r 1) r.auth
     if a.1 then (a.2.setDebug .closed).advanced ref .secured else a.2.complete ref .denied) := if_neg (not_not.2 state)

/-- CLEAR_ALARM in ALARMED takes effect where its signature verifies; it brings the owner key where that is gone. -/
theorem lifecycleClearAlarm_signed (state : d.sec.lifecycle = .alarmed) {e : Dev}
    (gone : d.sec.vbat.ownerKey = none → r.clear = true ∧ e = (d.authOk 0x0705 (lcHead r 2) r.auth).2.setOwner (BitVec.ofNat 256 (ofBE r.ownerKey)))
    (kept : d.sec.vbat.ownerKey ≠ none → e = (d.authOk 0x0705 (lcHead r 2) r.auth).2) : lifecycleClearAlarm r ref d =
    if (d.authOk 0x0705 (lcHead r 2) r.auth).1 then
      ({ e with sec := { e.sec with flashAlarmed := false, vbat := { e.sec.vbat with alarmed := false } } } : Dev).advanced ref .secured
    else (d.authOk 0x0705 (lcHead r 2) r.auth).2.complete ref .denied := by
  unfold lifecycleClearAlarm Dev.signedAdvance
  rw [if_neg (not_not.2 state)]
  cases key : d.sec.vbat.ownerKey with
  | none =>
    obtain ⟨clear, rfl⟩ := gone key
    rw [clear]
    rfl
  | some k =>
    obtain rfl := kept (by rw [key]; exact Option.some_ne_none k)
    rfl

/-- DECOMMISSION of a device in the field takes effect where its signature verifies. -/
theorem lifecycleDecommission_signed (state : d.sec.lifecycle = .provisioned ∨ d.sec.lifecycle = .secured ∨ d.sec.lifecycle = .alarmed) :
    lifecycleDecommission r ref d =
    (let a := d.authOk 0x0705 (lcHead r 3) r.auth
     if a.1 then a.2.zeroise.advanced ref .decommissioned else a.2.complete ref .denied) := by
  unfold lifecycleDecommission
  obtain h | h | h := state
  all_goals
    rw [h]
    rfl

/-- In MANUFACTURE it needs no signature. -/
theorem lifecycleDecommission_unsigned (state : d.sec.lifecycle = .manufacture) : lifecycleDecommission r ref d = d.zeroise.advanced ref .decommissioned := by
  unfold lifecycleDecommission
  rw [state]

/-- REKEY_OWNER stores the new owner key, where the signature verifies and there is one. -/
theorem lifecycleRekeyOwner_signed (state : d.sec.lifecycle = .provisioned ∨ d.sec.lifecycle = .secured) : lifecycleRekeyOwner r ref d =
    (let a := d.authOk 0x0705 (lcHead r 4) r.auth
     if a.1 then (a.2.newOwnerKey r).elim (a.2.complete ref .denied) (fun k => (a.2.setOwner k).complete ref .ok (le 1 a.2.sec.lifecycle.code))
     else a.2.complete ref .denied) := by
  have allowed : ¬ (d.sec.lifecycle ≠ .provisioned ∧ d.sec.lifecycle ≠ .secured) := fun bad => state.elim bad.1 bad.2
  refine (if_neg allowed).trans ?_
  unfold Dev.signedAdvance
  dsimp only
  cases (d.authOk 0x0705 (lcHead r 4) r.auth).2.newOwnerKey r <;> rfl

end

/-! ### Debug (R381, R388, R513) -/

/-- A signed opening in SECURED completes as its signature says. -/
theorem debugOpenSigned_signed {r : DebugOpenReq} (state : d.sec.lifecycle = .secured) (windowMin : 1 ≤ r.window) (windowMax : r.window ≤ 86400) :
    debugOpenSigned r ref d =
    (let c := d.signedOpen r.window r.auth
     if c.1 then c.2.complete ref .ok (le 1 (c.2.sec.debug).code) else c.2.complete ref .denied) := by
  have inRange : ¬ (r.window = 0 ∨ 86400 < r.window) := by omega
  exact (if_neg (not_not.2 state)).trans (if_neg inRange)

/-- The bytes of an opening that are signed. -/
def openBytes (w : Nat) : Bytes := le 1 1 ++ zeros 3 ++ le 4 w ++ zeros 24

/-- Where the signature verifies, debug opens for its window. -/
theorem signedOpen_verified {w : Nat} {a : AuthBlock} (verified : (d.authOk 0x0706 (openBytes w) a).1 = true) : d.signedOpen w a =
    (true, ({ (d.authOk 0x0706 (openBytes w) a).2 with sec := { (d.authOk 0x0706 (openBytes w) a).2.sec with fails := 0 } } : Dev).setDebug
      (.challengeOpen ((d.authOk 0x0706 (openBytes w) a).2.now + w * Config.ticksPerSecond))) := if_pos verified

/-- Where it does not, a failure counts, and at the limit is tamper. -/
theorem signedOpen_failed {w : Nat} {a : AuthBlock} (failed : (d.authOk 0x0706 (openBytes w) a).1 = false) : d.signedOpen w a =
    (let c := (d.authOk 0x0706 (openBytes w) a).2
     let e : Dev := { c with sec := { c.sec with fails := c.sec.fails + 1 } }
     (false, if c.sec.failLimit ≤ c.sec.fails + 1 then tamperDetect [5] 0 e else e)) := if_neg (Bool.eq_false_iff.1 failed)

/-- The window's end closes debug. -/
theorem debugExpiry_closes {u : Nat} (challenge : d.sec.debug = .challengeOpen u) (over_ : u ≤ d.now) : debugExpiry d = d.setDebug .closed := by
  unfold debugExpiry
  rw [challenge]
  exact if_pos over_

end Sys2Proof.Machine

open Sys2Proof Sys2Proof.Machine

/-- Settles O30: the policy with and without its signature, tamper with main power on and off, and each transition of the lifecycle. -/
theorem tamperAndLifecycle : Obligations.TamperAndLifecycle := by
  unfold Obligations.TamperAndLifecycle
  refine ⟨?policy, fun s ctx served => ?read, fun s ctx served => ?log, ?tamper, ?off, ?provision, fun s ctx r served state => ⟨_, rfl, ?secure⟩, ?clear,
    fun s ctx r served => ⟨?decommission, ?scrap⟩, ?owner⟩
  case policy =>
    rintro s ctx r _ served source action limitMin limitMax calm rfl
    refine ⟨fun free => ?applies, fun secured weaker => ⟨fun unsigned => ?unsigned, ?signed⟩⟩
    case applies => exact exec_served (body := tamperSet r) rfl served (tamperSet_applies (d := s.dev.begun ctx) source action limitMin limitMax calm free)
    case unsigned =>
      exact exec_served (body := tamperSet r) rfl served
        (tamperSet_unsigned (d := s.dev.begun ctx) source action limitMin limitMax calm secured weaker unsigned)
    case signed =>
      rintro a _ signed rfl
      exact exec_served (body := tamperSet r) rfl served
        (tamperSet_signed (d := s.dev.begun ctx) source action limitMin limitMax calm secured weaker signed)
  case read =>
    exact exec_served (body := fun ref d => d.complete ref .ok (d.sec.actions.flatMap (fun a => le 1 a.code) ++ le 1 d.sec.failLimit)) rfl served rfl
  case log => exact exec_served (body := fun ref d => d.complete ref .ok (tamperLog d.sec.vbat)) rfl served rfl
  case tamper =>
    rintro s sources n _ _ _ _ _ _ powered rfl rfl rfl rfl rfl rfl
    exact exec_next rfl (if_neg powered)
  case off =>
    rintro s sources n _ _ off rfl rfl
    exact exec_next rfl (if_pos off)
  case provision =>
    exact fun s ctx r served state clear => exec_served (body := lifecycleProvision r) rfl served
      (lifecycleProvision_advances (d := s.dev.begun ctx) state clear)
  case secure => exact exec_served (body := lifecycleSecure r) rfl served (lifecycleSecure_signed (d := s.dev.begun ctx) state)
  case clear =>
    rintro s ctx r _ d served state rfl gone kept
    exact exec_served (body := lifecycleClearAlarm r) rfl served (lifecycleClearAlarm_signed (d := s.dev.begun ctx) state gone kept)
  case decommission =>
    rintro _ state rfl
    exact exec_served (body := lifecycleDecommission r) rfl served (lifecycleDecommission_signed (d := s.dev.begun ctx) state)
  case scrap =>
    exact fun state => exec_served (body := lifecycleDecommission r) rfl served (lifecycleDecommission_unsigned (d := s.dev.begun ctx) state)
  case owner =>
    rintro s ctx r _ served state rfl
    exact exec_served (body := lifecycleRekeyOwner r) rfl served (lifecycleRekeyOwner_signed (d := s.dev.begun ctx) state)

/-- Settles O31: each command of debug, the two ends of a signed opening, and the end of its window. -/
theorem debugCommands : Obligations.DebugCommands := by
  unfold Obligations.DebugCommands
  refine ⟨fun s ctx served => ⟨_, rfl, exec_served (body := debugIssue) rfl served rfl⟩, ?signed, ?verdicts, fun s ctx served => ?close,
    fun s ctx served allowed => ?opened, fun s u challenge past => exec_next rfl (debugExpiry_closes challenge past),
    fun s ctx served => ⟨_, exec_served (body := debugStatus) rfl served rfl, rfl⟩⟩
  case signed =>
    rintro s ctx r _ served state windowMin windowMax rfl
    exact exec_served (body := debugOpenSigned r) rfl served (debugOpenSigned_signed (d := s.dev.begun ctx) state windowMin windowMax)
  case verdicts =>
    rintro d w a _ rfl
    refine ⟨fun verified => signedOpen_verified verified, ?_⟩
    rintro _ failed rfl
    exact signedOpen_failed failed
  case close => exact exec_served (body := fun ref d => (d.setDebug .closed).complete ref .ok (le 1 0)) rfl served rfl
  case opened =>
    exact exec_served (body := fun ref d => if debugAllowed d.sec.lifecycle .opened then (d.setDebug .opened).complete ref .ok (le 1 2)
      else d.complete ref .denied) rfl served (if_pos allowed)
end

section
/-!
PROOFS. The commands of Towpath (R407, R408).
-/
namespace Sys2Proof.Machine
open Sys2Proof

variable {d : Dev} {ref : CmdRef}

/-! ### TOWPATH_CONFIG LINK (R407) -/

/-- A request that changes the cost of its link. -/
def Dev.costSet (d : Dev) (r : TowLinkReq) : Dev :=
  if r.cost = 0 ∨ r.cost = (d.link r.link).cost then d else d.modLink r.link (fun l => { l with cost := r.cost })

/-- The first link that is enabled is noted. -/
def Dev.enableNoted (d : Dev) (r : TowLinkReq) : Dev :=
  if r.enable ∧ d.tow.enabledAt.isNone then { d with tow := { d.tow with enabledAt := some d.now } } else d

/-- What becomes of a link that was `old`, and whether the request was admitted. -/
def Dev.linkOutcome (d : Dev) (old : TowLink) (r : TowLinkReq) (index : Nat) : Dev × Bool :=
  if !r.enable then
    let d := { d with tow := { d.tow with quieted := d.tow.quieted.filter (· != r.link) } }
    if old.state = .disabled ∧ !old.wakeReq then (d, true)
    else
      let d := (d.withdrawOp (fun o => o = .wakeTowpath r.link)).endOp (fun o => o = .wakeTowpath r.link)
      let d := d.modLink r.link (fun l => { l with state := .disabled, wakeReq := false, attempt := 1 })
      (if old.up then d.linkDown r.link 0 else d, true)
  else if old.state = .disabled then (d.modLink r.link (fun l => { l with attempt := 1 })).wakeLink r.link index
  else if r.retrain then
    if old.state = .dormant then (d.modLink r.link (fun l => { l with attempt := 1 })).wakeLink r.link index
    else if old.up then (d.linkLost r.link 0, true)
    else (d.modLink r.link (fun l => l.restart (d.clk 0)), true)
  else (d, true)

/-- A request in range sets the cost, has its outcome, and sends an LSA where the cost of a link that is up changed. -/
theorem towpathLink_ends {r : TowLinkReq} (link : r.link ≤ 7) (cost : r.cost ≤ 255) (enabled : d.towEnabled r.link = true) {z : Dev} {b : Bool}
    (outcome : ((d.costSet r).enableNoted r).linkOutcome (d.link r.link) r ref.ctx = (z, b)) : towpathLink r ref d =
    (if r.cost ≠ 0 ∧ r.cost ≠ (d.link r.link).cost ∧ (d.link r.link).up then lsaFlood 0 z else z).complete ref (if b then .ok else .notAdmitted) := by
  have inRange : ¬ (7 < r.link ∨ 255 < r.cost ∨ (!d.towEnabled r.link) = true) := by
    rintro (beyond | dear | off)
    · exact Nat.not_lt.2 link beyond
    · exact Nat.not_lt.2 cost dear
    · rw [enabled] at off
      exact Bool.noConfusion off
  have runs : towpathLink r ref d =
      (let res := ((d.costSet r).enableNoted r).linkOutcome (d.link r.link) r ref.ctx
       (if r.cost ≠ 0 ∧ r.cost ≠ (d.link r.link).cost ∧ (d.link r.link).up then lsaFlood 0 res.1 else res.1).complete ref
        (if res.2 then .ok else .notAdmitted)) := if_neg inRange
  rw [runs, outcome]

section
variable {old : TowLink} {r : TowLinkReq} {index : Nat}

section
variable (on : r.enable = true)
include on

/-- A request that enables its link goes on from the link's state. -/
theorem linkOutcome_enabled : d.linkOutcome old r index =
    if old.state = .disabled then (d.modLink r.link (fun l => { l with attempt := 1 })).wakeLink r.link index
    else if r.retrain then
      if old.state = .dormant then (d.modLink r.link (fun l => { l with attempt := 1 })).wakeLink r.link index
      else if old.up then (d.linkLost r.link 0, true)
      else (d.modLink r.link (fun l => l.restart (d.clk 0)), true)
    else (d, true) := if_neg (by rw [on]; decide)

/-- A disabled link is woken. -/
theorem linkOutcome_wakes (state : old.state = .disabled) :
    d.linkOutcome old r index = (d.modLink r.link (fun l => { l with attempt := 1 })).wakeLink r.link index :=
  (linkOutcome_enabled on).trans (if_pos state)

/-- A link that is not disabled stays as it is without RETRAIN. -/
theorem linkOutcome_stays (state : old.state ≠ .disabled) (kept : r.retrain = false) : d.linkOutcome old r index = (d, true) :=
  (linkOutcome_enabled on).trans ((if_neg state).trans (if_neg (Bool.eq_false_iff.1 kept)))

section
variable (retrain : r.retrain = true)
include retrain

/-- With it a dormant link is woken. -/
theorem linkOutcome_dormant (state : old.state = .dormant) :
    d.linkOutcome old r index = (d.modLink r.link (fun l => { l with attempt := 1 })).wakeLink r.link index := by
  rw [linkOutcome_enabled on, if_neg (by rw [state]; decide), if_pos retrain, if_pos state]

/-- A link that is up is lost. -/
theorem linkOutcome_lost (up : old.up = true) : d.linkOutcome old r index = (d.linkLost r.link 0, true) := by
  have state : old.state = .up := of_decide_eq_true up
  rw [linkOutcome_enabled on, if_neg (by rw [state]; decide), if_pos retrain, if_neg (by rw [state]; decide), if_pos up]

/-- A link in training or backoff starts its training again. -/
theorem linkOutcome_restarts (state : old.state = .training ∨ old.state = .backoff) :
    d.linkOutcome old r index = (d.modLink r.link (fun l => l.restart (d.clk 0)), true) := by
  have disabled : old.state ≠ .disabled := by obtain h | h := state <;> rw [h] <;> decide
  have dormant : old.state ≠ .dormant := by obtain h | h := state <;> rw [h] <;> decide
  have up : ¬ old.up = true := fun up => by obtain h | h := state <;> rw [TowLink.up, h] at up <;> exact absurd up (by decide)
  rw [linkOutcome_enabled on, if_neg disabled, if_pos retrain, if_neg dormant, if_neg up]

end
end

/-- The device with a link disabled and its wake withdrawn. -/
def Dev.linkDisabled (d : Dev) (k : Nat) : Dev :=
  ((({ d with tow := { d.tow with quieted := d.tow.quieted.filter (· != k) } } : Dev).withdrawOp (fun o => o = .wakeTowpath k)).endOp
    (fun o => o = .wakeTowpath k)).modLink k (fun l => { l with state := .disabled, wakeReq := false, attempt := 1 })

/-- A link that runs or waits for its wake is disabled. -/
theorem linkOutcome_disables (off : r.enable = false) (runs : old.state ≠ .disabled ∨ old.wakeReq = true) : d.linkOutcome old r index =
    (if old.up then (d.linkDisabled r.link).linkDown r.link 0 else d.linkDisabled r.link, true) := by
  have active : ¬ (old.state = .disabled ∧ (!old.wakeReq) = true) := by
    rintro ⟨disabled, asleep⟩
    obtain other | waking := runs
    · exact other disabled
    · rw [waking] at asleep
      exact Bool.noConfusion asleep
  exact (if_pos (by rw [off]; rfl)).trans (if_neg active)

end

/-! ### TOWPATH_CONFIG FABRIC (R407) -/

/-- An alignment and its wait in range are set, and a device that rejoins sends its LSA. -/
theorem towpathFabric_sets {r : TowFabricReq} (wait : r.wait ≤ 10000) (fixed : d.clock.everAttached = true → r.align = d.tow.align)
    (free : r.rejoin = true → tget d.tow.lsas d.dev.devAddr = none) : towpathFabric r ref d =
    (let x := { d with tow := { d.tow with align := r.align, alignWait := r.wait } }
     (if r.rejoin ∧ x.tow.isolated then lsaFlood 0 { x with tow := { x.tow with isolated := false } } else x).complete ref .ok) := by
  have allowed : ¬ ((d.clock.everAttached = true ∧ r.align ≠ d.tow.align) ∨ (r.rejoin = true ∧ (tget d.tow.lsas d.dev.devAddr).isSome = true)) := by
    rintro (⟨attached, other⟩ | ⟨rejoin, conflict⟩)
    · exact other (fixed attached)
    · rw [free rejoin] at conflict
      exact Bool.noConfusion conflict
  exact (if_neg (Nat.not_lt.2 wait)).trans (if_neg allowed)

/-- The routes of a topology, entry by entry. -/
theorem topologyRoutes_entries (d : Dev) : topologyRoutes d =
    (List.range 64).flatMap (fun x => (tget d.tow.routes x).elim (le 1 0xFF ++ le 1 0xFF ++ le 1 0 ++ le 1 0)
      (fun r => le 1 r.nh0 ++ le 1 (r.nh1.getD 0xFF) ++ le 1 r.dist ++ le 1 1)) := by
  unfold topologyRoutes
  congr 1
  funext x
  cases tget d.tow.routes x <;> rfl

end Sys2Proof.Machine
end

section
/-!
PROOFS. The links of Towpath (R392, R393, R396, R397): training, its time-outs, the wake, and the egress of a link.
-/
namespace Sys2Proof.Machine
open Sys2Proof

variable {d : Dev}

/-! ### Training (R392, R393) -/

/-- The lanes seen with a TRAIN unit. -/
def TowLink.seenWith (l : TowLink) (r : TrainRx) : List Nat := if l.seenLanes.contains r.lane = true then l.seenLanes else r.lane :: l.seenLanes

/-- The link acknowledges once both lanes are seen, in lock and with little skew. -/
def TowLink.acksWith (l : TowLink) (r : TrainRx) : Bool :=
  l.ack || (r.locked && decide (r.skew ≤ 64) && (l.seenWith r).contains 0 && (l.seenWith r).contains 1)

/-- The lanes that acknowledge, with this unit's. -/
def TowLink.ackedWith (l : TowLink) (r : TrainRx) : List Nat :=
  if l.acksWith r = true ∧ beAt (packBits r.bits) 4 1 = 1 ∧ l.ackLanes.contains r.lane = false then r.lane :: l.ackLanes else l.ackLanes

/-- The link after a TRAIN unit. -/
def Dev.trained (d : Dev) (r : TrainRx) : Dev :=
  let old := d.link r.link
  d.modLink r.link (fun l => { l with
    seenLanes := old.seenWith r, ack := old.acksWith r, ackLanes := old.ackedWith r, peerLink := beAt (packBits r.bits) 2 1,
    peerDev := some (beAt (packBits r.bits) 3 1), peerUnit := beAt (packBits r.bits) 6 8 })

/-- The link that has come up. -/
def Dev.linkRaised (d : Dev) (k now : Nat) : Dev :=
  d.modLink k (fun l => { l with
    state := .up, profiled := false, lastHello := d.clk now, lseqRx := [none, none, none, none, none], echo := none, theta := [],
    limits := [0, 0, 0, 0, 0], sent := [0, 0, 0, 0, 0], freed := [0, 0, 0, 0, 0], advert := bufferBlocks,
    tx := { l.tx with odd := false, w0 := [], w1 := [] } })

/-- Its coming up ends the wake, and a HELLO and an LSA are sent. -/
def Dev.linkGreeted (d : Dev) (k now : Nat) : Dev :=
  lsaFlood now ((({ d with tow := { d.tow with firstUp := some (d.tow.firstUp.getD (d.clk now)) } } : Dev).endOp
    (fun o => o = HeavyOp.wakeTowpath k)).sendOn k 3 [])

/-- A valid TRAIN unit of a link in training brings it forward; with both lanes acknowledged the link is up. -/
theorem trainUnitRx_trains {r : TrainRx} (link : r.link < 8) (state : (d.link r.link).state = .training) (length : r.bits.length = 128)
    (mark : beAt (packBits r.bits) 0 1 = 0xA5) (crc : beAt (packBits r.bits) 14 2 = crc16 ((packBits r.bits).take 14)) : trainUnitRx r d =
    if ((d.link r.link).ackedWith r).contains 0 = true ∧ ((d.link r.link).ackedWith r).contains 1 = true then
      ((d.trained r).linkRaised r.link r.now).linkGreeted r.link r.now else d.trained r := by
  have valid : ¬ (8 ≤ r.link ∨ (d.link r.link).state ≠ .training ∨ r.bits.length ≠ 128 ∨ beAt (packBits r.bits) 0 1 ≠ 0xA5 ∨
      beAt (packBits r.bits) 14 2 ≠ crc16 ((packBits r.bits).take 14)) := by
    rintro (beyond | other | short | unmarked | broken)
    · exact Nat.not_le.2 link beyond
    · exact other state
    · exact short length
    · exact unmarked mark
    · exact broken crc
  have acked (l : TowLink) : (if l.acksWith r = true ∧ beAt (packBits r.bits) 4 1 = 1 ∧ (!l.ackLanes.contains r.lane) = true then r.lane :: l.ackLanes
      else l.ackLanes) = l.ackedWith r := by
    simp only [Bool.not_eq_true', TowLink.ackedWith]
  unfold trainUnitRx
  dsimp only
  rw [if_neg valid]
  have acked' := acked (d.link r.link)
  unfold TowLink.acksWith TowLink.seenWith at acked'
  rw [acked']
  rfl

/-- 100 ms without success end an attempt: the link backs off, or sleeps after the eighth. -/
theorem trainingTimeout_ends {k now : Nat} (state : (d.link k).state = .training) (over_ : (d.link k).since + 100 * clocksPerMs ≤ d.clk now) :
    trainingTimeout k now d =
    (let a := (d.link k).attempt + 1
     let st := if a = 9 then LinkState.dormant else .backoff
     let x := ((d.modLink k (fun l => { l with state := st, attempt := a, since := d.clk now, seenLanes := [], ackLanes := [], ack := false })).endOp
      (fun o => o = HeavyOp.wakeTowpath k)).raise (0x240 + 4 * k) (le 1 st.code)
     if a = 9 then x.raise (0x241 + 4 * k) else x) :=
  if_neg (fun early => early.elim (fun other => other state) (Nat.not_lt.2 over_))

/-- The wake of a link is put to Sluice. -/
theorem wakeLink_requests {k index : Nat} (asleep : (d.link k).wakeReq = false) (room : d.sluice.fifo.length < 1024)
    (fits : d.sluice.base + d.sluice.reserve + HeavyOp.cost (.wakeTowpath k) ≤ d.sluice.budget) : d.wakeLink k index =
    (({ d with sluice := { d.sluice with
      fifo := d.sluice.fifo ++ [{ op := .wakeTowpath k, index, since := d.clock.cycle, ref := none, reported := false }] } } : Dev).modLink k
        (fun l => { l with wakeReq := true }), true) := by
  unfold Dev.wakeLink
  rw [if_neg (Bool.eq_false_iff.1 asleep), request_waits d _ index none room fits]
  rfl

/-! ### The egress of a link (R396) -/

/-- A unit as it leaves: a HELLO is stamped. -/
def Dev.stamped (d : Dev) (k now : Nat) (u : TowUnit) : TowUnit := if u.typ = 3 then { u with payload := d.helloPayload k now } else u

/-- A link that is up sends the unit that it picks. -/
theorem linkSlot_sends {k now : Nat} {u : TowUnit} (up : (d.link k).up = true) (pick : (d.link k).pick d.now = some u) : linkSlot k now d =
    (let c := linkClass u.typ
     let q := lget (d.link k).lseqTx c 0
     let v := d.stamped k now u
     ((d.count 17 .towTxUnits k).count 17 .towTxBytes k (v.payload.length + 20)).modLink k (fun l => { l with
        txq := l.txq.erase u, lseqTx := lset l.lseqTx c ((q + 1) % 2 ^ 24), sent := lset l.sent c ((lget l.sent c 0 + v.blocks) % 65536),
        wire := bytesBits (v.bytes q), tx := l.tx.slot (Config.idleBlocks k q now) (v.bytes q) })) := by
  unfold linkSlot
  dsimp only
  rw [if_neg (by rw [up]; decide), pick]
  rfl

end Sys2Proof.Machine
end

section
/-!
PROOFS. HELLOs, LSAs and routes of Towpath (R398 to R401, R404, R409).
-/
namespace Sys2Proof.Machine
open Sys2Proof

variable {d : Dev} {r : TowRx}

/-! ### HELLOs (R398, R404) -/

/-- A HELLO answers one of this device's. -/
def helloEchoes (p : Bytes) : Bool := decide (beAt p 36 6 ≠ 0 ∨ beAt p 42 4 ≠ 0)

/-- The delay of a link by the four times of a HELLO. -/
def Dev.helloDelay (d : Dev) (r : TowRx) : Int :=
  ((psOf d.now r.now - psOf (beAt r.payload 26 6) (beAt r.payload 32 4)) - (psOf (beAt r.payload 16 6) (beAt r.payload 22 4) - psOf (beAt r.payload 36 6) (beAt r.payload 42 4))) / 2

/-- The tick offset by the four times of a HELLO. -/
def Dev.helloTheta (d : Dev) (r : TowRx) : Int :=
  ((psOf (beAt r.payload 36 6) (beAt r.payload 42 4) - psOf (beAt r.payload 26 6) (beAt r.payload 32 4)) - (psOf d.now r.now - psOf (beAt r.payload 16 6) (beAt r.payload 22 4))) / 2

/-- The link that a HELLO has come in on. -/
def Dev.helloNoted (d : Dev) (r : TowRx) : Dev :=
  let p := r.payload
  d.modLink r.link (fun l => { l with
    lastHello := d.clk r.now, peerDev := some (beAt p 0 1), peerLink := beAt p 1 1, peerIso := bitOf (beAt p 2 1) 0,
    peerFixed := bitOf (beAt p 2 1) 1, peerUnit := beAt p 4 8, peerAge := beAt p 12 4, peerCycle := beAt p 16 6,
    echo := some (beAt p 16 6, beAt p 22 4, d.now, r.now), delay := if helloEchoes p = true then d.helloDelay r else l.delay,
    thetaPs := if helloEchoes p = true then d.helloTheta r else l.thetaPs,
    theta := if helloEchoes p = true then (d.helloTheta r :: l.theta).take 1000 else l.theta })

/-- A HELLO that is accepted is noted, and the tick lock of its link is judged anew. -/
theorem helloRx_notes {e : Dev} (accepted : d.towAccept r 3 = (e, true)) : helloRx r d =
    ((e.helloNoted r).modLink r.link (fun l => { l with
      locked := ((e.helloNoted r).link r.link).refCommon && decide (((e.helloNoted r).link r.link).thetaPs.natAbs ≤ 32000) })).lockCheck := by
  unfold helloRx
  rw [accepted]
  rfl

/-! ### LSAs (R399, R400) -/

/-- A device that serves sends its LSA a second after the one before. -/
theorem lsaPeriodic_floods {now : Nat} (joined : d.tow.isolated = false) (serves : d.host.idle = false) (runs : d.coreHalted 0 = false)
    (due : d.tow.lsaSent + 1000 * clocksPerMs ≤ d.clk now) : lsaPeriodic now d =
    (let e : Dev := { d with tow := { d.tow with ownSeq := (d.tow.ownSeq + 1) % 65536, lsaSent := d.clk now } }
     (List.range 8).foldl (fun x k => if (x.link k).up then x.sendOn k 4 (e.lsaPayload now ((d.tow.ownSeq + 1) % 65536)) else x) e) :=
  (if_pos due).trans (if_neg (by rw [joined, serves, runs]; decide))

/-- The LSA in a unit. -/
def Dev.lsaIn (d : Dev) (r : TowRx) : Lsa :=
  { flags := beAt r.payload 1 1, seq := beAt r.payload 2 2, unitId := beAt r.payload 4 8, ageMs := beAt r.payload 12 4,
    entries := (List.range 8).map (fun i => (beAt r.payload (16 + 2 * i) 1, beAt r.payload (17 + 2 * i) 1)), at_ := d.clk r.now }

/-- An LSA of another device is the first of its device, or newer than the one held. -/
def Dev.lsaFresh (d : Dev) (dev : Nat) (x : Lsa) : Bool := (tget d.tow.lsas dev).elim true (fun o => newer x.seq o.seq)

/-- Another unit holds the address. -/
def Dev.lsaClash (d : Dev) (dev : Nat) (x : Lsa) : Bool := (tget d.tow.lsas dev).elim false (fun o => o.unitId != x.unitId)

/-- A conflict is marked once. -/
def Dev.conflictNoted (d : Dev) (dev : Nat) (clash : Bool) : Dev :=
  if clash then { d with tow := { d.tow with conflicts := if d.tow.conflicts.contains dev then d.tow.conflicts else dev :: d.tow.conflicts } } else d

/-- A newer LSA is held. -/
def Dev.lsaHeld (d : Dev) (dev : Nat) (x : Lsa) : Dev :=
  if d.lsaFresh dev x then { d with tow := { d.tow with lsas := tset d.tow.lsas dev x } } else d

/-- Holding an LSA and marking a conflict leave the device as joined as it was. -/
theorem conflictNoted_isolated (d : Dev) (dev : Nat) (x : Lsa) (clash : Bool) : ((d.lsaHeld dev x).conflictNoted dev clash).tow.isolated = d.tow.isolated := by
  unfold Dev.conflictNoted Dev.lsaHeld
  cases clash <;> cases d.lsaFresh dev x <;> rfl

/-- An LSA is sent on over the other links that are up. -/
def Dev.lsaSentOn (d : Dev) (r : TowRx) : Dev :=
  (List.range 8).foldl (fun d k => if k ≠ r.link ∧ (d.link k).up = true then d.putOn k
    { dst := 0, src := r.src, typ := 4, hops := r.hops - 1, cls := none, payload := r.payload } else d) d

/-- An LSA of another device that a joined device accepts is held and sent on where it is newer, and marks a conflict. -/
theorem lsaRx_judges {e : Dev} (accepted : d.towAccept r 4 = (e, true)) (other : beAt r.payload 0 1 ≠ e.dev.devAddr) (joined : e.tow.isolated = false) :
    lsaRx r d =
    (let dev := beAt r.payload 0 1
     let y := (e.lsaHeld dev (e.lsaIn r)).conflictNoted dev (e.lsaClash dev (e.lsaIn r))
     if e.lsaFresh dev (e.lsaIn r) then y.lsaSentOn r else y) := by
  have foreign : (beAt r.payload 0 1 == e.dev.devAddr) = false := beq_eq_false_iff_ne.2 other
  have known : ¬ ((beAt r.payload 0 1 == e.dev.devAddr) = true ∧ (e.lsaIn r).unitId = e.dev.unitId) := fun own => Bool.false_ne_true (foreign.symm.trans own.1)
  have accepts : ¬ (e.tow.isolated = true ∧ (!(beAt r.payload 0 1 == e.dev.devAddr)) = true) := fun bad => Bool.false_ne_true (joined.symm.trans bad.1)
  have runs : lsaRx r d =
      (let y := (e.lsaHeld (beAt r.payload 0 1) (e.lsaIn r)).conflictNoted (beAt r.payload 0 1) (e.lsaClash (beAt r.payload 0 1) (e.lsaIn r))
       if (!e.lsaFresh (beAt r.payload 0 1) (e.lsaIn r)) = true ∨ y.tow.isolated = true then y else y.lsaSentOn r) := by
    unfold lsaRx
    rw [accepted]
    refine (if_neg Bool.false_ne_true).trans ((if_neg known).trans ((if_neg accepts).trans ?_))
    rw [foreign]
    rfl
  rw [runs]
  dsimp only
  rw [conflictNoted_isolated, joined]
  cases e.lsaFresh (beAt r.payload 0 1) (e.lsaIn r) <;> rfl

/-- Marking a conflict changes the conflicts alone. -/
theorem conflictNoted_eq (d : Dev) (dev : Nat) (clash : Bool) : d.conflictNoted dev clash =
    { d with tow := { d.tow with conflicts := if clash = true ∧ d.tow.conflicts.contains dev = false then dev :: d.tow.conflicts else d.tow.conflicts } } := by
  unfold Dev.conflictNoted
  cases clash with
  | false => rfl
  | true => cases d.tow.conflicts.contains dev <;> rfl

/-- A clash is with an LSA that is held. -/
theorem lsaClash_iff (d : Dev) (dev : Nat) (x : Lsa) : d.lsaClash dev x = true ↔ ∃ o, tget d.tow.lsas dev = some o ∧ o.unitId ≠ x.unitId := by
  unfold Dev.lsaClash
  cases held : tget d.tow.lsas dev with
  | none => simp
  | some o => simp

section
variable {e : Dev} (accepted : d.towAccept r 4 = (e, true)) (other : beAt r.payload 0 1 ≠ e.dev.devAddr) (joined : e.tow.isolated = false)
include accepted other joined

/-- A newer one is held, marks a conflict where another unit holds its address, and is sent on. -/
theorem lsaRx_newer (fresh : e.lsaFresh (beAt r.payload 0 1) (e.lsaIn r) = true) : lsaRx r d =
    ((e.lsaHeld (beAt r.payload 0 1) (e.lsaIn r)).conflictNoted (beAt r.payload 0 1) (e.lsaClash (beAt r.payload 0 1) (e.lsaIn r))).lsaSentOn r := by
  rw [lsaRx_judges accepted other joined]
  exact if_pos fresh

/-- One that is not is not held and not sent on. -/
theorem lsaRx_older (stale : e.lsaFresh (beAt r.payload 0 1) (e.lsaIn r) = false) : lsaRx r d =
    e.conflictNoted (beAt r.payload 0 1) (e.lsaClash (beAt r.payload 0 1) (e.lsaIn r)) := by
  rw [lsaRx_judges accepted other joined]
  dsimp only
  rw [if_neg (Bool.eq_false_iff.1 stale)]
  unfold Dev.lsaHeld
  rw [if_neg (Bool.eq_false_iff.1 stale)]

end

/-- An LSA is newer than the one held for its device, if there is one. -/
theorem lsaFresh_of_newer {dev : Nat} {x : Lsa} (newest : ∀ o, tget d.tow.lsas dev = some o → newer x.seq o.seq = true) : d.lsaFresh dev x = true := by
  unfold Dev.lsaFresh
  cases held : tget d.tow.lsas dev with
  | none => rfl
  | some o => exact (Option.elim_some ..).trans (newest o held)

/-! ### Routes (R401, R409) -/

/-- The judgement of the tick lock leaves the routes. -/
theorem lockCheck_routes (d : Dev) : d.lockCheck.tow.routes = d.tow.routes := by
  unfold Dev.lockCheck
  refine List.foldlRecOn (motive := fun e : Dev => e.tow.routes = d.tow.routes) _ _ rfl (fun e kept x _ => ?_)
  split
  · exact kept
  · rw [Dev.raise_tow]
    exact kept

/-- The routes computed from the edges that are known. -/
def Dev.newRoutes (d : Dev) : Tbl Route :=
  (List.range 64).filterMap (fun x => if x = d.dev.devAddr then none else
    (d.routeTo d.edges (fun n => tgetD ((List.range 64).map (fun m => (m, distances d.edges m))) n []) x).map (fun r => (x, r)))

/-- A recomputation takes them over. -/
theorem routeRecompute_routes (d : Dev) : (routeRecompute d).tow.routes = d.newRoutes := by
  unfold routeRecompute
  dsimp only
  rw [lockCheck_routes]
  refine List.foldlRecOn (motive := fun e : Dev => e.tow.routes = d.newRoutes) _ _ ?_ (fun e kept x _ => ?_)
  · split
    · rfl
    · rw [Dev.raise_tow]
      rfl
  · split
    · exact kept
    · rw [Dev.raise_tow]
      exact kept

end Sys2Proof.Machine

open Sys2Proof Sys2Proof.Machine

/-- Settles O37: the commands of Towpath, and each event of its links, its LSAs and its routes. -/
theorem towpathLinks : Obligations.TowpathLinks := by
  unfold Obligations.TowpathLinks
  refine ⟨?wake, ?dormant, ?lost, ?restart, ?stay, ?disable, ?fabric, fun s ctx served => ?links, fun s ctx served => ?routes, fun s ctx served => ?devices,
    ?train, ?up, ?timeout, ?backoff, ?sleeper, fun d k i asleep room fits => wakeLink_requests asleep room fits, ?hello, ?lock, fun s => rfl, ?echo, ?flood, ?newer, ?older,
    fun s now => rfl, fun s => ⟨_, rfl, routeRecompute_routes _⟩, ?credit, ?slot⟩
  case wake =>
    rintro s ctx r _ _ _ z b served link cost enabled rfl rfl rfl on state wakes
    exact exec_served (body := towpathLink r) rfl served (towpathLink_ends (d := s.dev.begun ctx) link cost enabled ((linkOutcome_wakes on state).trans wakes))
  case dormant =>
    rintro s ctx r _ _ _ z b served link cost enabled rfl rfl rfl on state retrain wakes
    exact exec_served (body := towpathLink r) rfl served
      (towpathLink_ends (d := s.dev.begun ctx) link cost enabled ((linkOutcome_dormant on retrain state).trans wakes))
  case lost =>
    rintro s ctx r _ _ _ _ served link cost enabled rfl rfl rfl on up retrain rfl
    exact exec_served (body := towpathLink r) rfl served (towpathLink_ends (d := s.dev.begun ctx) link cost enabled (linkOutcome_lost on retrain up))
  case restart =>
    rintro s ctx r _ _ _ _ served link cost enabled rfl rfl rfl on state retrain rfl
    exact exec_served (body := towpathLink r) rfl served (towpathLink_ends (d := s.dev.begun ctx) link cost enabled (linkOutcome_restarts on retrain state))
  case stay =>
    rintro s ctx r _ _ _ _ served link cost enabled rfl rfl rfl on state kept rfl
    exact exec_served (body := towpathLink r) rfl served (towpathLink_ends (d := s.dev.begun ctx) link cost enabled (linkOutcome_stays on state kept))
  case disable =>
    rintro s ctx r _ _ _ _ _ served link cost enabled rfl rfl rfl off runs rfl rfl
    exact exec_served (body := towpathLink r) rfl served (towpathLink_ends (d := s.dev.begun ctx) link cost enabled (linkOutcome_disables off runs))
  case fabric =>
    rintro s ctx r _ served wait fixed free rfl
    exact exec_served (body := towpathFabric r) rfl served (towpathFabric_sets (d := s.dev.begun ctx) wait fixed free)
  case links => exact exec_served (body := fun ref d => d.complete ref .ok (topologyLinks d)) rfl served rfl
  case routes =>
    exact exec_served (body := fun ref d => d.complete ref .ok (topologyRoutes d)) rfl served
      (congrArg (fun b => (s.dev.begun ctx).complete (s.dev.refOf ctx) .ok b) (topologyRoutes_entries (s.dev.begun ctx)))
  case devices => exact exec_served (body := fun ref d => d.complete ref .ok (topologyDevices d)) rfl served rfl
  case train =>
    rintro s r _ _ _ _ _ link state length rfl mark crc rfl rfl rfl rfl waits
    refine exec_next rfl ((trainUnitRx_trains link state length mark crc).trans (if_neg ?_))
    rintro ⟨first, second⟩
    exact Bool.false_ne_true (waits.symm.trans (by rw [Bool.and_eq_true]; exact ⟨first, second⟩))
  case up =>
    rintro s r _ _ _ _ _ _ link state length rfl mark crc rfl rfl rfl rfl first second rfl
    exact exec_next rfl ((trainUnitRx_trains link state length mark crc).trans (if_pos ⟨first, second⟩))
  case timeout =>
    rintro s k now _ _ _ state past rfl rfl rfl
    exact exec_next rfl (trainingTimeout_ends state past)
  case backoff => exact fun s k now state past => exec_next rfl (if_pos ⟨state, past⟩)
  case sleeper => exact fun s k state => exec_next rfl (if_pos state)
  case hello => exact fun s k now up missed => exec_next rfl (if_pos ⟨up, missed⟩)
  case lock => exact fun s k now up => exec_next rfl (if_pos up)
  case echo =>
    rintro s r d _ _ _ _ _ _ _ _ _ accepted rfl rfl rfl rfl rfl rfl rfl rfl rfl
    exact exec_next rfl (helloRx_notes accepted)
  case flood => exact fun s now joined serves runs due => ⟨_, rfl, exec_next rfl (lsaPeriodic_floods joined serves runs due)⟩
  case newer =>
    rintro s r d _ _ _ accepted rfl other joined rfl newest rfl
    have fresh : d.lsaFresh (beAt r.payload 0 1) (d.lsaIn r) = true := lsaFresh_of_newer newest
    refine exec_next rfl ((lsaRx_newer accepted other joined fresh).trans (congrArg (Dev.lsaSentOn · r) ?_))
    rw [conflictNoted_eq]
    simp only [lsaClash_iff]
    unfold Dev.lsaHeld
    rw [if_pos fresh]
    rfl
  case older =>
    rintro s r d _ o accepted rfl other joined held stale
    have old : d.lsaFresh (beAt r.payload 0 1) (d.lsaIn r) = false := by
      unfold Dev.lsaFresh
      rw [held, Option.elim_some]
      exact stale
    have clash : d.lsaClash (beAt r.payload 0 1) (d.lsaIn r) = true ↔ o.unitId ≠ beAt r.payload 4 8 := by
      unfold Dev.lsaClash
      rw [held, Option.elim_some, bne_iff_ne]
      rfl
    refine exec_next rfl ((lsaRx_older accepted other joined old).trans ((conflictNoted_eq ..).trans ?_))
    exact congrArg (fun conflicts => ({ d with tow := { d.tow with conflicts } } : Dev)) (if_congr (and_congr_left' clash) rfl rfl)
  case credit => exact fun s k cls limit link up => exec_next rfl (congrArg (Dev.syncDrr · 0 isTowPoint) (if_pos ⟨up, link⟩))
  case slot =>
    rintro s k now _ _ u _ up pick rfl rfl rfl
    exact exec_next rfl (congrArg (Dev.syncDrr · now isTowPoint) (linkSlot_sends up pick))
end

section
/-!
PROOFS. The commands of the recorder (R426, R427, R429).
-/
namespace Sys2Proof.Machine
open Sys2Proof

variable {d : Dev} {ref : CmdRef}

/-! ### RECORDER_CONFIG (R427) -/

/-- The fields of GLOBAL are in range. -/
structure RecGlobalFields (r : RecGlobalReq) : Prop where
  ringMax : r.ring ≤ 2048
  ringWhole : r.ring % 64 = 0
  preMax : r.preMs ≤ 10000
  postMin : 1 ≤ r.postMs
  postMax : r.postMs ≤ 60000
  maxMin : r.postMs ≤ r.maxMs
  maxMax : r.maxMs ≤ 600000

/-- A GLOBAL in range that keeps the ring of a running recorder waits for the boundary. -/
theorem recGlobal_waits {r : RecGlobalReq} (kept : d.recd.set.run = true → r.ring = d.recd.set.ring) (fields : RecGlobalFields r) :
    recGlobal r ref d = d.recPend (.global ref r) := by
  obtain ⟨ringMax, ringWhole, preMax, postMin, postMax, maxMin, maxMax⟩ := fields
  have inRange : ¬ (2048 < r.ring ∨ r.ring % 64 ≠ 0 ∨ 10000 < r.preMs ∨ r.postMs = 0 ∨ 60000 < r.postMs ∨ r.maxMs < r.postMs ∨ 600000 < r.maxMs) := by omega
  have fine : recGlobalBad d r = none := (if_neg (fun bad => bad.2 (kept bad.1))).trans (if_neg inRange)
  unfold recGlobal
  rw [fine]

/-- A GLOBAL that is still valid at the boundary is taken over. -/
theorem applyRec_global {r : RecGlobalReq} (fine : recGlobalBad d r = none) : d.applyRec (.global ref r) =
    ((d.setRun { r with tevMask := r.tevMask % 16 }).resized).complete ref .ok (recResp ((d.setRun { r with tevMask := r.tevMask % 16 }).resized)) := by
  unfold Dev.applyRec
  dsimp only
  rw [fine]

/-- The fields of a STREAM that Fold uses are in range. -/
structure RecFoldFields (r : RecStreamReq) : Prop where
  k : r.bounded = true → 1 ≤ r.k ∧ r.k ≤ 8
  channelsMin : 1 ≤ r.nch
  channelsMax : r.nch ≤ 32
  wrap : r.smpWrap ≤ 65535

/-- Fields that Fold uses are in range where it uses them. -/
theorem foldFields_fine {r : RecStreamReq} (fold : r.goose = true ∨ RecFoldFields r) :
    (!r.goose && ((r.bounded && (decide (r.k = 0) || decide (8 < r.k))) || decide (r.nch = 0) || decide (32 < r.nch) || decide (65535 < r.smpWrap))) = false := by
  obtain goose | ⟨k, channelsMin, channelsMax, wrap⟩ := fold
  · rw [goose]
    rfl
  · have bounds : (r.bounded && (decide (r.k = 0) || decide (8 < r.k))) = false := by
      cases bounded : r.bounded with
      | false => rfl
      | true =>
        obtain ⟨low, high⟩ := k bounded
        rw [decide_eq_false (Nat.one_le_iff_ne_zero.1 low), decide_eq_false (Nat.not_lt.2 high)]
        rfl
    rw [bounds, decide_eq_false (Nat.one_le_iff_ne_zero.1 channelsMin), decide_eq_false (Nat.not_lt.2 channelsMax), decide_eq_false (Nat.not_lt.2 wrap)]
    exact Bool.and_false _

/-- A STREAM in range waits for the boundary. -/
theorem recStream_waits {r : RecStreamReq} (stream : r.stream ≤ 255) (appid : r.appid ≤ 65535) (source : r.source = 0xFFFF ∨ d.sourceOk r.source = true)
    (fold : r.goose = true ∨ RecFoldFields r) : recStream r ref d = d.recPend (.stream ref { r with k := if r.bounded = true then r.k else 1 }) := by
  have known : (r.source != 0xFFFF && !d.sourceOk r.source) = false := by
    obtain every | one := source
    · rw [every]
      rfl
    · rw [one]
      exact Bool.and_false _
  refine if_neg (Bool.eq_false_iff.1 ?_)
  unfold recStreamBad
  rw [decide_eq_false (Nat.not_lt.2 stream), decide_eq_false (Nat.not_lt.2 appid), known, foldFields_fine fold]
  rfl

/-- The fields of a RULE are in range. -/
structure RecRuleFields (r : RecRuleReq) : Prop where
  rule : r.rule ≤ 63
  cmp : r.cmp ≤ 2
  stream : r.stream ≤ 255
  channel : r.channel ≤ 31
  holdMin : 1 ≤ r.hold
  holdMax : r.hold ≤ 255
  levelMin : -2147483648 ≤ r.level
  levelMax : r.level ≤ 2147483647

/-- A RULE in range on a stream of samples waits for the boundary. -/
theorem recRule_waits {r : RecRuleReq} (fields : RecRuleFields r) (samples : (d.stream r.stream).elim false (fun x => x.set.goose) = false) :
    recRule r ref d = d.recPend (.rule ref r) := by
  obtain ⟨rule, cmp, stream, channel, holdMin, holdMax, levelMin, levelMax⟩ := fields
  refine if_neg (Bool.eq_false_iff.1 ?_)
  unfold recRuleBad
  rw [decide_eq_false (Nat.not_lt.2 rule), decide_eq_false (Nat.not_lt.2 cmp), decide_eq_false (Nat.not_lt.2 stream), decide_eq_false (Nat.not_lt.2 channel),
    decide_eq_false (Nat.one_le_iff_ne_zero.1 holdMin), decide_eq_false (Nat.not_lt.2 holdMax), decide_eq_false (Int.not_lt.2 levelMin),
    decide_eq_false (Int.not_lt.2 levelMax), samples]
  rfl

/-- The namespaces of a STORE can be used. -/
structure RecStoreFields (r : RecStoreReq) : Prop where
  some : r.nsids ≠ []
  few : r.nsids.length ≤ 4
  named : ∀ n ∈ r.nsids, n ≠ 0 ∧ n < 2 ^ 32
  present : r.absent = false
  formats : ∀ n ∈ r.lba, n = 512 ∨ n = 4096
  plain : r.metadata = false

/-- A STORE of a stopped recorder waits for the boundary. -/
theorem recStore_waits {r : RecStoreReq} (stopped : d.recd.set.run = false) (fields : RecStoreFields r) : recStore r ref d = d.recPend (.store ref r) := by
  obtain ⟨some, few, named, present, formats, plain⟩ := fields
  have ids : r.nsids.any (fun n => n == 0 || decide (2 ^ 32 ≤ n)) = false := by
    refine List.any_eq_false.2 (fun n listed => ?_)
    obtain ⟨nonzero, small⟩ := named n listed
    simp only [Bool.or_eq_true, beq_iff_eq, decide_eq_true_eq, not_or, Nat.not_le]
    exact ⟨nonzero, small⟩
  have blocks : r.lba.any (fun n => n != 512 && n != 4096) = false := by
    refine List.any_eq_false.2 (fun n listed => ?_)
    obtain rfl | rfl := formats n listed <;> decide
  have usable : ¬ (r.nsids.isEmpty = true ∨ 4 < r.nsids.length ∨ r.nsids.any (fun n => n == 0 || decide (2 ^ 32 ≤ n)) = true ∨ r.absent = true ∨
      r.lba.any (fun n => n != 512 && n != 4096) = true ∨ r.metadata = true) := by
    rw [ids, present, blocks, plain, List.isEmpty_iff]
    simp only [Bool.false_eq_true, or_false, not_or]
    exact ⟨some, Nat.not_lt.2 few⟩
  have fine : recStoreBad d r = none := (if_neg (Bool.eq_false_iff.1 stopped)).trans (if_neg usable)
  unfold recStore
  rw [fine]

/-- The device over the namespaces of a STORE. -/
def Dev.storeSet (d : Dev) (r : RecStoreReq) : Dev := d.modRec (fun x => { x with nsids := r.nsids, storeSlots := Nat.min r.slots (2 ^ 27) })

/-- A format empties the directory and the store. -/
def Dev.storeFormatted (d : Dev) (r : RecStoreReq) : Dev :=
  if r.format = true then d.modRec (fun x => { x with dir := [], store := [], nvme := x.nvme ++ [.deallocate (tkeys x.store)], storeNext := 64, nextId := 1, full := false }) else d

/-- A STORE that is still valid at the boundary is taken over. -/
theorem applyRec_store {r : RecStoreReq} (fine : recStoreBad d r = none) :
    d.applyRec (.store ref r) = ((d.storeSet r).storeFormatted r).complete ref .ok (recResp ((d.storeSet r).storeFormatted r)) := by
  unfold Dev.applyRec
  dsimp only
  rw [fine]
  rfl

/-! ### RECORDER_INDEX (R429) -/

/-- LIST answers the entries from an id on. -/
theorem indexList_answers {id count : Nat} (some : 1 ≤ count) (few : count ≤ 32) : indexList id count ref d =
    (let l := (d.recd.listing.filter (fun e => decide (id ≤ e.id))).take count
     d.complete ref .ok (le 4 l.length ++ le 4 0 ++ l.flatMap DirEnt.bytes)) := if_neg (by omega)

/-- KEEP and UNKEEP mark an entry of the directory. -/
theorem indexKeep_marks {id : Nat} {keep : Bool} (listed : d.recd.dir.any (fun e => e.id == id) = true) : indexKeep id keep ref d =
    (d.modRec (fun r => ({ r with dir := r.dir.map (fun (e : DirEnt) => if e.id = id then { e with keep } else e) } : Recorder).refull)).complete ref .ok :=
  if_pos listed

/-- DELETE removes an entry of the directory. -/
theorem indexDelete_removes {id : Nat} (stored : d.recd.captures.any (fun c => c.ent.id == id) = false) (listed : d.recd.dir.any (fun e => e.id == id) = true) :
    indexDelete id ref d = (d.modRec (fun r => (r.delete id).refull)).complete ref .ok :=
  (if_neg (Bool.eq_false_iff.1 stored)).trans (if_pos listed)

/-- READ_PILE of a stored pile issues a Read. -/
theorem indexReadPile_issues {id pile addr slot : Nat} {e : DirEnt} {b : Bytes}
    (entry : (d.recd.dir ++ d.recd.captures.map (·.ent)).find? (fun e => e.id == id) = some e) (stored : pile < e.piles)
    (place : (e.slots d.recd.area)[pile]? = some slot) (bytes : d.recd.slotBytes slot = some b) :
    indexReadPile id pile addr ref d = d.modRec (fun r => { r with nvme := r.nvme ++ [.read ref addr b] }) := by
  unfold indexReadPile
  dsimp only
  rw [entry, Option.bind_some, if_pos stored, place, Option.bind_some, bytes]

end Sys2Proof.Machine

open Sys2Proof Sys2Proof.Machine

/-- Settles O38: each command of the recorder with a valid request, and the boundary's part. -/
theorem recorderCommands : Obligations.RecorderCommands := by
  unfold Obligations.RecorderCommands
  refine ⟨?global, fun d ref r fine => applyRec_global fine, ?stream, fun d ref r => rfl, ?rule, ?store, ?taken, ?trigger,
    fun d ref tag runs room => applyRec_trigger runs room tag ref, ?list, ?keep, ?unkeep, ?delete, ?read⟩
  case global =>
    exact fun s ctx r served kept ringMax ringWhole preMax postMin postMax maxMin maxMax => exec_served (body := recGlobal r) rfl served
      (recGlobal_waits (d := s.dev.begun ctx) kept ⟨ringMax, ringWhole, preMax, postMin, postMax, maxMin, maxMax⟩)
  case stream =>
    exact fun s ctx r served stream appid source fold => exec_served (body := recStream r) rfl served
      (recStream_waits (d := s.dev.begun ctx) stream appid source
        (fold.imp_right (fun ⟨k, channelsMin, channelsMax, wrap⟩ => ⟨k, channelsMin, channelsMax, wrap⟩)))
  case rule =>
    exact fun s ctx r served rule cmp stream channel holdMin holdMax levelMin levelMax samples => exec_served (body := recRule r) rfl served
      (recRule_waits (d := s.dev.begun ctx) ⟨rule, cmp, stream, channel, holdMin, holdMax, levelMin, levelMax⟩ samples)
  case store =>
    exact fun s ctx r served stopped some few named present formats plain => exec_served (body := recStore r) rfl served
      (recStore_waits (d := s.dev.begun ctx) stopped ⟨some, few, named, present, formats, plain⟩)
  case taken =>
    rintro d _ _ ref r fine rfl rfl
    exact applyRec_store fine
  case trigger =>
    exact fun s ctx tag served runs room => exec_served (body := recTrigger tag) rfl served (recTrigger_waits (d := s.dev.begun ctx) runs room tag _)
  case list =>
    exact fun s ctx id count served some few => ⟨_, rfl, exec_served (body := indexList id count) rfl served (indexList_answers (d := s.dev.begun ctx) some few)⟩
  case keep =>
    exact fun s ctx id served listed => exec_served (body := indexKeep id true) rfl served (indexKeep_marks (d := s.dev.begun ctx) listed)
  case unkeep =>
    exact fun s ctx id served listed => exec_served (body := indexKeep id false) rfl served (indexKeep_marks (d := s.dev.begun ctx) listed)
  case delete =>
    exact fun s ctx id served stored listed => exec_served (body := indexDelete id) rfl served (indexDelete_removes (d := s.dev.begun ctx) stored listed)
  case read =>
    exact fun s ctx id pile addr slot e b served entry stored place bytes => exec_served (body := indexReadPile id pile addr) rfl served
      (indexReadPile_issues (d := s.dev.begun ctx) entry stored place bytes)
end

section
/-!
PROOFS. The events of the recorder (R414, R418, R423, R424, R430).
-/
namespace Sys2Proof.Machine
open Sys2Proof

variable {d : Dev}

/-! ### The ends of blocks, piles and captures -/

/-- A block is closed 2 ms after its first ASDU. -/
theorem foldTimeout_closes {i now : Nat} {x : Stream} {a : Asdu} {l : List Asdu} (stream : d.stream i = some x) (block : x.block = a :: l)
    (old : a.st.clk + 16 * Config.clocksPerTick ≤ (d.stamp now).clk) : foldTimeout i now d = d.closeBlock i now := by
  have first : (d.stream i).bind (fun s => s.block.head?) = some a := by rw [stream, Option.bind_some, block, List.head?_cons]
  unfold foldTimeout
  rw [first]
  exact if_pos old

/-- A pile is closed 16 ms after it was opened. -/
theorem pileTimeout_closes {now : Nat} {p : OpenPile} (pile : d.recd.pile = some p) (old : p.opened + 128 * Config.clocksPerTick ≤ (d.stamp now).clk) :
    pileTimeout now d = d.closePile false now := by
  unfold pileTimeout
  rw [pile]
  exact if_pos old

/-- Everything gathered is closed, where there is something. -/
theorem closeAll_eq (d : Dev) (now : Nat) :
    d.closeAll false now = if d.recd.pile = none ∧ d.openBlocks = [] then d else (d.closePile false now).finalize false now := by
  unfold Dev.closeAll
  simp only [Option.isNone_iff_eq_none, List.isEmpty_iff]

/-- The device after the end of a capture. -/
def Dev.captureEnded (d : Dev) (id : Nat) : Dev :=
  (d.modRec (fun r => { r with captures := d.recd.captures.map (fun (x : Capture) => if x.ent.id = id then { x with ended := true } else x) })).pump

/-- A capture whose end is reached ends after everything gathered is closed. -/
theorem captureEnd_ends {id now : Nat} {c : Capture} (open_ : d.recd.captures.find? (fun c => c.ent.id == id && !c.ended) = some c)
    (reached : c.e ≤ (d.stamp now).clk) : captureEnd id now d = (d.closeAll false now).captureEnded id := by
  unfold captureEnd
  rw [open_]
  exact if_neg (Nat.not_lt.2 reached)

/-! ### A step of the store (R424) -/

section
variable {c : Capture} {r : NvmeDone} (active : d.recd.active = some c)
include active

/-- A command that ends is one of the capture's. -/
theorem storeDone_active (known : c.phase = .piles → r.cmd < c.writing.length) : storeDone r d =
    if r.ok then d.stored c r.cmd
    else
      let again := if c.phase = .piles then (c.writing[r.cmd]?).elim false (·.retried) else c.retried
      if again then (d.nvmeError r).captureFail c.ent.id
      else (d.nvmeError r).modRec (·.modActive (fun c =>
        if c.phase = .piles then { c with writing := c.writing.modify r.cmd (fun w => { w with retried := true }) } else { c with retried := true })) := by
  unfold storeDone
  rw [active]
  exact if_neg (fun stray => Nat.not_le.2 (known stray.1) stray.2)

/-- One that ends well takes the store a step further. -/
theorem storeDone_ok (known : c.phase = .piles → r.cmd < c.writing.length) (ok : r.ok = true) : storeDone r d = d.stored c r.cmd :=
  (storeDone_active active known).trans (if_pos ok)

section
variable (failed : r.ok = false)
include failed

/-- The first failure of a write of a pile is retried. -/
theorem storeDone_retries {w : NvmeWrite} (phase : c.phase = .piles) (write : c.writing[r.cmd]? = some w) (first : w.retried = false) : storeDone r d =
    (d.nvmeError r).modRec (·.modActive (fun c =>
      if c.phase = .piles then { c with writing := c.writing.modify r.cmd (fun w => { w with retried := true }) } else { c with retried := true })) := by
  have again : (if c.phase = .piles then (c.writing[r.cmd]?).elim false (·.retried) else c.retried) = false := by rw [if_pos phase, write]; exact first
  rw [storeDone_active active (fun _ => (List.getElem?_eq_some_iff.1 write).1), if_neg (Bool.eq_false_iff.1 failed)]
  dsimp only
  rw [again]
  exact if_neg Bool.false_ne_true

/-- The second failure of another command fails the capture. -/
theorem storeDone_fails (phase : c.phase ≠ .piles) (second : c.retried = true) : storeDone r d = (d.nvmeError r).captureFail c.ent.id := by
  have again : (if c.phase = .piles then (c.writing[r.cmd]?).elim false (·.retried) else c.retried) = true := (if_neg phase).trans second
  rw [storeDone_active active (fun piles => absurd piles phase), if_neg (Bool.eq_false_iff.1 failed)]
  dsimp only
  rw [again]
  exact if_pos rfl

end
end

section
variable {c : Capture} {cmd : Nat}

/-- The device with a pile of the capture in the store. -/
def Dev.pileStored (d : Dev) (cmd : Nat) (w : NvmeWrite) : Dev :=
  d.modRec (fun x => { (x.modActive (fun y => { y with
    pins := y.pins.filter (· != w.pin), writing := y.writing.eraseIdx cmd, ent := { y.ent with piles := y.ent.piles + 1 } })) with
      store := tset x.store w.slot ((d.recd.ring.find? (fun p => p.slot == w.pin)).elim [] (·.bytes)) })

/-- A pile is stored and unpinned. -/
theorem stored_pile {w : NvmeWrite} (phase : c.phase = .piles) (write : c.writing[cmd]? = some w) :
    d.stored c cmd = ((d.pileStored cmd w).countDev .recPilesStored).pump := by
  unfold Dev.stored
  rw [phase]
  dsimp only
  rw [write]
  rfl

/-- The first Flush is followed by the entry. -/
theorem stored_flush (phase : c.phase = .flush1) : d.stored c cmd =
    d.modRec (·.modActive (fun c => { c with phase := .entry, retried := false, ent := { c.ent with endCycle := c.e / Config.clocksPerTick } })) := by
  unfold Dev.stored
  rw [phase]

/-- The entry is followed by the second Flush. -/
theorem stored_entry (phase : c.phase = .entry) : d.stored c cmd = d.modRec (·.modActive (fun c => { c with phase := .flush2, retried := false })) := by
  unfold Dev.stored
  rw [phase]

/-- The device with a capture complete. -/
def Dev.captureListed (d : Dev) (c : Capture) : Dev :=
  (((d.modRec (fun x => { x with dir := x.dir ++ [c.ent], captures := x.captures.drop 1 })).raise 0x381
    (le 8 c.ent.id ++ le 4 c.ent.piles ++ le 2 c.ent.flags)).endOp (fun o => o = HeavyOp.recorderFlush c.ent.id)).pump

/-- The second Flush completes the capture, in a directory with room. -/
theorem stored_last (phase : c.phase = .flush2) (room : d.recd.dir.length < dirEntries) : d.stored c cmd = d.captureListed c := by
  unfold Dev.stored
  rw [phase]
  dsimp only
  rw [if_pos room]
  rfl

/-- In a full one the oldest capture without KEEP makes room. -/
theorem stored_last_full {e : DirEnt} (phase : c.phase = .flush2) (full : dirEntries ≤ d.recd.dir.length) (oldest : d.recd.dir.find? (fun e => !e.keep) = some e) :
    d.stored c cmd = ((d.modRec (fun x => x.delete e.id)).countDev .recEvicted).captureListed c := by
  unfold Dev.stored
  rw [phase]
  dsimp only
  rw [if_neg (Nat.not_lt.2 full), oldest]
  rfl

end

/-! ### Other commands of the store (R425, R429, R430) -/

/-- The device with a Read or a deallocation off the queue. -/
def Dev.nvmeGone (d : Dev) (cmd : Nat) : Dev := (d.modRec (fun x => { x with nvme := x.nvme.eraseIdx cmd })).pump

section
variable {r : NvmeDone} (inFlight : r.cmd < Config.nvmeSlots - d.recd.active.elim 0 (fun c => c.writing.length)) (mem : List Host.Cell)
include inFlight

/-- A command in flight stands in the queue. -/
theorem inFlight_eq : (d.recd.nvme.take (Config.nvmeSlots - d.recd.active.elim 0 (fun c => c.writing.length)))[r.cmd]? = d.recd.nvme[r.cmd]? :=
  List.getElem?_take_of_lt inFlight

/-- A deallocation leaves the queue. -/
theorem otherDone_deallocate {l : List Nat} (command : d.recd.nvme[r.cmd]? = some (.deallocate l)) :
    otherDone r d mem = ((if r.ok then d else d.nvmeError r).nvmeGone r.cmd, mem) := by
  unfold otherDone
  dsimp only
  rw [inFlight_eq inFlight, command]
  rfl

/-- A Read leaves the queue, and its pile is put into host memory where it ended well. -/
theorem otherDone_read {ref : CmdRef} {addr : Nat} {pile : Bytes} (awake : d.host.d3 = false) (command : d.recd.nvme[r.cmd]? = some (.read ref addr pile)) :
    otherDone r d mem = if r.ok then ((d.nvmeGone r.cmd).complete ref .ok, memWrite mem addr pile)
      else (((d.nvmeError r).nvmeGone r.cmd).complete ref .invalid, mem) := by
  unfold otherDone
  dsimp only
  rw [inFlight_eq inFlight, command]
  exact if_neg (Bool.eq_false_iff.1 awake)

end

section
variable {r : NvmeDone} {s : State}

/-- A command of the capture being stored changes the device alone. -/
theorem exec_nvme_store {e : Dev} (kind : r.kind = 0) (done : storeDone r s.dev = e) : exec (.nvmeCompletion r) s = .next (s.withDev e) := by
  refine exec_next_dma (m := s.hostMem) rfl ?_
  unfold nvmeCompletion
  rw [kind]
  exact congrArg (·, s.hostMem) done

/-- A Read or a deallocation may change host memory too. -/
theorem exec_nvme_other {e : Dev} {m : List Host.Cell} (kind : r.kind = 1) (done : otherDone r s.dev s.hostMem = (e, m)) :
    exec (.nvmeCompletion r) s = .next { s with dev := e, hostMem := m } := by
  refine exec_next_dma rfl ?_
  unfold nvmeCompletion
  rw [kind]
  exact done

/-- Of any other command a failure alone is counted and reported. -/
theorem exec_nvme_rest (kind : 2 ≤ r.kind) : exec (.nvmeCompletion r) s = .next (s.withDev (if r.ok = true then s.dev else s.dev.nvmeError r)) := by
  obtain ⟨n, rest⟩ := Nat.exists_eq_add_of_le' kind
  refine exec_next_dma (m := s.hostMem) rfl ?_
  unfold nvmeCompletion
  rw [rest]
  rfl

end

end Sys2Proof.Machine

open Sys2Proof Sys2Proof.Machine

/-- Settles O39: the ends of blocks, piles and captures, and each completion of a command of the store in the cases of its step. -/
theorem recorderEvents : Obligations.RecorderEvents := by
  unfold Obligations.RecorderEvents
  refine ⟨fun s i now x a l stream block old => exec_next rfl (foldTimeout_closes stream block old),
    fun s now p pile old => exec_next rfl (pileTimeout_closes pile old), ?ended, ?pile, ?flush, ?entry, ?last, ?full, ?read, ?deallocate,
    fun s r kind => exec_nvme_rest kind, ?retried, ?failed, fun s up other => exec_next rfl (if_neg other)⟩
  case ended =>
    rintro s id now c _ open_ reached rfl
    rw [← closeAll_eq]
    exact exec_next rfl (captureEnd_ends open_ reached)
  case pile =>
    rintro s c r w _ kind active ok phase write rfl
    exact exec_nvme_store kind ((storeDone_ok active (fun _ => (List.getElem?_eq_some_iff.1 write).1) ok).trans (stored_pile phase write))
  case flush =>
    exact fun s c r kind active ok phase => exec_nvme_store kind
      ((storeDone_ok active (fun piles => absurd (phase.symm.trans piles) (by decide)) ok).trans (stored_flush phase))
  case entry =>
    exact fun s c r kind active ok phase => exec_nvme_store kind
      ((storeDone_ok active (fun piles => absurd (phase.symm.trans piles) (by decide)) ok).trans (stored_entry phase))
  case last =>
    exact fun s c r kind active ok phase room => exec_nvme_store kind
      ((storeDone_ok active (fun piles => absurd (phase.symm.trans piles) (by decide)) ok).trans (stored_last phase room))
  case full =>
    exact fun s c r e kind active ok phase full oldest => exec_nvme_store kind
      ((storeDone_ok active (fun piles => absurd (phase.symm.trans piles) (by decide)) ok).trans (stored_last_full phase full oldest))
  case read =>
    intro s r ref addr pile kind awake inFlight command
    have done := otherDone_read inFlight s.hostMem awake command
    cases ok : r.ok with
    | true => exact exec_nvme_other kind (done.trans (if_pos ok))
    | false => exact exec_nvme_other kind (done.trans (if_neg (Bool.eq_false_iff.1 ok)))
  case deallocate => exact fun s r l kind inFlight command => exec_nvme_other kind (otherDone_deallocate inFlight s.hostMem command)
  case retried =>
    exact fun s c r w kind active failed phase write first => exec_nvme_store kind (storeDone_retries active failed phase write first)
  case failed => exact fun s c r kind active failed phase second => exec_nvme_store kind (storeDone_fails active failed phase second)
end

section
/-!
PROOFS. The commands of the firmware image (R457 to R459, R462, R467 to R470).
-/
namespace Sys2Proof.Machine
open Sys2Proof

variable {d : Dev} {ref : CmdRef}

/-! ### IMAGE_OPEN (R457, R467) -/

/-- A party that opens again ends the idle time. -/
def Session.heard (x : Session) (src : Nat) : Session := if x.parties.contains src then { x with idle := 0 } else x

/-- The session that a source has joined. -/
def Session.joined (x : Session) (src : Nat) : Session :=
  { x with parties := if x.parties.contains src = true then x.parties else src :: x.parties, idle := 0 }

/-- Only the idle time ends. -/
theorem heard_fields (x : Session) (src : Nat) : (x.heard src).digest = x.digest ∧ (x.heard src).blocks = x.blocks ∧ (x.heard src).owner = x.owner ∧
    (x.heard src).received = x.received ∧ (x.heard src).joined src = x.joined src := by
  unfold Session.heard
  cases known : x.parties.contains src with
  | false => exact ⟨rfl, rfl, rfl, rfl, rfl⟩
  | true => exact ⟨rfl, rfl, rfl, rfl, rfl⟩

/-- The device that has heard from a source. -/
def Dev.heardFrom (d : Dev) (src : Nat) : Dev := d.modUpd (fun u => { u with session := u.session.map (fun x => x.heard src) })

/-- Without a session nothing changes. -/
theorem heardFrom_none {src : Nat} (session : d.upd.session = none) : d.heardFrom src = d := by
  show ({ d with upd := { d.upd with session := d.upd.session.map (fun x => x.heard src) } } : Dev) = d
  rw [session, Option.map_none, ← session]

/-- An offer waits for the end of the tick. -/
def Dev.offered (d : Dev) (src : Nat) (ref : Option CmdRef) (r : ImageOpenReq) : Dev :=
  d.modUpd (fun u => { u with offers := u.offers ++ [{ src, ref, blocks := r.blocks, digest := r.digest }] })

section
variable {src : Nat} {from_ : Option CmdRef} {r : ImageOpenReq} (settled : d.upd.trial = none) (blocksMin : 2 ≤ r.blocks) (blocksMax : r.blocks ≤ 6144)
  (serves : d.sec.lifecycle ≠ .decommissioned)
include settled blocksMin blocksMax serves

omit settled serves in
/-- The blocks of an image are in range. -/
theorem blocks_inRange : ¬ (!(decide (2 ≤ r.blocks) && decide (r.blocks ≤ 6144))) = true := by
  rw [decide_eq_true blocksMin, decide_eq_true blocksMax]
  decide

omit blocksMin blocksMax serves in
/-- No trial runs. -/
theorem trial_settled : ¬ (d.heardFrom src).upd.trial.isSome = true := by
  show ¬ d.upd.trial.isSome = true
  rw [settled]
  exact Bool.false_ne_true

/-- With no session open an offer waits. -/
theorem imageOpen_waits (session : d.upd.session = none) : imageOpen src from_ r d = d.offered src from_ r := by
  have empty : (d.heardFrom src).upd.session = none := by rw [heardFrom_none session]; exact session
  refine (if_neg (trial_settled settled)).trans ?_
  show (match (d.heardFrom src).upd.session with | some _ => _ | none => _) = _
  rw [empty]
  refine (if_neg (blocks_inRange blocksMin blocksMax)).trans ((if_neg serves).trans ?_)
  exact congrArg (fun e : Dev => e.offered src from_ r) (heardFrom_none session)

section
variable {x : Session} (session : d.upd.session = some x)
include session

omit settled blocksMin blocksMax serves in
/-- The session that has heard from the source. -/
theorem heardFrom_session : (d.heardFrom src).upd.session = some (x.heard src) := by
  show d.upd.session.map (fun x => x.heard src) = _
  rw [session, Option.map_some]

/-- A session with another image that has been idle for long gives way to an offer. -/
theorem imageOpen_takesOver (other : x.digest ≠ r.digest) (idle : idleLimit < x.idle) : imageOpen src from_ r d = d.endSession.offered src from_ r := by
  obtain ⟨digest, -⟩ := heard_fields x src
  have long : ¬ d.upd.session.elim 0 (fun x => x.idle) ≤ idleLimit := by rw [session]; exact Nat.not_le.2 idle
  refine (if_neg (trial_settled settled)).trans ?_
  show (match (d.heardFrom src).upd.session with | some _ => _ | none => _) = _
  rw [heardFrom_session session]
  exact (if_neg (fun same => other (digest.symm.trans same))).trans
    ((if_neg long).trans ((if_neg (blocks_inRange blocksMin blocksMax)).trans (if_neg serves)))

/-- One with the same image is joined. -/
theorem imageOpen_joins (same : x.digest = r.digest) (blocks : r.blocks = x.blocks) : imageOpen src from_ r d =
    (let e := d.modUpd (fun u => { u with session := some (x.joined src) })
     let role := if src = x.owner then 0 else 1
     (e.raise 0x3C0 (le 1 src ++ le 1 role)).imgAnswer src 0x0C01 from_ .ok (openResp e.otherSlot role x.received.length)) := by
  obtain ⟨digest, count, owner, received, joins⟩ := heard_fields x src
  have fits : ¬ ((!(decide (2 ≤ r.blocks) && decide (r.blocks ≤ 6144))) = true ∨ r.blocks ≠ (x.heard src).blocks) :=
    fun bad => bad.elim (blocks_inRange blocksMin blocksMax) (fun other => other (blocks.trans count.symm))
  refine (if_neg (trial_settled settled)).trans ?_
  show (match (d.heardFrom src).upd.session with | some _ => _ | none => _) = _
  rw [heardFrom_session session]
  refine (if_pos (digest.trans same)).trans ((if_neg fits).trans ((if_neg serves).trans ?_))
  show (let e := (d.heardFrom src).modUpd (fun u => { u with session := some ((x.heard src).joined src) })
    let role := if src = (x.heard src).owner then 0 else 1
    (e.raise 0x3C0 (le 1 src ++ le 1 role)).imgAnswer src 0x0C01 from_ .ok (openResp e.otherSlot role (x.heard src).received.length)) = _
  rw [joins, owner, received]
  rfl

end
end

/-- An agent is enabled or disabled. -/
theorem imageAgent_sets {r : AgentReq} (agent : r.agent ≤ 3) (flow : r.enable = true → r.replyFlow ≤ 131071) (serves : d.sec.lifecycle ≠ .decommissioned) :
    imageAgent r ref d =
    (d.modUpd (fun u => { u with agents := if r.enable = true then tset u.agents r.agent (r.addr, r.replyFlow) else tdel u.agents r.agent })).complete ref .ok := by
  have inRange : ¬ (3 < r.agent ∨ (r.enable = true ∧ 131071 < r.replyFlow)) :=
    fun bad => bad.elim (Nat.not_lt.2 agent) (fun high => Nat.not_lt.2 (flow high.1) high.2)
  exact (if_neg inRange).trans (if_neg serves)

end Sys2Proof.Machine
end

section
/-!
PROOFS. The blocks of an image, its verification, activation, trial and rollback, and its agents (R455, R456, R458 to R462, R468 to R470).
-/
namespace Sys2Proof.Machine
open Sys2Proof

variable {d : Dev} {ref : CmdRef}

/-! ### IMAGE_BLOCK (R458, R468) -/

/-- The device whose session is `y`. -/
def Dev.withSession (d : Dev) (y : Session) : Dev := d.modUpd (fun u => { u with session := some y })

/-- The device with a block programmed into the other slot. -/
def Dev.programmed (d : Dev) (i : Nat) (block : Bytes) (y : Session) : Dev :=
  d.modUpd (fun u => { u.setImage d.otherSlot (tset (u.image d.otherSlot) i block) with session := some y })

/-- Programming keeps nothing of the session before. -/
theorem setImage_session (u : Update) (slot : Nat) (image : Tbl Bytes) (x y : Option Session) :
    ({ ({ u with session := x } : Update).setImage slot image with session := y } : Update) = { u.setImage slot image with session := y } := by
  unfold Update.setImage
  by_cases first : slot = 0
  · rw [if_pos first, if_pos first]
  · rw [if_neg first, if_neg first]

/-- So a session that is programmed does not matter. -/
theorem withSession_programmed (d : Dev) (x y : Session) (i : Nat) (block : Bytes) : (d.withSession x).programmed i block y = d.programmed i block y :=
  congrArg (fun u => ({ d with upd := u } : Dev)) (setImage_session d.upd d.otherSlot (tset (d.upd.image d.otherSlot) i block) (some x) (some y))

section
variable {src : Nat} {r : ImageBlockReq} {x : Session} (session : d.upd.session = some x) (party : x.parties.contains src = true) (index : r.index < x.blocks)
include session party index

/-- A block of a party within the image. -/
theorem imageBlock_party : imageBlock src r d =
    if !blockFits r.block then (.invalid, [], (d.withSession { x with idle := 0 }).countDev .updBlockCrc)
    else if x.received.contains r.index then (.ok, le 4 x.received.length ++ le 1 1 ++ zeros 3, d.withSession { x with idle := 0 })
    else if 2 ≤ r.flashFails then
      let e := ((d.withSession { x with idle := 0 }).modUpd (fun u => { u with result := 10 })).endSession.raise 0x3C8 (le 4 r.index)
      (e.freeStatus.1, le 4 x.received.length ++ zeros 4, e.freeStatus.2)
    else
      let y := ({ x with idle := 0 } : Session).took r.index
      (.ok, le 4 y.received.length ++ zeros 4, (d.withSession { x with idle := 0 }).programmed r.index r.block y) := by
  unfold imageBlock
  rw [session]
  exact (if_neg (by rw [party]; decide)).trans (if_neg (Nat.not_le.2 index))

/-- A block that does not fit its checksum is counted. -/
theorem imageBlock_crc (broken : blockFits r.block = false) :
    imageBlock src r d = (.invalid, [], (d.withSession { x with idle := 0 }).countDev .updBlockCrc) := by
  rw [imageBlock_party session party index]
  exact if_pos (by rw [broken]; rfl)

section
variable (fits : blockFits r.block = true)
include fits

/-- One that is held already is answered so. -/
theorem imageBlock_again (held : x.received.contains r.index = true) :
    imageBlock src r d = (.ok, le 4 x.received.length ++ le 1 1 ++ zeros 3, d.withSession { x with idle := 0 }) := by
  rw [imageBlock_party session party index, if_neg (by rw [fits]; decide)]
  exact if_pos held

section
variable (fresh : x.received.contains r.index = false)
include fresh

/-- A new one is programmed and counted. -/
theorem imageBlock_programs (works : r.flashFails ≤ 1) : imageBlock src r d =
    (let y := ({ x with idle := 0 } : Session).took r.index
     (.ok, le 4 y.received.length ++ zeros 4, d.programmed r.index r.block y)) := by
  rw [imageBlock_party session party index, if_neg (by rw [fits]; decide), if_neg (Bool.eq_false_iff.1 fresh), if_neg (by omega)]
  dsimp only
  rw [withSession_programmed]

/-- A second failure of its programming ends the session. -/
theorem imageBlock_fails (fails : 2 ≤ r.flashFails) : imageBlock src r d =
    (let e := ((d.withSession { x with idle := 0 }).modUpd (fun u => { u with result := 10 })).endSession.raise 0x3C8 (le 4 r.index)
     (e.freeStatus.1, le 4 x.received.length ++ zeros 4, e.freeStatus.2)) := by
  rw [imageBlock_party session party index, if_neg (by rw [fits]; decide), if_neg (Bool.eq_false_iff.1 fresh)]
  exact if_pos fails

end
end
end

/-! ### Verification and the bitmap (R455, R458) -/

/-- Verification ends in READY, or with the RESULT of the check that failed. -/
theorem imageVerifyDone_ends {x : Session} (session : d.upd.session = some x) (state : x.state = .verifying) : imageVerifyDone d =
    (d.verifyImage (d.upd.image d.otherSlot) x).elim
      ((d.modUpd (fun u => { u with session := some { x with state := .ready }, result := 1 })).raise 0x3C2 (le 1 1))
      (fun e => (d.modUpd (fun u => { u with result := e })).endSession.raise 0x3C2 (le 1 e)) := by
  unfold imageVerifyDone
  rw [session]
  refine (if_neg (not_not.2 state)).trans ?_
  cases d.verifyImage (d.upd.image d.otherSlot) x <;> rfl

/-- The bitmap is made persistent after a second without a block. -/
theorem bitmapPersist_persists {x : Session} (session : d.upd.session = some x) (idle : Config.ticksPerSecond ≤ x.idle) :
    bitmapPersist d = d.modUpd (fun u => { u with session := some { x with persisted := x.received } }) := by
  unfold bitmapPersist
  rw [session]
  exact if_neg (Nat.not_lt.2 idle)

/-! ### Activation, trial and rollback (R459 to R462) -/

/-- Activation of an image that is ready begins the pause. -/
theorem imageActivate_pauses {x : Session} (settled : d.upd.trial = none) (session : d.upd.session = some x) (state : x.state = .ready)
    (free : d.activateBusy ref = false) :
    imageActivate ref d = d.modUpd (fun u => { u with pause := some { why := .activate ref, p := d.now + 1, begun := false } }) := by
  have allowed : ¬ (d.upd.trial.isSome = true ∨ (!d.upd.session.elim false (fun x => decide (x.state = .ready))) = true) := by
    rw [settled, session, Option.elim_some, state]
    decide
  exact (if_neg allowed).trans (if_neg (Bool.eq_false_iff.1 free))

section
variable {p : Pause} (pause : d.upd.pause = some p) (begun : p.begun = true)
include pause begun

/-- The other slot with the settings, in trial. -/
def Dev.inTrial (d : Dev) (p : Pause) : Dev := d.modUpd (fun u => { u.setSettings d.otherSlot (u.settings d.dev.slot) with trial := some p.p })

/-- The end of the pause of an activation enters TRIAL in the other slot. -/
theorem pauseEnd_trial {now : Nat} (why : p.why = .activate ref) : pauseEnd true now d =
    (((d.inTrial p).runSlot d.otherSlot).endPause p now).complete ref .ok (activateResp p.p ((d.inTrial p).pauseUs p now) d.otherSlot) := by
  unfold pauseEnd
  rw [pause]
  dsimp only
  rw [why]
  exact if_neg (by rw [begun]; decide)

/-- An image that cannot read the settings hands back. -/
theorem pauseEnd_handsBack {now : Nat} (why : p.why = .activate ref) :
    pauseEnd false now d = (d.modUpd (fun u => { u with pause := some { p with why := .handBack ref }, result := 7 })).raise 0x3C5 := by
  unfold pauseEnd
  rw [pause]
  dsimp only
  rw [why]
  exact (if_neg (by rw [begun]; decide)).trans (if_neg Bool.false_ne_true)

/-- The end of the pause of a rollback runs the old slot. -/
theorem rollbackPauseEnd_rolledBack {now : Nat} {from_ : Option CmdRef} (why : p.why = .rollback from_) : rollbackPauseEnd now d =
    (let e := (d.runSlot d.otherSlot).endPause p now
     ({ e with host := { e.host with fatal := false } } : Dev).completeOpt from_ .ok) := by
  unfold rollbackPauseEnd
  rw [pause]
  refine (if_neg (by rw [begun]; decide)).trans ?_
  rw [why]

/-- That of a hand-back answers the activation. -/
theorem rollbackPauseEnd_handedBack {now : Nat} (why : p.why = .handBack ref) : rollbackPauseEnd now d =
    (d.endPause p now).answer ref .settingsIncompatible (activateResp p.p (d.pauseUs p now) d.dev.slot) := by
  unfold rollbackPauseEnd
  rw [pause]
  refine (if_neg (by rw [begun]; decide)).trans ?_
  rw [why]

end

section
variable {p : Nat} (trial : d.upd.trial = some p)
include trial

/-- COMMIT within the trial ends it, and the session. -/
theorem imageCommit_ends (time : d.now ≤ p + trialTicks) : imageCommit ref d =
    (let u := d.modUpd (fun u => { u with trial := none, bootSlot := d.dev.slot, result := 1 })
     let e := if d.upd.session.isSome = true then u.endSession else u
     (e.raise 0x3C6 (le 1 e.dev.slot)).complete ref .ok (le 1 e.upd.bootSlot)) := by
  unfold imageCommit
  rw [trial]
  exact if_neg (Nat.not_lt.2 time)

/-- ABORT of a trial rolls back. -/
theorem abortRollback_rolls : abortRollback ref d = d.rollback 8 (some ref) := if_neg (by rw [trial]; exact Bool.false_ne_true)

/-- So does its deadline. -/
theorem trialExpiry_rolls (due : p + trialTicks ≤ d.now) : trialExpiry d = d.rollback 5 none :=
  if_pos (by rw [trial, Option.elim_some]; exact decide_eq_true due)

end

/-- ABORT by the host ends any session. -/
theorem abortSession_ends {x : Session} (session : d.upd.session = some x) : abortSession 0 d = (.ok, d.endSession) := by
  unfold abortSession
  rw [session]
  exact if_pos (Or.inl rfl)

/-! ### In-band agents (R456) -/

section
variable {k fails o : Nat} {e : Pkt} {rest : List (Nat × Pkt)} (ready : d.host.ready = true) (alive : d.host.fatal = false) (runs : d.upd.pause = none)
  (oldest : takeFirst (fun e => e.1 == 0xFF) d.cls.redirects = some ((k, e), rest)) (frame : afterTags e.data (e.data.length / 4 + 1) 12 = (0x88B5, o))
  (subtype : beAt e.data (o + 2) 2 = 0x4C01)
include ready alive runs oldest frame subtype

/-- The device with a frame off the queue of the management cores. -/
def Dev.redirectsLeft (d : Dev) (rest : List (Nat × Pkt)) : Dev := { d with cls := { d.cls with redirects := rest } }

/-- A frame of the protocol is one of an agent or not. -/
theorem inbandFrame_protocol : inbandFrame fails d =
    match d.upd.agents.find? (fun a => a.2.1 == beAt e.data 6 6) with
    | some (a, _) =>
      if [0x0C01, 0x0C02, 0x0C03, 0x0C06].contains (beAt e.data (o + 4) 2) then
        (d.redirectsLeft rest).serveAgent a (beAt e.data (o + 4) 2) (e.data.drop (o + 6)) fails
      else (d.redirectsLeft rest).raiseFirst 0x3C9 (le 4 (beAt e.data 6 6 % 2 ^ 32))
    | none => (d.redirectsLeft rest).raiseFirst 0x3C9 (le 4 (beAt e.data 6 6 % 2 ^ 32)) := by
  have serves : ¬ ((!d.host.ready) = true ∨ d.host.fatal = true ∨ d.upd.pause.isSome = true) := by rw [ready, alive, runs]; decide
  unfold inbandFrame
  rw [if_neg serves, oldest]
  dsimp only
  rw [frame]
  dsimp only
  rw [if_neg (by rw [subtype]; decide)]
  rfl

/-- A request of an agent that is enabled is served. -/
theorem inbandFrame_serves {a : Nat} {v : Nat × Nat} (agent : d.upd.agents.find? (fun a => a.2.1 == beAt e.data 6 6) = some (a, v))
    (request : beAt e.data (o + 4) 2 ∈ [0x0C01, 0x0C02, 0x0C03, 0x0C06]) :
    inbandFrame fails d = (d.redirectsLeft rest).serveAgent a (beAt e.data (o + 4) 2) (e.data.drop (o + 6)) fails := by
  rw [inbandFrame_protocol ready alive runs oldest frame subtype, agent]
  exact if_pos (List.contains_iff_mem.2 request)

/-- Any other is reported. -/
theorem inbandFrame_reports (stray : d.upd.agents.find? (fun a => a.2.1 == beAt e.data 6 6) = none ∨ beAt e.data (o + 4) 2 ∉ [0x0C01, 0x0C02, 0x0C03, 0x0C06]) :
    inbandFrame fails d = (d.redirectsLeft rest).raiseFirst 0x3C9 (le 4 (beAt e.data 6 6 % 2 ^ 32)) := by
  rw [inbandFrame_protocol ready alive runs oldest frame subtype]
  cases agent : d.upd.agents.find? (fun a => a.2.1 == beAt e.data 6 6) with
  | none => rfl
  | some a =>
    obtain unknown | request := stray
    · exact absurd (agent.symm.trans unknown) (Option.some_ne_none a)
    · exact if_neg (fun listed => request (List.contains_iff_mem.1 listed))

end

section
variable {a fails : Nat} {body : Bytes}

/-- A block of an agent is served as one of the host's. -/
theorem serveAgent_block (whole : 4104 ≤ body.length) : d.serveAgent a 0x0C02 body fails =
    (let x := imageBlock (a + 1) { index := leAt body 0 4, block := slice body 8 4096, flashFails := fails } d
     x.2.2.inbandReply a 0x0C02 x.1 x.2.1) := if_neg (Nat.not_lt.2 whole)

/-- So is an opening. -/
theorem serveAgent_open (whole : 64 ≤ body.length) (op : leAt body 0 1 = 0) : d.serveAgent a 0x0C01 body fails =
    imageOpen (a + 1) none { blocks := leAt body 4 4, digest := digestOf (slice body 16 48) } d :=
  (if_neg (by rw [op]; omega)).trans (if_neg (by rw [op]; decide))

/-- So is the end of a session. -/
theorem serveAgent_abort (whole : 1 ≤ body.length) (op : leAt body 0 1 = 0) : d.serveAgent a 0x0C06 body fails =
    (abortSession (a + 1) d).2.inbandReply a 0x0C06 (abortSession (a + 1) d).1 [] :=
  (if_neg (by rw [op]; omega)).trans (if_pos op)

/-- So is the rollback of a trial, which is answered first. -/
theorem serveAgent_rollback {x : Session} (whole : 1 ≤ body.length) (op : leAt body 0 1 = 1) (trial : d.upd.trial.isSome = true)
    (session : d.upd.session = some x) (owner : x.owner = a + 1) : d.serveAgent a 0x0C06 body fails = (d.inbandReply a 0x0C06 .ok []).rollback 8 none := by
  have owned : ¬ (d.upd.trial.isNone = true ∨ (!d.upd.session.elim false (fun x => x.owner == a + 1)) = true) := by
    rw [session, Option.elim_some, owner, Option.isNone_eq_false_iff.2 trial]
    simp
  exact (if_neg (by rw [op]; omega)).trans ((if_neg (by rw [op]; decide)).trans (if_neg owned))

end

/-! ### A pause that ends with the doorbells that waited -/

/-- The end of a pause takes the doorbells that waited. -/
theorem exec_pauseEnd {s : State} {readable : Bool} {now : Nat} {e : Dev} (ends : pauseEnd readable now s.dev = e) :
    exec (.pauseEnd readable now) s = s.onBoth (fun _ => takeRung e) := by
  rw [exec_of_dmaOp rfl s, ← ends]
  rfl

/-- So does that of a second pause. -/
theorem exec_rollbackPauseEnd {s : State} {now : Nat} {e : Dev} (ends : rollbackPauseEnd now s.dev = e) :
    exec (.rollbackPauseEnd now) s = s.onBoth (fun _ => takeRung e) := by
  rw [exec_of_dmaOp rfl s, ← ends]
  rfl

end Sys2Proof.Machine

open Sys2Proof Sys2Proof.Machine

/-- Settles O41: each command and event of an image in the cases of its meaning. -/
theorem imageSessions : Obligations.ImageSessions := by
  unfold Obligations.ImageSessions
  refine ⟨?waits, ?takesOver, ?joins, ?agent, ?block, ?again, ?fails, ?verified, ?status, ?activate, ?trial, ?back, ?commit, ?abort, ?roll,
    fun s p trial due => exec_next rfl (trialExpiry_rolls trial due), ?rolled, ?handed, fun s x session idle => exec_next rfl (bitmapPersist_persists session idle),
    ?serves, ?reports, fun d a fails body whole => serveAgent_block whole, fun d a fails body whole op => serveAgent_open whole op, fun d a fails body => rfl,
    fun d a fails body whole op => serveAgent_abort whole op, fun d a fails body x whole op trial session owner => serveAgent_rollback whole op trial session owner⟩
  case waits =>
    exact fun s ctx r served settled session blocksMin blocksMax serves => exec_served (body := fun ref => imageOpen 0 (some ref) r) rfl served
      (imageOpen_waits (d := s.dev.begun ctx) settled blocksMin blocksMax serves session)
  case takesOver =>
    exact fun s ctx r x served settled session other idle blocksMin blocksMax serves => exec_served (body := fun ref => imageOpen 0 (some ref) r) rfl served
      (imageOpen_takesOver (d := s.dev.begun ctx) settled blocksMin blocksMax serves session other idle)
  case joins =>
    rintro s ctx _ r x _ served settled session same blocks blocksMin blocksMax serves rfl rfl
    exact exec_served (body := fun ref => imageOpen 0 (some ref) r) rfl served
      (imageOpen_joins (d := s.dev.begun ctx) settled blocksMin blocksMax serves session same blocks)
  case agent =>
    exact fun s ctx r served agent flow serves => exec_served (body := imageAgent r) rfl served (imageAgent_sets (d := s.dev.begun ctx) agent flow serves)
  case block =>
    rintro s ctx r x _ served awake session party index fresh works rfl
    refine exec_served_dma (body := fun ref d => let x := imageBlock 0 r d; x.2.2.complete ref x.1 x.2.1) rfl served awake ?_
    dsimp only
    cases fits : blockFits r.block with
    | true => rw [imageBlock_programs (d := s.dev.begun ctx) session party index fits fresh works]; rfl
    | false => rw [imageBlock_crc (d := s.dev.begun ctx) session party index fits]; rfl
  case again =>
    intro s ctx r x served awake session party index fits held
    refine exec_served_dma (body := fun ref d => let x := imageBlock 0 r d; x.2.2.complete ref x.1 x.2.1) rfl served awake ?_
    dsimp only
    rw [imageBlock_again (d := s.dev.begun ctx) session party index fits held]
    rfl
  case fails =>
    rintro s ctx r x _ served awake session party index fits fresh fails rfl
    refine exec_served_dma (body := fun ref d => let x := imageBlock 0 r d; x.2.2.complete ref x.1 x.2.1) rfl served awake ?_
    dsimp only
    rw [imageBlock_fails (d := s.dev.begun ctx) session party index fits fresh fails]
    rfl
  case verified =>
    rintro s x _ session state rfl
    exact exec_next rfl (imageVerifyDone_ends session state)
  case status =>
    rintro s ctx _ served rfl
    exact exec_served (body := fun ref d => d.complete ref .ok (imageStatusResp d)) rfl served rfl
  case activate =>
    exact fun s ctx x served settled session state free => exec_served (body := imageActivate) rfl served
      (imageActivate_pauses (d := s.dev.begun ctx) settled session state free)
  case trial =>
    rintro s ref p _ now pause why begun rfl
    exact exec_pauseEnd (pauseEnd_trial pause begun why)
  case back => exact fun s ref p now pause why begun => exec_pauseEnd (pauseEnd_handsBack pause begun why)
  case commit =>
    rintro s ctx p _ served trial time rfl
    exact exec_served (body := imageCommit) rfl served (imageCommit_ends (d := s.dev.begun ctx) trial time)
  case abort =>
    intro s ctx x served session
    refine exec_served (body := fun ref d => let x := abortSession 0 d; x.2.complete ref x.1) rfl served ?_
    dsimp only
    rw [abortSession_ends (d := s.dev.begun ctx) session]
  case roll => exact fun s ctx p served trial => exec_served (body := abortRollback) rfl served (abortRollback_rolls (d := s.dev.begun ctx) trial)
  case rolled =>
    rintro s ref p now _ pause why begun rfl
    exact exec_rollbackPauseEnd (rollbackPauseEnd_rolledBack pause begun why)
  case handed => exact fun s ref p now pause why begun => exec_rollbackPauseEnd (rollbackPauseEnd_handedBack pause begun why)
  case serves =>
    exact fun s k e rest o a fails v ready alive runs oldest frame subtype agent request =>
      exec_next rfl (inbandFrame_serves ready alive runs oldest frame subtype agent request)
  case reports =>
    exact fun s k e rest o fails ready alive runs oldest frame subtype stray =>
      exec_next rfl (inbandFrame_reports ready alive runs oldest frame subtype stray)
end

section
/-!
PROOFS. Pushing an image to terminals (R464, R465, R471, R472).
-/
namespace Sys2Proof.Machine
open Sys2Proof

variable {d : Dev} {ref : CmdRef}

/-! ### The commands (R471) -/

/-- The tick of a target's offer: a dozing one is told at its wake. -/
def Dev.offerTick (d : Dev) (t i : Nat) : Nat := (((d.tree t).byId i).bind (fun y => y.doze.bind (·.endAt))).getD (d.now + 1)

/-- A target is offered the image: a dozing one is woken, and TSW_OFFER is queued. -/
def Dev.offerTo (d : Dev) (r : PushReq) (id i : Nat) : Dev :=
  ((d.tree r.tree).byId i).elim d (fun x =>
    (if x.state = .dozing then d.endDoze r.tree x else d).modTree r.tree (fun y => y.queueMsg
      (lockMsg i 0x60 2 (be 2 id ++ be 2 (ceilDiv r.len 1000) ++ be 4 r.len ++ be 4 (lget r.reportFlows i 0) ++ be 48 r.digest.toNat) none [] .plain .other 0
        ((if x.state = .dozing then d.endDoze r.tree x else d).offerTick r.tree i))))

/-- The push that a request starts. -/
def Dev.newPush (d : Dev) (r : PushReq) (ref : CmdRef) : Push :=
  { id := d.upd.nextPush, ref := some ref, state := 1, round := 1, perFrame := r.perFrame, rounds := r.rounds, len := r.len, digest := r.digest,
    image := r.image, targets := (pushIds r).map (fun i => (i, (1, List.range (ceilDiv r.len 1000)))),
    flows := (pushIds r).map (fun i => (i, lget r.reportFlows i 0)), left := List.range (ceilDiv r.len 1000), answers := [], deadline := none }

/-- The device with a push noted and offered to its targets. -/
def Dev.pushNoted (d : Dev) (r : PushReq) (p : Push) : Dev :=
  (pushIds r).foldl (fun (d : Dev) i => d.offerTo r p.id i)
    (d.modUpd (fun u => { u with nextPush := (u.nextPush + 1) % 65536, pushes := tset u.pushes r.tree p }))

/-- The fields of a push are in range. -/
structure PushFields (r : PushReq) : Prop where
  perFrameMin : 1 ≤ r.perFrame
  perFrameMax : r.perFrame ≤ 8
  roundsMin : 1 ≤ r.rounds
  roundsMax : r.rounds ≤ 16
  lenMin : 1 ≤ r.len
  lenMax : r.len ≤ 65535000

/-- START of targets that may be pushed to notes the push and offers it; one whose targets are all complete ends at once. -/
theorem pushStart_notes {r : PushReq} (free : (d.push r.tree).running = false) (up : d.treeUp r.tree = true) (fields : PushFields r)
    (targets : ∀ i ∈ pushIds r, d.pushTargetOk r.tree i (lget r.reportFlows i 0) = true) : pushStart r ref d =
    (let e := d.pushNoted r (d.newPush r ref)
     if (d.newPush r ref).allDone = true then e.endPush r.tree 2 else e) := by
  obtain ⟨perFrameMin, perFrameMax, roundsMin, roundsMax, lenMin, lenMax⟩ := fields
  have allowed : (pushIds r).any (fun i => !d.pushTargetOk r.tree i (lget r.reportFlows i 0)) = false :=
    List.any_eq_false.2 (fun i listed => by rw [targets i listed]; decide)
  have inRange : ¬ ((!d.treeUp r.tree) = true ∨ r.perFrame = 0 ∨ 8 < r.perFrame ∨ r.rounds = 0 ∨ 16 < r.rounds ∨ r.len = 0 ∨ 65535000 < r.len ∨
      (pushIds r).any (fun i => !d.pushTargetOk r.tree i (lget r.reportFlows i 0)) = true) := by
    rw [up, allowed]
    simp only [Bool.not_true, Bool.false_eq_true, false_or, or_false]
    omega
  refine (if_neg (Bool.eq_false_iff.1 free)).trans ((if_neg inRange).trans ?_)
  refine congrArg (fun f : Dev → Nat → Dev =>
    let e := (pushIds r).foldl f
      (d.modUpd (fun u => { u with nextPush := (u.nextPush + 1) % 65536, pushes := tset u.pushes r.tree (d.newPush r ref) }))
    if (d.newPush r ref).allDone = true then e.endPush r.tree 2 else e) (funext fun e => funext fun i => ?_)
  show _ = ((e.tree r.tree).byId i).elim e _
  cases (e.tree r.tree).byId i <;> rfl

section
variable {t : Nat} (present : d.treePresent t = true)
include present

/-- A tree that is present is answered. -/
theorem tree_present : ¬ (!d.treePresent t) = true := by
  rw [present]
  decide

/-- STATUS answers the push of its tree. -/
theorem pushStatus_answers : pushStatus t ref d = d.complete ref .ok (d.push t).resp := if_neg (tree_present present)

/-- Every target of a push is told to discard its pieces. -/
def Dev.pushDiscarded (d : Dev) (t : Nat) : Dev :=
  (tkeys (d.push t).targets).foldl (fun (d : Dev) i => d.modTree t (fun x => x.queueMsg (lockMsg i 0x64 2 (be 2 (d.push t).id) none [] .plain .other 0 (d.now + 1)))) d

/-- CANCEL tells every target, and ends a push that runs. -/
theorem pushCancel_tells : pushCancel t ref d =
    (let e := if (d.push t).running then (d.pushDiscarded t).endPush t 3 else d.pushDiscarded t
     e.complete ref .ok (e.push t).resp) := if_neg (tree_present present)

/-- ACTIVATE tells the terminals that are complete. -/
theorem pushActivate_tells {at_ : Nat} : pushActivate t at_ ref d =
    ((((d.push t).targets.filter (fun x => x.2.1 == 2)).map (·.1)).foldl (fun (d' : Dev) i =>
      d'.modTree t (fun x => x.queueMsg (lockMsg i 0x63 2 (be 2 (d.push t).id) (some at_) [] .shared .tswActivate 0 (d'.now + 1)))) d).complete ref .ok (d.push t).resp :=
  if_neg (tree_present present)

end

/-! ### Reports and rounds (R464, R465) -/

/-- The fields of a report are of the round in progress. -/
structure ReportFields (p : Push) (u : PlainUnit) : Prop where
  running : p.running = true
  id : beAt u.frame 0 2 = p.id
  round : beAt u.frame 2 1 = p.round
  queried : p.deadline.isSome = true
  state : beAt u.frame 3 1 ≤ 4
  ranges : beAt u.frame 4 1 ≤ 64
  active : (tgetD p.targets u.tid (0, [])).1 ≠ 6

/-- The device with a report's target changed. -/
def Dev.reportTaken (d : Dev) (u : PlainUnit) (code : Nat) : Dev :=
  (d.setTarget u.tree u.tid code).modPush u.tree (fun p => { p with
    answers := u.tid :: p.answers, targets := tmod p.targets u.tid (fun x => (x.1, if code = 2 then [] else reportMissing u.frame p.pieces)) })

/-- A report of the round changes its target, and ends the push when all are complete. -/
theorem tswReport_takes {u : PlainUnit} {rest : List PlainUnit} (oldest : takeFirst (fun u => d.isReport u) d.sec.released = some (u, rest))
    (fields : ReportFields (d.push u.tree) u) : tswReport d =
    (let e := ({ d with sec := { d.sec with released := rest } } : Dev).reportTaken u (reportCode (beAt u.frame 3 1))
     if (e.push u.tree).allDone then e.endPush u.tree 2 else e) := by
  obtain ⟨running, id, round, queried, state, ranges, active⟩ := fields
  have taken : ¬ ((!(d.push u.tree).running) = true ∨ beAt u.frame 0 2 ≠ (d.push u.tree).id ∨ beAt u.frame 2 1 ≠ (d.push u.tree).round ∨
      (d.push u.tree).deadline.isNone = true ∨ 4 < beAt u.frame 3 1 ∨ 64 < beAt u.frame 4 1 ∨ (tgetD (d.push u.tree).targets u.tid (0, [])).1 = 6) := by
    rw [running, Option.isNone_eq_false_iff.2 queried]
    rintro (bad | bad | bad | bad | bad | bad | bad)
    · exact Bool.noConfusion bad
    · exact bad id
    · exact bad round
    · exact Bool.noConfusion bad
    · exact Nat.not_lt.2 state bad
    · exact Nat.not_lt.2 ranges bad
    · exact active bad
  unfold tswReport
  rw [oldest]
  exact if_neg taken

/-- The device whose silent targets are marked. -/
def Dev.silenceMarked (d : Dev) (t : Nat) : Dev :=
  (((d.push t).targets.filter (fun x => !codeDone x.2.1 && !(d.push t).answers.contains x.1)).map (·.1)).foldl (fun (d : Dev) id => d.setTarget t id 5) d

/-- The end of a round's time begins the next round, or ends the push after the last. -/
theorem tswQueryTimeout_ends {t x : Nat} (running : (d.push t).running = true) (deadline : (d.push t).deadline = some x) (due : x ≤ d.now) :
    tswQueryTimeout t d =
    if (d.push t).rounds ≤ (d.push t).round then (d.silenceMarked t).endPush t 2
    else ((d.silenceMarked t).modPush t (fun p => { p with round := p.round + 1, deadline := none, left := p.lacking })).pushQuery t := by
  refine if_neg ?_
  rw [running, deadline, Option.elim_some, decide_eq_true due]
  decide

end Sys2Proof.Machine

open Sys2Proof Sys2Proof.Machine

/-- Settles O42: each command of a push with a valid request, a report of the round, and the end of a round's time. -/
theorem terminalImages : Obligations.TerminalImages := by
  unfold Obligations.TerminalImages
  refine ⟨?start, ?status, ?cancel, ?again, ?activate, ?report, ?timeout⟩
  case start =>
    rintro s ctx r _ _ served free up perFrameMin perFrameMax roundsMin roundsMax lenMin lenMax targets rfl rfl
    exact exec_served (body := pushStart r) rfl served
      (pushStart_notes (d := s.dev.begun ctx) free up ⟨perFrameMin, perFrameMax, roundsMin, roundsMax, lenMin, lenMax⟩ targets)
  case status => exact fun s ctx t served present => exec_served (body := pushStatus t) rfl served (pushStatus_answers (d := s.dev.begun ctx) present)
  case cancel =>
    rintro s ctx t _ served present running rfl
    refine exec_served (body := pushCancel t) rfl served ((pushCancel_tells (d := s.dev.begun ctx) present).trans ?_)
    dsimp only
    rw [if_pos (show ((s.dev.begun ctx).push t).running = true from running)]
    rfl
  case again =>
    rintro s ctx t _ served present ended rfl
    refine exec_served (body := pushCancel t) rfl served ((pushCancel_tells (d := s.dev.begun ctx) present).trans ?_)
    dsimp only
    rw [if_neg (Bool.eq_false_iff.1 (show ((s.dev.begun ctx).push t).running = false from ended))]
    rfl
  case activate =>
    rintro s ctx t at_ _ served present rfl
    exact exec_served (body := pushActivate t at_) rfl served (pushActivate_tells (d := s.dev.begun ctx) present)
  case report =>
    rintro s u rest _ _ _ _ oldest rfl running id round queried state ranges active rfl rfl rfl
    exact exec_next rfl (tswReport_takes oldest ⟨running, id, round, queried, state, ranges, active⟩)
  case timeout =>
    rintro s t x _ _ rfl running deadline due rfl
    exact exec_next rfl (tswQueryTimeout_ends running deadline due)
end
